-- ==== Sys2Proof/Word.lean ====
section
/-! DEFINITION. The machine words of the LX-960 (R4, R7) and their plainest arithmetic. -/

namespace Sys2Proof

/-- A byte of memory. -/
abbrev Byte := BitVec 8

/-- A scalar register, one lane of a vector register, or an instruction word (R7, R58). -/
abbrev Word := BitVec 32

/-- A mask register: one bit per lane of a team (R7). -/
abbrev Mask := BitVec 1024

/-- The low half of a word: element 0 of a packed pair (R104). -/
def lowHalf (w : Word) : BitVec 16 := w.setWidth 16

/-- The high half of a word (R104): element 1 of a packed pair. -/
def highHalf (w : Word) : BitVec 16 := (w >>> 16).setWidth 16

/-- A packed pair of halves, element 0 in bits 15:0 (R104). -/
def packHalves (h1 h0 : BitVec 16) : Word := h1 ++ h0

/-- A register pair as one 64-bit value: bits 31:0 lie in the even register (R4). -/
def pair64 (lo hi : Word) : BitVec 64 := hi ++ lo

end Sys2Proof
end

