-- ==== Sys2Proof/Syntax.lean ====
section
/-! DEFINITION. The instructions and steps of the LX-960: one constructor per row of spec/opcode_table.json.
The first 237 constructors are the instruction words; their operands are the fields of the row, the most significant
first, `c` being the chain bit (R58). The last 90 are the whole steps of the other agents (spec/95); their
operands say which unit acts, and raw bytes are what arrives from outside. -/

namespace Sys2Proof

/-- One step of the machine: an instruction word of a run, or one event of another agent. -/
inductive Instr where
  /-- `NOP` (R370). Retires without acting on any state, counting toward LEN, SG, LCLK and LDCLK. -/
  | nop (c : BitVec 1)
  /-- `EXIT` (R328). At the end of its run removes every active lane from the team, which ends when no lane remains. -/
  | exit
  /-- `YIELD` (R416). Ends the run at the fall-through point and defers the team in arbitration until other eligible teams have run. -/
  | yield
  /-- `BRKPT` (R308). Traps BREAK for every active lane at the end of the run, with imm20 in v119. -/
  | brkpt (c : BitVec 1) (i : BitVec 20)
  /-- `SIGCK` (R280). Compares SG[19:0] with imm20, resets SG, and on mismatch rolls back or traps SIG_MISMATCH. -/
  | sigck (c : BitVec 1) (i : BitVec 20)
  /-- `EVT` (R327). Emits one class-5 USER event record carrying imm20, the team context and the code address. -/
  | evt (c : BitVec 1) (i : BitVec 20)
  /-- `RGNB` (R274). Opens a region at the end of its run, taking a checkpoint of the log mark, restart point, masks, scalars, SG and LDCLK. -/
  | rgnb (c : BitVec 1) (i : BitVec 20)
  /-- `RGNE` (R388). Closes the open region at the end of its run, or has no effect with none open. -/
  | rgne (c : BitVec 1)
  /-- `GBAR` (R339). Releases at DEVICE scope, arrives at the launch's grid barrier and blocks until every team of the grid has arrived or ended. -/
  | gbar
  /-- `IADD_SR` (R347). Scalar register add modulo 2^32. -/
  | iaddSr (c : BitVec 1) (d : BitVec 6) (a : BitVec 6) (b : BitVec 6)
  /-- `ISUB_SR` (R347). Scalar register subtract modulo 2^32. -/
  | isubSr (c : BitVec 1) (d : BitVec 6) (a : BitVec 6) (b : BitVec 6)
  /-- `IMUL_SR` (R347). Scalar low 32 bits of the product. -/
  | imulSr (c : BitVec 1) (d : BitVec 6) (a : BitVec 6) (b : BitVec 6)
  /-- `IMULH_SR` (R347). Scalar high 32 bits of the signed product. -/
  | imulhSr (c : BitVec 1) (d : BitVec 6) (a : BitVec 6) (b : BitVec 6)
  /-- `IMULH_U_SR` (R347). Scalar high 32 bits of the unsigned product. -/
  | imulhUSr (c : BitVec 1) (d : BitVec 6) (a : BitVec 6) (b : BitVec 6)
  /-- `AND_SR` (R296). Scalar bitwise AND of two registers. -/
  | andSr (c : BitVec 1) (d : BitVec 6) (a : BitVec 6) (b : BitVec 6)
  /-- `OR_SR` (R371). Scalar bitwise OR of two registers. -/
  | orSr (c : BitVec 1) (d : BitVec 6) (a : BitVec 6) (b : BitVec 6)
  /-- `XOR_SR` (R415). Scalar bitwise XOR of two registers. -/
  | xorSr (c : BitVec 1) (d : BitVec 6) (a : BitVec 6) (b : BitVec 6)
  /-- `ANDN_SR` (R296). Scalar a AND NOT b. -/
  | andnSr (c : BitVec 1) (d : BitVec 6) (a : BitVec 6) (b : BitVec 6)
  /-- `SHL_SR` (R395). Scalar shift left by b[4:0]. -/
  | shlSr (c : BitVec 1) (d : BitVec 6) (a : BitVec 6) (b : BitVec 6)
  /-- `SHR_SR` (R395). Scalar logical shift right by b[4:0]. -/
  | shrSr (c : BitVec 1) (d : BitVec 6) (a : BitVec 6) (b : BitVec 6)
  /-- `SRA_SR` (R395). Scalar arithmetic shift right by b[4:0]. -/
  | sraSr (c : BitVec 1) (d : BitVec 6) (a : BitVec 6) (b : BitVec 6)
  /-- `IMIN_SR` (R347). Scalar signed minimum. -/
  | iminSr (c : BitVec 1) (d : BitVec 6) (a : BitVec 6) (b : BitVec 6)
  /-- `IMAX_SR` (R347). Scalar signed maximum. -/
  | imaxSr (c : BitVec 1) (d : BitVec 6) (a : BitVec 6) (b : BitVec 6)
  /-- `IMIN_U_SR` (R347). Scalar unsigned minimum. -/
  | iminUSr (c : BitVec 1) (d : BitVec 6) (a : BitVec 6) (b : BitVec 6)
  /-- `IMAX_U_SR` (R347). Scalar unsigned maximum. -/
  | imaxUSr (c : BitVec 1) (d : BitVec 6) (a : BitVec 6) (b : BitVec 6)
  /-- `SLT_SR` (R397). Writes 1 if sa < sb as signed, else 0. -/
  | sltSr (c : BitVec 1) (d : BitVec 6) (a : BitVec 6) (b : BitVec 6)
  /-- `SLT_U_SR` (R397). Writes 1 if sa < sb as unsigned, else 0. -/
  | sltUSr (c : BitVec 1) (d : BitVec 6) (a : BitVec 6) (b : BitVec 6)
  /-- `IDIVU` (R347). Unsigned scalar division, all ones for a zero divisor. -/
  | idivu (c : BitVec 1) (d : BitVec 6) (a : BitVec 6) (b : BitVec 6)
  /-- `IREMU` (R347). Unsigned scalar remainder, the dividend for a zero divisor. -/
  | iremu (c : BitVec 1) (d : BitVec 6) (a : BitVec 6) (b : BitVec 6)
  /-- `IADD_64` (R347). Adds two even scalar pairs modulo 2^64. -/
  | iadd64 (c : BitVec 1) (d : BitVec 6) (a : BitVec 6) (b : BitVec 6)
  /-- `ISUB_64` (R347). Subtracts two even scalar pairs modulo 2^64. -/
  | isub64 (c : BitVec 1) (d : BitVec 6) (a : BitVec 6) (b : BitVec 6)
  /-- `IADD_SI` (R347). Scalar add of a sign-extended 10-bit immediate. -/
  | iaddSi (c : BitVec 1) (d : BitVec 6) (a : BitVec 6) (i : BitVec 10)
  /-- `AND_SI` (R296). Scalar AND with a sign-extended immediate. -/
  | andSi (c : BitVec 1) (d : BitVec 6) (a : BitVec 6) (i : BitVec 10)
  /-- `OR_SI` (R371). Scalar OR with a sign-extended immediate. -/
  | orSi (c : BitVec 1) (d : BitVec 6) (a : BitVec 6) (i : BitVec 10)
  /-- `XOR_SI` (R415). Scalar XOR with a sign-extended immediate. -/
  | xorSi (c : BitVec 1) (d : BitVec 6) (a : BitVec 6) (i : BitVec 10)
  /-- `SHL_SI` (R395). Scalar shift left by an immediate 0-31. -/
  | shlSi (c : BitVec 1) (d : BitVec 6) (a : BitVec 6) (i : BitVec 10)
  /-- `SHR_SI` (R395). Scalar logical shift right by an immediate 0-31. -/
  | shrSi (c : BitVec 1) (d : BitVec 6) (a : BitVec 6) (i : BitVec 10)
  /-- `SRA_SI` (R395). Scalar arithmetic shift right by an immediate 0-31. -/
  | sraSi (c : BitVec 1) (d : BitVec 6) (a : BitVec 6) (i : BitVec 10)
  /-- `SLT_SI` (R397). Writes 1 if sa is below the signed immediate, else 0. -/
  | sltSi (c : BitVec 1) (d : BitVec 6) (a : BitVec 6) (i : BitVec 10)
  /-- `LUI` (R366). Writes imm19 shifted left by 13 to a scalar. -/
  | lui (c : BitVec 1) (d : BitVec 6) (i : BitVec 19)
  /-- `GETS` (R341). Writes an identifier or counter of R91 to a scalar, with the high-half latch of R92. -/
  | gets (c : BitVec 1) (d : BitVec 6) (n : BitVec 8)
  /-- `LD_SCALAR` (R356). Loads a global value into a scalar register, counted on SETA. -/
  | ldScalar (c : BitVec 1) (d : BitVec 6) (b : BitVec 6) (z : BitVec 2) (o : BitVec 11)
  /-- `ST_SCALAR` (R401). Stores a scalar register to global memory through the store log, counted on SETB. -/
  | stScalar (c : BitVec 1) (d : BitVec 6) (b : BitVec 6) (z : BitVec 2) (o : BitVec 11)
  /-- `IADD_VR` (R347). Vector add modulo 2^32 per lane. -/
  | iaddVr (c : BitVec 1) (d : BitVec 7) (a : BitVec 7) (b : BitVec 7)
  /-- `ISUB_VR` (R347). Vector subtract modulo 2^32 per lane. -/
  | isubVr (c : BitVec 1) (d : BitVec 7) (a : BitVec 7) (b : BitVec 7)
  /-- `IMUL_VR` (R347). Vector low product per lane. -/
  | imulVr (c : BitVec 1) (d : BitVec 7) (a : BitVec 7) (b : BitVec 7)
  /-- `IMULH_VR` (R347). Vector high signed product per lane. -/
  | imulhVr (c : BitVec 1) (d : BitVec 7) (a : BitVec 7) (b : BitVec 7)
  /-- `IMULH_U_VR` (R347). Vector high unsigned product per lane. -/
  | imulhUVr (c : BitVec 1) (d : BitVec 7) (a : BitVec 7) (b : BitVec 7)
  /-- `AND_VR` (R296). Vector bitwise AND per lane. -/
  | andVr (c : BitVec 1) (d : BitVec 7) (a : BitVec 7) (b : BitVec 7)
  /-- `OR_VR` (R371). Vector bitwise OR per lane. -/
  | orVr (c : BitVec 1) (d : BitVec 7) (a : BitVec 7) (b : BitVec 7)
  /-- `XOR_VR` (R415). Vector bitwise XOR per lane. -/
  | xorVr (c : BitVec 1) (d : BitVec 7) (a : BitVec 7) (b : BitVec 7)
  /-- `ANDN_VR` (R296). Vector a AND NOT b per lane. -/
  | andnVr (c : BitVec 1) (d : BitVec 7) (a : BitVec 7) (b : BitVec 7)
  /-- `SHL_VR` (R395). Vector shift left by vb[4:0]. -/
  | shlVr (c : BitVec 1) (d : BitVec 7) (a : BitVec 7) (b : BitVec 7)
  /-- `SHR_VR` (R395). Vector logical shift right by vb[4:0]. -/
  | shrVr (c : BitVec 1) (d : BitVec 7) (a : BitVec 7) (b : BitVec 7)
  /-- `SRA_VR` (R395). Vector arithmetic shift right by vb[4:0]. -/
  | sraVr (c : BitVec 1) (d : BitVec 7) (a : BitVec 7) (b : BitVec 7)
  /-- `IMIN_VR` (R347). Vector signed minimum. -/
  | iminVr (c : BitVec 1) (d : BitVec 7) (a : BitVec 7) (b : BitVec 7)
  /-- `IMAX_VR` (R347). Vector signed maximum. -/
  | imaxVr (c : BitVec 1) (d : BitVec 7) (a : BitVec 7) (b : BitVec 7)
  /-- `IMIN_U_VR` (R347). Vector unsigned minimum. -/
  | iminUVr (c : BitVec 1) (d : BitVec 7) (a : BitVec 7) (b : BitVec 7)
  /-- `IMAX_U_VR` (R347). Vector unsigned maximum. -/
  | imaxUVr (c : BitVec 1) (d : BitVec 7) (a : BitVec 7) (b : BitVec 7)
  /-- `IADD_VI` (R347). Vector add of a sign-extended 9-bit immediate. -/
  | iaddVi (c : BitVec 1) (d : BitVec 7) (a : BitVec 7) (i : BitVec 9)
  /-- `AND_VI` (R296). Vector AND with a sign-extended immediate. -/
  | andVi (c : BitVec 1) (d : BitVec 7) (a : BitVec 7) (i : BitVec 9)
  /-- `SHL_VI` (R395). Vector shift left by an immediate 0-31. -/
  | shlVi (c : BitVec 1) (d : BitVec 7) (a : BitVec 7) (i : BitVec 9)
  /-- `SHR_VI` (R395). Vector logical shift right by an immediate 0-31. -/
  | shrVi (c : BitVec 1) (d : BitVec 7) (a : BitVec 7) (i : BitVec 9)
  /-- `IADD_P16` (R347). Packed 16-bit wrapping add. -/
  | iaddP16 (c : BitVec 1) (d : BitVec 7) (a : BitVec 7) (b : BitVec 7)
  /-- `ISUB_P16` (R347). Packed 16-bit wrapping subtract. -/
  | isubP16 (c : BitVec 1) (d : BitVec 7) (a : BitVec 7) (b : BitVec 7)
  /-- `IADDS_P16` (R347). Packed 16-bit saturating add. -/
  | iaddsP16 (c : BitVec 1) (d : BitVec 7) (a : BitVec 7) (b : BitVec 7)
  /-- `ISUBS_P16` (R347). Packed 16-bit saturating subtract. -/
  | isubsP16 (c : BitVec 1) (d : BitVec 7) (a : BitVec 7) (b : BitVec 7)
  /-- `IMAX_P16` (R347). Packed signed 16-bit maximum. -/
  | imaxP16 (c : BitVec 1) (d : BitVec 7) (a : BitVec 7) (b : BitVec 7)
  /-- `IMIN_P16` (R347). Packed signed 16-bit minimum. -/
  | iminP16 (c : BitVec 1) (d : BitVec 7) (a : BitVec 7) (b : BitVec 7)
  /-- `CMPV_GT_P16` (R316). Per 16-bit half writes all ones where va > vb as signed, else zero. -/
  | cmpvGtP16 (c : BitVec 1) (d : BitVec 7) (a : BitVec 7) (b : BitVec 7)
  /-- `IADD_P8` (R347). Packed 8-bit wrapping add. -/
  | iaddP8 (c : BitVec 1) (d : BitVec 7) (a : BitVec 7) (b : BitVec 7)
  /-- `ISUB_P8` (R347). Packed 8-bit wrapping subtract. -/
  | isubP8 (c : BitVec 1) (d : BitVec 7) (a : BitVec 7) (b : BitVec 7)
  /-- `IADDS_U_P8` (R347). Packed unsigned 8-bit saturating add. -/
  | iaddsUP8 (c : BitVec 1) (d : BitVec 7) (a : BitVec 7) (b : BitVec 7)
  /-- `IMAX_U_P8` (R347). Packed unsigned 8-bit maximum. -/
  | imaxUP8 (c : BitVec 1) (d : BitVec 7) (a : BitVec 7) (b : BitVec 7)
  /-- `IMIN_U_P8` (R347). Packed unsigned 8-bit minimum. -/
  | iminUP8 (c : BitVec 1) (d : BitVec 7) (a : BitVec 7) (b : BitVec 7)
  /-- `PERMB` (R372). Builds each result byte from a source byte chosen, sign-filled or zeroed by a selector byte. -/
  | permb (c : BitVec 1) (d : BitVec 7) (a : BitVec 7) (b : BitVec 7)
  /-- `PACK16` (R372). Packs the low halves of two registers into one 32-bit pair. -/
  | pack16 (c : BitVec 1) (d : BitVec 7) (a : BitVec 7) (b : BitVec 7)
  /-- `UNPK16_LO` (R413). Writes the sign-extended low 16-bit half. -/
  | unpk16Lo (c : BitVec 1) (d : BitVec 7) (a : BitVec 7) (b : BitVec 7)
  /-- `UNPK16_HI` (R413). Writes the sign-extended high 16-bit half. -/
  | unpk16Hi (c : BitVec 1) (d : BitVec 7) (a : BitVec 7) (b : BitVec 7)
  /-- `LI` (R361). Writes a sign-extended 18-bit immediate to each active lane. -/
  | li (c : BitVec 1) (d : BitVec 7) (i : BitVec 18)
  /-- `SEL` (R391). Per lane selects va or vb by the lane's bit of a mask. -/
  | sel (c : BitVec 1) (d : BitVec 7) (a : BitVec 7) (b : BitVec 7) (k : BitVec 4)
  /-- `BCAST` (R305). Copies a scalar to every active lane. -/
  | bcast (c : BitVec 1) (d : BitVec 7) (s : BitVec 6)
  /-- `IADD_VS` (R347). Adds a scalar to each lane. -/
  | iaddVs (c : BitVec 1) (d : BitVec 7) (a : BitVec 7) (s : BitVec 6)
  /-- `IMUL_VS` (R347). Multiplies each lane by a scalar, low 32 bits. -/
  | imulVs (c : BitVec 1) (d : BitVec 7) (a : BitVec 7) (s : BitVec 6)
  /-- `FADD_VS` (R333). FP32 add of a scalar to each lane, rounded once. -/
  | faddVs (c : BitVec 1) (d : BitVec 7) (a : BitVec 7) (s : BitVec 6)
  /-- `FMUL_VS` (R333). FP32 multiply of each lane by a scalar, rounded once. -/
  | fmulVs (c : BitVec 1) (d : BitVec 7) (a : BitVec 7) (s : BitVec 6)
  /-- `FFMA_VS` (R333). Fused va times scalar plus vd, rounded once. -/
  | ffmaVs (c : BitVec 1) (d : BitVec 7) (a : BitVec 7) (s : BitVec 6)
  /-- `LANEID` (R355). Writes each lane's logical lane id plus a scalar. -/
  | laneid (c : BitVec 1) (d : BitVec 7) (s : BitVec 6)
  /-- `RAND` (R379). Writes the stateless random value of R124 for each lane and draw index. -/
  | rand (c : BitVec 1) (d : BitVec 7) (s : BitVec 6)
  /-- `SAMP` (R389). Samples one lane of each partition tile in proportion to FP32 weights. -/
  | samp (c : BitVec 1) (d : BitVec 7) (a : BitVec 7) (s : BitVec 6)
  /-- `RDLANE` (R381). Reads one named lane's register into a scalar. -/
  | rdlane (c : BitVec 1) (d : BitVec 6) (a : BitVec 7) (s : BitVec 6)
  /-- `POPC` (R373). Counts the one bits of each lane's value. -/
  | popc (c : BitVec 1) (d : BitVec 7) (a : BitVec 7)
  /-- `CLZ` (R313). Counts the leading zero bits of each lane's value. -/
  | clz (c : BitVec 1) (d : BitVec 7) (a : BitVec 7)
  /-- `FADD` (R333). FP32 add per lane, rounded once to nearest even. -/
  | fadd (c : BitVec 1) (d : BitVec 7) (a : BitVec 7) (b : BitVec 7)
  /-- `FSUB` (R333). FP32 subtract per lane. -/
  | fsub (c : BitVec 1) (d : BitVec 7) (a : BitVec 7) (b : BitVec 7)
  /-- `FMUL` (R333). FP32 multiply per lane. -/
  | fmul (c : BitVec 1) (d : BitVec 7) (a : BitVec 7) (b : BitVec 7)
  /-- `FFMA` (R333). Fused va times vb plus vd, rounded once. -/
  | ffma (c : BitVec 1) (d : BitVec 7) (a : BitVec 7) (b : BitVec 7)
  /-- `FFMS` (R333). Fused va times vb minus vd, rounded once. -/
  | ffms (c : BitVec 1) (d : BitVec 7) (a : BitVec 7) (b : BitVec 7)
  /-- `FNFMA` (R333). Fused minus va times vb plus vd, rounded once. -/
  | fnfma (c : BitVec 1) (d : BitVec 7) (a : BitVec 7) (b : BitVec 7)
  /-- `FMIN` (R336). FP32 minimum, canonical NaN if either operand is NaN. -/
  | fmin (c : BitVec 1) (d : BitVec 7) (a : BitVec 7) (b : BitVec 7)
  /-- `FMAX` (R336). FP32 maximum, canonical NaN if either operand is NaN. -/
  | fmax (c : BitVec 1) (d : BitVec 7) (a : BitVec 7) (b : BitVec 7)
  /-- `FMINN` (R336). FP32 minimum returning the number when one operand is NaN. -/
  | fminn (c : BitVec 1) (d : BitVec 7) (a : BitVec 7) (b : BitVec 7)
  /-- `FMAXN` (R336). FP32 maximum returning the number when one operand is NaN. -/
  | fmaxn (c : BitVec 1) (d : BitVec 7) (a : BitVec 7) (b : BitVec 7)
  /-- `FABS` (R331). Clears the sign bit of each lane's value. -/
  | fabs (c : BitVec 1) (d : BitVec 7) (a : BitVec 7)
  /-- `FNEG` (R331). Inverts the sign bit of each lane's value. -/
  | fneg (c : BitVec 1) (d : BitVec 7) (a : BitVec 7)
  /-- `FCPS` (R331). Copies the sign of vb onto the magnitude of va. -/
  | fcps (c : BitVec 1) (d : BitVec 7) (a : BitVec 7) (b : BitVec 7)
  /-- `TWOSUM` (R412). Writes the rounded sum and its exact error to a register pair. -/
  | twosum (c : BitVec 1) (d : BitVec 7) (a : BitVec 7) (b : BitVec 7)
  /-- `TWOPROD` (R412). Writes the rounded product and its error to a register pair. -/
  | twoprod (c : BitVec 1) (d : BitVec 7) (a : BitVec 7) (b : BitVec 7)
  /-- `FCLASS` (R334). Writes a one-hot class word for each lane's FP32 value. -/
  | fclass (c : BitVec 1) (d : BitVec 7) (a : BitVec 7)
  /-- `CMP` (R315). Compares va with vb per lane under a condition and type and writes mask bits. -/
  | cmp (c : BitVec 1) (k : BitVec 4) (a : BitVec 7) (b : BitVec 7) (o : BitVec 4) (t : BitVec 3)
  /-- `FADD_B2` (R333). Packed BF16 add per half. -/
  | faddB2 (c : BitVec 1) (d : BitVec 7) (a : BitVec 7) (b : BitVec 7)
  /-- `FMUL_B2` (R333). Packed BF16 multiply per half. -/
  | fmulB2 (c : BitVec 1) (d : BitVec 7) (a : BitVec 7) (b : BitVec 7)
  /-- `FFMA_B2` (R333). Packed BF16 fused multiply-add per half. -/
  | ffmaB2 (c : BitVec 1) (d : BitVec 7) (a : BitVec 7) (b : BitVec 7)
  /-- `FMAX_B2` (R336). Packed BF16 maximum per half. -/
  | fmaxB2 (c : BitVec 1) (d : BitVec 7) (a : BitVec 7) (b : BitVec 7)
  /-- `FMIN_B2` (R336). Packed BF16 minimum per half. -/
  | fminB2 (c : BitVec 1) (d : BitVec 7) (a : BitVec 7) (b : BitVec 7)
  /-- `FADD_H2` (R333). Packed FP16 add per half. -/
  | faddH2 (c : BitVec 1) (d : BitVec 7) (a : BitVec 7) (b : BitVec 7)
  /-- `FMUL_H2` (R333). Packed FP16 multiply per half. -/
  | fmulH2 (c : BitVec 1) (d : BitVec 7) (a : BitVec 7) (b : BitVec 7)
  /-- `FFMA_H2` (R333). Packed FP16 fused multiply-add per half. -/
  | ffmaH2 (c : BitVec 1) (d : BitVec 7) (a : BitVec 7) (b : BitVec 7)
  /-- `FMAX_H2` (R336). Packed FP16 maximum per half. -/
  | fmaxH2 (c : BitVec 1) (d : BitVec 7) (a : BitVec 7) (b : BitVec 7)
  /-- `FMIN_H2` (R336). Packed FP16 minimum per half. -/
  | fminH2 (c : BitVec 1) (d : BitVec 7) (a : BitVec 7) (b : BitVec 7)
  /-- `CBX` (R312). Expands two CB4 indices into a packed BF16 pair through CBT. -/
  | cbx (c : BitVec 1) (d : BitVec 7) (a : BitVec 7) (i : BitVec 9)
  /-- `CBNEAR` (R312). Places the index of the nearest codebook entry into one nibble of vd. -/
  | cbnear (c : BitVec 1) (d : BitVec 7) (a : BitVec 7) (i : BitVec 9)
  /-- `CBLD` (R312). Loads the team's 16-entry BF16 codebook from eight lanes of a register. -/
  | cbld (c : BitVec 1) (a : BitVec 7) (i : BitVec 9)
  /-- `CVT` (R323). Converts each lane between formats with the selected op, rounding and saturation. -/
  | cvt (c : BitVec 1) (d : BitVec 7) (a : BitVec 7) (o : BitVec 5) (r : BitVec 3) (s : BitVec 1)
  /-- `RCPS` (R380). Reciprocal seed to 12 fraction bits on pipe X, counted on SETA. -/
  | rcps (c : BitVec 1) (d : BitVec 7) (a : BitVec 7)
  /-- `RSQS` (R380). Reciprocal square root seed on pipe X, counted on SETA. -/
  | rsqs (c : BitVec 1) (d : BitVec 7) (a : BitVec 7)
  /-- `EXP2` (R330). Base-2 exponential truncated under R122, counted on SETA. -/
  | exp2 (c : BitVec 1) (d : BitVec 7) (a : BitVec 7)
  /-- `LOG2` (R364). Base-2 logarithm truncated under R122, counted on SETA. -/
  | log2 (c : BitVec 1) (d : BitVec 7) (a : BitVec 7)
  /-- `TANH` (R410). Hyperbolic tangent truncated under R122, counted on SETA. -/
  | tanh (c : BitVec 1) (d : BitVec 7) (a : BitVec 7)
  /-- `QSWAP` (R377). Exchanges values between lanes of a quad horizontally, vertically or diagonally. -/
  | qswap (c : BitVec 1) (d : BitVec 7) (a : BitVec 7) (i : BitVec 2)
  /-- `QBC` (R377). Broadcasts one quad lane's value to the quad. -/
  | qbc (c : BitVec 1) (d : BitVec 7) (a : BitVec 7) (i : BitVec 2)
  /-- `QRED` (R377). Reduces the four values of each quad with the selected op. -/
  | qred (c : BitVec 1) (d : BitVec 7) (a : BitVec 7) (i : BitVec 2)
  /-- `QFILL` (R378). Starts the helper-lane state for the rest of the run. -/
  | qfill (c : BitVec 1)
  /-- `SHFL_AT` (R394). Every lane of a partition tile takes the value of tile lane sb. -/
  | shflAt (c : BitVec 1) (d : BitVec 7) (a : BitVec 7) (s : BitVec 6)
  /-- `SHFL_ROT` (R394). Rotates values within each partition tile by sb. -/
  | shflRot (c : BitVec 1) (d : BitVec 7) (a : BitVec 7) (s : BitVec 6)
  /-- `SHFL_SHIFT` (R394). Shifts values within each tile by sb, filling with zero. -/
  | shflShift (c : BitVec 1) (d : BitVec 7) (a : BitVec 7) (s : BitVec 6)
  /-- `SHFL_MIRR` (R394). Exchanges lanes whose tile indices differ in the bits of sb. -/
  | shflMirr (c : BitVec 1) (d : BitVec 7) (a : BitVec 7) (s : BitVec 6)
  /-- `RED_ADD_I` (R383). Integer sum within each partition tile. -/
  | redAddI (c : BitVec 1) (d : BitVec 7) (a : BitVec 7)
  /-- `RED_ADD_F` (R383). FP32 sum within each tile in the fixed pairwise tree of R119. -/
  | redAddF (c : BitVec 1) (d : BitVec 7) (a : BitVec 7)
  /-- `RED_MAX_F` (R383). FP32 maximum within each tile. -/
  | redMaxF (c : BitVec 1) (d : BitVec 7) (a : BitVec 7)
  /-- `RED_MIN_F` (R383). FP32 minimum within each tile. -/
  | redMinF (c : BitVec 1) (d : BitVec 7) (a : BitVec 7)
  /-- `RED_MAX_I` (R383). Signed integer maximum within each tile. -/
  | redMaxI (c : BitVec 1) (d : BitVec 7) (a : BitVec 7)
  /-- `RED_MIN_I` (R383). Signed integer minimum within each tile. -/
  | redMinI (c : BitVec 1) (d : BitVec 7) (a : BitVec 7)
  /-- `RED_MAXIX_F` (R383). FP32 maximum with lowest index by orderable key, to a register pair. -/
  | redMaxixF (c : BitVec 1) (d : BitVec 7) (a : BitVec 7) (b : BitVec 7)
  /-- `RED_MINIX_F` (R383). FP32 minimum with lowest index by orderable key, to a register pair. -/
  | redMinixF (c : BitVec 1) (d : BitVec 7) (a : BitVec 7) (b : BitVec 7)
  /-- `SCAN_ADD_I` (R390). Inclusive integer prefix sum within each tile. -/
  | scanAddI (c : BitVec 1) (d : BitVec 7) (a : BitVec 7)
  /-- `SCAN_ADD_F` (R390). Inclusive FP32 prefix within each tile by the tree of R119. -/
  | scanAddF (c : BitVec 1) (d : BitVec 7) (a : BitVec 7)
  /-- `SHFL_VAR` (R394). Each lane takes the value of the tile lane named by its own vb. -/
  | shflVar (c : BitVec 1) (d : BitVec 7) (a : BitVec 7) (b : BitVec 7)
  /-- `RED_MAXIX_H` (R383). FP16 maximum with lowest index after exact widening, to a register pair. -/
  | redMaxixH (c : BitVec 1) (d : BitVec 7) (a : BitVec 7) (b : BitVec 7)
  /-- `BALLOT` (R301). Writes to each lane the bits of a mask over its group of up to 32 lanes. -/
  | ballot (c : BitVec 1) (d : BitVec 7) (a : BitVec 4)
  /-- `KANY` (R350). Sets each voting lane's bit if any voting lane has its mask bit set. -/
  | kany (c : BitVec 1) (a : BitVec 4) (k : BitVec 4)
  /-- `KALL` (R350). Sets each voting lane's bit if every voting lane has its mask bit set. -/
  | kall (c : BitVec 1) (a : BitVec 4) (k : BitVec 4)
  /-- `KPOP` (R350). Sets the bits of the first |B| voting lanes of each tile. -/
  | kpop (c : BitVec 1) (a : BitVec 4) (k : BitVec 4)
  /-- `KRANK` (R350). Writes the count of set voting lanes below each lane. -/
  | krank (c : BitVec 1) (d : BitVec 7) (a : BitVec 4)
  /-- `KAND` (R351). Mask AND for active lanes. -/
  | kand (c : BitVec 1) (k : BitVec 4) (a : BitVec 4) (b : BitVec 4)
  /-- `KOR` (R351). Mask OR for active lanes. -/
  | kor (c : BitVec 1) (k : BitVec 4) (a : BitVec 4) (b : BitVec 4)
  /-- `KXOR` (R351). Mask XOR for active lanes. -/
  | kxor (c : BitVec 1) (k : BitVec 4) (a : BitVec 4) (b : BitVec 4)
  /-- `KANDN` (R351). Mask AND NOT for active lanes. -/
  | kandn (c : BitVec 1) (k : BitVec 4) (a : BitVec 4) (b : BitVec 4)
  /-- `KNOT` (R351). Mask NOT for active lanes. -/
  | knot (c : BitVec 1) (k : BitVec 4) (a : BitVec 4)
  /-- `KMOV` (R351). Mask copy for active lanes. -/
  | kmov (c : BitVec 1) (k : BitVec 4) (a : BitVec 4)
  /-- `KSET` (R351). Sets the mask bits of active lanes. -/
  | kset (c : BitVec 1) (k : BitVec 4)
  /-- `KCLR` (R351). Clears the mask bits of active lanes. -/
  | kclr (c : BitVec 1) (k : BitVec 4)
  /-- `KFROMV` (R351). Sets each active lane's mask bit where its vector value is nonzero. -/
  | kfromv (c : BitVec 1) (k : BitVec 4) (v : BitVec 7)
  /-- `KBIT` (R353). Copies bit n of each active lane's register into its mask bit. -/
  | kbit (c : BitVec 1) (k : BitVec 4) (a : BitVec 7) (n : BitVec 5)
  /-- `IF` (R325). Pushes an IF entry, narrows k0 by a mask and jumps at run end if the arm is empty. -/
  | ifK (k : BitVec 4) (o : BitVec 18)
  /-- `ELSE` (R325). Switches k0 to the else lanes of the top IF entry and jumps if they are empty. -/
  | elseK (o : BitVec 18)
  /-- `ENDIF` (R325). Restores k0 from the top IF or ELSE entry and pops it, at issue. -/
  | endIf (c : BitVec 1)
  /-- `BRKIF` (R307). Removes lanes from the loop and skips to the target when k0 empties. -/
  | brkIf (c : BitVec 1) (k : BitVec 4) (o : BitVec 18)
  /-- `LOOP` (R365). Pushes a LOOP entry saving k0. -/
  | loop (c : BitVec 1) (o : BitVec 18)
  /-- `ENDLP` (R325). Loops back while lanes remain, else restores k0 and pops. -/
  | endLp (o : BitVec 18)
  /-- `REGRP` (R385). Arrives at the block-wide regrouping point with each lane's chosen target. -/
  | regrp (v : BitVec 4) (o : BitVec 18)
  /-- `ENDRG` (R385). Arrives at the block-wide return point of a regrouped block. -/
  | endrg
  /-- `BRA` (R306). Transfers the whole team to a packet-relative target at the end of its run. -/
  | bra (o : BitVec 15)
  /-- `BRC` (R306). Conditionally transfers the team on a signed test of a scalar. -/
  | brc (k : BitVec 4) (s : BitVec 6) (o : BitVec 15)
  /-- `CALL` (R310). Writes the link to s1 and transfers to a packet-relative target. -/
  | call (o : BitVec 22)
  /-- `CALLR` (R310). Writes the link to s1 and transfers to the address in a scalar. -/
  | callr (s : BitVec 6)
  /-- `RET` (R386). Transfers to the code address held in s1. -/
  | ret
  /-- `JMPR` (R348). Transfers to the code address held in a scalar without a link. -/
  | jmpr (s : BitVec 6)
  /-- `LD_VECTOR` (R356). Loads global memory per lane at base plus offset, parking on TLB misses. -/
  | ldVector (c : BitVec 1) (d : BitVec 7) (b : BitVec 6) (i : BitVec 7) (z : BitVec 2) (p : BitVec 3)
  /-- `ST_VECTOR` (R401). Stores per lane to global memory by appending store-log entries. -/
  | stVector (c : BitVec 1) (d : BitVec 7) (b : BitVec 6) (i : BitVec 7) (z : BitVec 2) (p : BitVec 3)
  /-- `LDL` (R359). Loads per lane from a local scratchpad address. -/
  | ldl (c : BitVec 1) (d : BitVec 7) (b : BitVec 6) (i : BitVec 7) (z : BitVec 2)
  /-- `STL` (R403). Stores per lane to a local scratchpad address, unlogged. -/
  | stl (c : BitVec 1) (d : BitVec 7) (b : BitVec 6) (i : BitVec 7) (z : BitVec 2)
  /-- `LDT` (R360). Loads one element of a READY tile per lane. -/
  | ldt (c : BitVec 1) (d : BitVec 7) (t : BitVec 6) (i : BitVec 7)
  /-- `STT` (R404). Stores one element per lane into a tile being filled by TACQ. -/
  | stt (c : BitVec 1) (d : BitVec 7) (t : BitVec 6) (i : BitVec 7)
  /-- `ATOM` (R299). Performs an atomic read-modify-write per lane at the home slice with release and acquire semantics. -/
  | atom (c : BitVec 1) (d : BitVec 7) (a : BitVec 7) (o : BitVec 4) (e : BitVec 2) (s : BitVec 3)
  /-- `LMON` (R362). Reads a word past L1 and arms the team's monitor on its sector. -/
  | lmon (c : BitVec 1) (a : BitVec 7) (s : BitVec 6)
  /-- `WAITM` (R414). Blocks until a write to the monitored sector, then reads the word and disarms. -/
  | waitm (a : BitVec 7) (s : BitVec 6)
  /-- `FENCE` (R155). Performs a release, an acquire, both, or a totally ordered fence at a scope. -/
  | fence (c : BitVec 1) (k : BitVec 3) (s : BitVec 3)
  /-- `LPUB` (R157). Publishes the log up to a mark at a scope, counted on SETB. -/
  | lpub (c : BitVec 1) (s : BitVec 3) (x : BitVec 6)
  /-- `LMARK` (R157). Returns a log position published at a scope. -/
  | lmark (c : BitVec 1) (s : BitVec 3) (x : BitVec 6)
  /-- `LACQ` (R157). Acquires another core's log up to a mark at a scope. -/
  | lacq (c : BitVec 1) (s : BitVec 3) (x : BitVec 6) (y : BitVec 6)
  /-- `BINIT` (R302). Sets a barrier's expected team arrivals. -/
  | binit (c : BitVec 1) (b : BitVec 4) (s : BitVec 6)
  /-- `BARR` (R302). Arrives on a barrier and returns the captured phase. -/
  | barr (c : BitVec 1) (b : BitVec 4) (s : BitVec 6)
  /-- `BWAIT` (R304). Blocks until the barrier's phase differs from the given value, acquiring on completion. -/
  | bwait (b : BitVec 4) (s : BitVec 6)
  /-- `BARW` (R304). Arrives on a barrier and waits for the phase to end. -/
  | barw (b : BitVec 4) (s : BitVec 6)
  /-- `BPHASE` (R302). Reads a barrier's phase and LFAULT. -/
  | bphase (c : BitVec 1) (b : BitVec 4) (s : BitVec 6)
  /-- `BEXP` (R302). Adds expected external arrivals to a barrier. -/
  | bexp (c : BitVec 1) (b : BitVec 4) (s : BitVec 6)
  /-- `TDEF` (R134). Checks and defines a tile descriptor from four scalars. -/
  | tdef (c : BitVec 1) (t : BitVec 6) (s : BitVec 6)
  /-- `TACQ` (R136). Moves an EMPTY tile to FILLING for team stores. -/
  | tacq (c : BitVec 1) (t : BitVec 6)
  /-- `TRDY` (R136). Moves a team-filled tile to READY. -/
  | trdy (c : BitVec 1) (t : BitVec 6)
  /-- `TREL` (R136). Releases a READY tile to EMPTY. -/
  | trel (c : BitVec 1) (t : BitVec 6)
  /-- `TSTAT` (R407). Writes a tile's status word to a scalar. -/
  | tstat (c : BitVec 1) (t : BitVec 6) (s : BitVec 6)
  /-- `THAND` (R408). Makes an ownership handle over READY tiles and removes them from the block's table. -/
  | thand (c : BitVec 1) (s : BitVec 6)
  /-- `TADOPT` (R409). Adopts the tiles of an ownership handle, copying them in for a global handle. -/
  | tadopt (c : BitVec 1) (s : BitVec 6)
  /-- `CPY_G2T` (R318). Copies a global image into a tile, counted on a barrier. -/
  | cpyG2t (c : BitVec 1) (x : BitVec 6) (y : BitVec 6) (z : BitVec 6) (b : BitVec 4)
  /-- `CPY_T2G` (R318). Copies a tile to a global image, optionally reducing into L2. -/
  | cpyT2g (c : BitVec 1) (x : BitVec 6) (y : BitVec 6) (z : BitVec 6) (b : BitVec 4)
  /-- `CPY_L2L` (R318). Copies between local addresses. -/
  | cpyL2l (c : BitVec 1) (x : BitVec 6) (y : BitVec 6) (z : BitVec 6) (b : BitVec 4)
  /-- `CPY_G2G` (R318). Copies between global addresses. -/
  | cpyG2g (c : BitVec 1) (x : BitVec 6) (y : BitVec 6) (z : BitVec 6) (b : BitVec 4)
  /-- `CPY_G2L` (R318). Copies global memory into local memory. -/
  | cpyG2l (c : BitVec 1) (x : BitVec 6) (y : BitVec 6) (z : BitVec 6) (b : BitVec 4)
  /-- `CPY_L2G` (R318). Copies local memory to global memory, optionally reducing into L2. -/
  | cpyL2g (c : BitVec 1) (x : BitVec 6) (y : BitVec 6) (z : BitVec 6) (b : BitVec 4)
  /-- `GATHER` (R337). Gathers indexed global rows into a tile. -/
  | gather (c : BitVec 1) (x : BitVec 6) (y : BitVec 6) (z : BitVec 6) (b : BitVec 4)
  /-- `MLDW_TILE` (R180). Reserves a load of a weight slot from a tile. -/
  | mldwTile (c : BitVec 1) (t : BitVec 6) (n : BitVec 1)
  /-- `MLDW_HANDLE` (R180). Reserves a load of a weight slot from a global tile handle. -/
  | mldwHandle (c : BitVec 1) (p : BitVec 6) (n : BitVec 1)
  /-- `MMA` (R181). Reserves a pass streaming activation rows through a weight slot into accumulators. -/
  | mma (c : BitVec 1) (t : BitVec 6) (g : BitVec 3) (s : BitVec 6) (n : BitVec 1) (a : BitVec 1)
  /-- `MZ` (R182). Reserves zeroing of a range of accumulator rows. -/
  | mz (c : BitVec 1) (s : BitVec 6) (n : BitVec 6)
  /-- `MDRN` (R191). Saves the block's engine state and pending reservations to a local area. -/
  | mdrn (c : BitVec 1) (s : BitVec 6)
  /-- `MRST` (R191). Restores engine state and reservations from a save area. -/
  | mrst (c : BitVec 1) (s : BitVec 6)
  /-- `MREL` (R184). Waits for the block's reservations to retire, then empties both slots. -/
  | mrel (c : BitVec 1)
  /-- `ACCRD` (R294). Reads DF32 accumulator elements into a register pair per lane. -/
  | accrd (c : BitVec 1) (d : BitVec 7) (a : BitVec 6) (b : BitVec 6)
  /-- `ACCRD_F` (R294). Reads accumulator elements rounded once to FP32. -/
  | accrdF (c : BitVec 1) (d : BitVec 7) (a : BitVec 6) (b : BitVec 6)
  /-- `ACCWR` (R294). Writes register pairs as DF32 accumulator elements. -/
  | accwr (c : BitVec 1) (d : BitVec 7) (a : BitVec 6) (b : BitVec 6)
  /-- `ACCWR_F` (R294). Folds an FP32 value into accumulator elements. -/
  | accwrF (c : BitVec 1) (d : BitVec 7) (a : BitVec 6) (b : BitVec 6)
  /-- `PUT` (R374). Sends a buffer into a remote window over the Runner fabric. -/
  | put (c : BitVec 1) (x : BitVec 6) (y : BitVec 6) (z : BitVec 6) (b : BitVec 4)
  /-- `PUTS` (R374). Sends a buffer into a remote window followed by a signal after all acknowledgements. -/
  | puts (c : BitVec 1) (x : BitVec 6) (y : BitVec 6) (z : BitVec 6) (b : BitVec 4)
  /-- `GET` (R340). Requests bytes of a remote window into a local or global buffer. -/
  | get (c : BitVec 1) (x : BitVec 6) (y : BitVec 6) (z : BitVec 6) (b : BitVec 4)
  /-- `CSEND` (R320). Sends one collective chunk along the route of its descriptor. -/
  | csend (c : BitVec 1) (x : BitVec 6) (y : BitVec 6) (z : BitVec 6) (b : BitVec 4)
  /-- `RSIG` (R374). Sends a lone signal packet to a remote barrier. -/
  | rsig (c : BitVec 1) (x : BitVec 6) (y : BitVec 6) (z : BitVec 6) (b : BitVec 4)
  /-- `SPAWN` (R399). Submits a spawned launch of a node to its stage queue. -/
  | spawn (c : BitVec 1) (x : BitVec 6) (y : BitVec 6) (z : BitVec 6) (b : BitVec 4)
  /-- `HPASS` (R344). Passes an ownership handle to a successor readied by its count. -/
  | hpass (c : BitVec 1) (x : BitVec 6) (y : BitVec 6) (z : BitVec 6) (b : BitVec 4)
  /-- `GETX` (R342). Reads a privileged register in a mode its class allows. -/
  | getx (c : BitVec 1) (s : BitVec 6) (x : BitVec 11)
  /-- `SETX` (R392). Writes a privileged register, with the register-specific effects of R96. -/
  | setx (c : BitVec 1) (s : BitVec 6) (x : BitVec 11)
  /-- `SYSC` (R405). Traps SYSCALL for the active lanes in U. -/
  | sysc (i : BitVec 16)
  /-- `RETT` (R102). Returns from the top trap frame, restoring masks and re-issuing parked accesses. -/
  | rett
  /-- `HCALL` (R343). Traps HCALL from S into H. -/
  | hcall (i : BitVec 16)
  /-- `TLBI` (R140). Removes the translations of one virtual page in every TLB of the context. -/
  | tlbi (c : BitVec 1) (a : BitVec 6)
  /-- `TLBI_ALL` (R140). Removes every translation of the context's ASID. -/
  | tlbiAll (c : BitVec 1)
  /-- `DICT` (R71). Executes two dictionary entries in order under register windows. -/
  | dict (c : BitVec 1) (h : BitVec 1) (w : BitVec 2) (i : BitVec 10) (x : BitVec 2) (j : BitVec 10)
  /-- `RUN_START` (R46). An issue slot frees, the arbiter chooses an eligible team, and its run is fetched, checked and started. -/
  | runStart (core slot : Nat)
  /-- `TEAM_PROMOTE` (R47). An eligible team passed over for 256 runs is promoted. -/
  | teamPromote (team : Nat)
  /-- `OPERATION_COMPLETE` (R65). A counted operation completes, writing its result and decrementing its flag. -/
  | operationComplete (team op : Nat)
  /-- `WALK_COMPLETE` (R212). A page walk for parked lanes ends, performing them or recording their fault. -/
  | walkComplete (die ctx page : Nat)
  /-- `TRAP_ENTRY` (R99). At a run boundary the team waits for SETA operations, pushes a frame and enters the handler mode. -/
  | trapEntry (team : Nat)
  /-- `REGION_ROLLBACK` (R276). After poison consumption in an open region, the team drains, removes its entries and restarts at the checkpoint. -/
  | regionRollback (team : Nat)
  /-- `LADLE_GRANT` (R264). The free ladle goes to the wanting team with the least key in a deterministic launch. -/
  | ladleGrant (launch : Nat)
  /-- `REGRP_FORM` (R52). When every team has arrived and drained, new teams are formed by target. -/
  | regrpForm (block : Nat)
  /-- `ENDRG_RETURN` (R53). When every new team has reached ENDRG or exited, lanes return to their home teams. -/
  | endrgReturn (block : Nat)
  /-- `TEAM_WAKE` (R223). A team at a blocking point wakes when its wake condition holds. -/
  | teamWake (team : Nat)
  /-- `TEAM_END` (R329). A team with no lanes left drains, releases its log and takes its exit event on barriers and GBAR. -/
  | teamEnd (team : Nat)
  /-- `BLOCK_END` (R329). A block whose teams, reservations and commands are done releases its log and leaves its core. -/
  | blockEnd (block : Nat)
  /-- `BUDGET_OUT` (R208). A slice's budget count reaches zero, making its teams trap BUDGET at the next run boundary. -/
  | budgetOut (launch : Nat)
  /-- `FOLD` (R151). The fold engine copies a published entry to its home slice under the fold-tag order and frees it. -/
  | fold (core : Nat)
  /-- `REBASE` (R160). A core's stamp counter reaches 2^47 and the hub folds everything and resets stamps. -/
  | rebase
  /-- `ENGINE_COMMAND_ISSUE` (R165). A stalled engine command issues once barrier, range-lock, replay and ladle conditions allow. -/
  | engineCommandIssue (team : Nat)
  /-- `COPY_UNIT` (R166). The copy engine moves or reduces one 128-byte unit, or halts the command on a fault. -/
  | copyUnit (cmd unit : Nat)
  /-- `COPY_COMPLETE` (R166). A copy completes: tile transition, lock release, flag decrement, barrier arrival and publication together. -/
  | copyComplete (cmd : Nat)
  /-- `RESERVATION_GRANT` (R187). The free matrix array grants a reservation in priority order, multicasting equal weight loads. -/
  | reservationGrant (cluster : Nat)
  /-- `RESERVATION_RETIRE` (R185). A granted reservation finishes its pass and retires, freeing its entry and decrementing its flag. -/
  | reservationRetire (cluster entry : Nat)
  /-- `RESERVATION_PROMOTE` (R187). A reservation waiting 4,096 cycles is promoted. -/
  | reservationPromote (cluster entry : Nat)
  /-- `PACKET_SEND` (R233). A packet of an issued fabric command enters its port's replay store, completing the command locally when all are in. -/
  | packetSend (cmd : Nat)
  /-- `FLIT_RECEIVE` (R226). A flit arrives on a Runner port and is checked by CRC, accepted or replay requested. -/
  | flitReceive (port : Nat) (flit : List (BitVec 8)) (crc : BitVec 32) (replay : Bool) (acked : Nat) (credits : List Nat)
  /-- `LINK_RETRAIN` (R226). A flit failing 16 times in a row makes the link retrain. -/
  | linkRetrain (port : Nat)
  /-- `PUT_DATA_PACKET` (R234). A PUT data packet is checked and written at the window's home slices, then acknowledged. -/
  | putDataPacket (port : Nat) (packet : List (BitVec 8))
  /-- `PUTS_DATA_PACKET` (R234). A PUTS data packet is checked and written at the window's home slices, then acknowledged. -/
  | putsDataPacket (port : Nat) (packet : List (BitVec 8))
  /-- `SIGNAL_PACKET` (R235). A signal packet makes an external arrival on a barrier of the window's launch, or is held. -/
  | signalPacket (port : Nat) (packet : List (BitVec 8))
  /-- `GET_REQUEST_PACKET` (R235). A GET request reads the window's home slices and returns response packets. -/
  | getRequestPacket (port : Nat) (packet : List (BitVec 8))
  /-- `GET_RESPONSE_PACKET` (R235). A GET response is written to the destination buffer as a copy unit. -/
  | getResponsePacket (port : Nat) (packet : List (BitVec 8)) (poison : Nat)
  /-- `COLLECTIVE_CHUNK` (R240). The collective engine acts on the first route entry of a chunk: deliver, forward, broadcast or combine. -/
  | collectiveChunk (port : Nat) (packet : List (BitVec 8))
  /-- `ACK_PACKET` (R237). An acknowledgement removes a packet from the replay store and may release a PUTS signal. -/
  | ackPacket (port : Nat) (packet : List (BitVec 8))
  /-- `NACK_PACKET` (R238). A refusal completes a packet and marks its command faulted. -/
  | nackPacket (port : Nat) (packet : List (BitVec 8)) (translation : Bool)
  /-- `CONTROL_PACKET` (R256). A watchdog CONTROL packet makes the root device emit LATE_NOTICE. -/
  | controlPacket (port : Nat) (packet : List (BitVec 8))
  /-- `RETRANSMIT` (R237). A packet unacknowledged for 50 µs is resent on the next port of its route entry. -/
  | retransmit (entry : Nat)
  /-- `WATCHDOG` (R256). An open collective slot reaches OPENED plus TMO and names its first late rank. -/
  | watchdog (slot : Nat)
  /-- `CORE_OFFER` (R200). A core with room is offered work and the walker places the next block by deadline. -/
  | coreOffer (core : Nat)
  /-- `CARVE_CHANGE` (R132). When the last block of the old setting leaves, the core changes carve-out and invalidates L1. -/
  | carveChange (core : Nat)
  /-- `GOVERNOR_EVALUATE` (R203). Every 10 µs the governor marks at most one donor cluster to move to a starved queue. -/
  | governorEvaluate
  /-- `SLICE_BOUNDARY` (R203). A marked cluster holding no block of its old queue joins the new queue. -/
  | sliceBoundary (cluster : Nat)
  /-- `CLASS_UPDATE` (R201). Every 50 µs each slice's priority class is re-set from its slack. -/
  | classUpdate
  /-- `EVICTION_CHECK` (R210). A class-3 record that found no core for 50 µs causes evictable blocks to be evicted. -/
  | evictionCheck
  /-- `BLOCK_EVICT` (R219). A block is drained, its image written to the spill buffer, its log detached and its resources freed. -/
  | blockEvict (block : Nat)
  /-- `BLOCK_RESUME` (R222). An evicted block is read back, its engine state restored, log reattached and teams resumed. -/
  | blockResume (image core : Nat)
  /-- `FALLBACK` (R207). A held handle not adopted within the hold time is copied to a spill record and rewritten global. -/
  | fallback (core hold : Nat)
  /-- `SPAWN_ACCEPT` (R399). The walker builds a spawned slice record, writes it to the queue and completes the SPAWN. -/
  | spawnAccept
  /-- `PASS_RECORD` (R345). The walker records a passed handle for its target launch or faults the HPASS. -/
  | passRecord
  /-- `MONITOR_SPURIOUS_WAKE` (R224). An evicted block without a monitor entry becomes runnable with code 4 every 64 µs. -/
  | monitorSpuriousWake (image : Nat)
  /-- `LANEMAP_APPLY` (R281). A written XLANEMAP takes effect at the core's next quiescent block boundary. -/
  | lanemapApply (core : Nat)
  /-- `STOP_TIMEOUT` (R225). Blocks still resident 1 s after a STOP are killed and STOP completes FORCED. -/
  | stopTimeout (tag : Nat)
  /-- `LOAD` (R26). Verifies a signed image, extends the measurement, copies it to HBM and returns a handle. -/
  | load (image : List (BitVec 8))
  /-- `START` (R196). Starts an instance of a loaded graph, capturing the seed and readying nodes with zero count. -/
  | start
  /-- `SIGNAL_ARRIVAL` (R22). Makes one external arrival on a named barrier of a launch. -/
  | signalArrival
  /-- `SIGNAL_WORD` (R22). Performs a 32-bit home-slice write of a value at a physical address. -/
  | signalWord
  /-- `STOP` (R225). Stops an instance's placements and evicts its blocks as they become evictable. -/
  | stop
  /-- `RESET` (R28). Aborts pending commands and performs a warm reset of the module. -/
  | reset
  /-- `CKPT` (R225). Stops running instances and writes HBM, spill buffers and state to host or a peer. -/
  | ckpt
  /-- `RESTORE` (R225). Reads a valid checkpoint back and lets restored instances place again. -/
  | restore
  /-- `SETSEED` (R125). Writes a context's XSEED for instances started afterwards. -/
  | setseed
  /-- `QUERY_IDENT` (R24). Returns identity, versions, device identifier, public key and certificate. -/
  | queryIdent
  /-- `QUERY_HEALTH` (R24). Returns temperatures, voltages, clock, power and error counts. -/
  | queryHealth
  /-- `QUERY_ATTEST` (R36). Returns the measurements and a nonce signed by the identity key. -/
  | queryAttest
  /-- `QUERY_EVENTS` (R251). Copies event-ring slots into the host buffer. -/
  | queryEvents
  /-- `QUERY_CAPTURE` (R269). Copies capture-region units into the host buffer. -/
  | queryCapture
  /-- `BADCMD` (R19). A command record with a bad CRC or unknown code is refused and journaled. -/
  | badcmd
  /-- `CQHEAD_WRITE` (R18). The host advances CQHEAD, letting the device resume reading submission slots. -/
  | cqheadWrite (value : BitVec 32)
  /-- `REGISTER_WRITE` (R15). A write to a host-visible register or field with no behaviour of its own. -/
  | registerWrite (window : Bool) (offset : Nat) (value : List (BitVec 8))
  /-- `HOST_APERTURE_WRITE` (R23). A host write through an enabled data window is a home-slice write, captured during deterministic launches. -/
  | hostApertureWrite (offset : Nat) (value : List (BitVec 8))
  /-- `HOST_APERTURE_READ` (R23). A host read through the data aperture returns folded home-slice data or all ones. -/
  | hostApertureRead (bar offset count : Nat)
  /-- `DEBUG_ENABLE_WRITE` (R33). The host writes the debug-enable word, extending MEAS6. -/
  | debugEnableWrite (value : BitVec 32)
  /-- `MEAS7_WRITE` (R35). The host extends MEAS7 with a 32-byte value. -/
  | meas7Write (value : List (BitVec 8))
  /-- `IMAGE_KEY_WRITE` (R26). The host registers an image-signing key, extending MEAS7. -/
  | imageKeyWrite (entry : Nat) (key : List (BitVec 8))
  /-- `FIRMWARE_IMAGE_WRITE` (R29). In recovery the host writes a new firmware image through the management window. -/
  | firmwareImageWrite (image : List (BitVec 8))
  /-- `EDGE_VIEW_PASS` (R257). A read of the edge view's first 48 bytes starts a pass over wait-for edges. -/
  | edgeViewPass
  /-- `COLD_START` (R27). On power-good the module boots, measures, trains memories and opens the command channel. -/
  | coldStart
  /-- `WARM_RESET_PIN` (R28). WRST_N held low at least 1 ms causes a warm reset. -/
  | warmResetPin
  /-- `POWER_LOSS` (R29). Loss of the 54 V input, losing the event store if during a warm reset. -/
  | powerLoss
  /-- `MONITOR_SAMPLE` (R31). Every 1 ms firmware samples the monitors, emitting health events and throttling or tripping. -/
  | monitorSample (temps rails process : List Nat) (power flow : Nat)
  /-- `CLOCK_STEP_UP` (R32). Every 10 ms after the cause clears, firmware raises the clock one step. -/
  | clockStepUp
  /-- `ECC_ERROR` (R271). A storage error is detected and corrected, refetched, rebuilt or poisoned. -/
  | eccError (kind unit place : Nat) (uncorrectable : Bool)
  /-- `STACK_LOST` (R285). Firmware declares an HBM stack lost and the module enters degraded riser-parity mode. -/
  | stackLost (stack : Nat)
  /-- `HBM_SCRUB` (R271). A 24-hour background scrub pass corrects single-bit HBM errors. -/
  | hbmScrub
  /-- `EVENT_RECORD` (R252). A unit's event record reaches the recorder's intake and is kept or discarded by class. -/
  | eventRecord
  /-- `RING_WRITE` (R250). The recorder writes a held record into the next event-ring slot. -/
  | ringWrite
  /-- `RING_HEADER_WRITE` (R250). Every 1 ms the recorder rewrites the event-ring header. -/
  | ringHeaderWrite
  /-- `SAMPLE` (R248). At each class-7 sampling period a core emits a SAMPLE record. -/
  | sample (core team : Nat)
  /-- `CKPT_COMPLETE` (R225). A checkpoint finishes writing its HBM, spill and state sections, writes VALID last and completes with DONE. -/
  | ckptComplete
  /-- `RESTORE_COMPLETE` (R225). A restore finishes writing the checkpoint back, lets the restored instances place again and completes with DONE. -/
  | restoreComplete
  /-- `L2_SECTOR_EVICT` (R151). A sector that is not pending leaves L2 and, if dirty, is written back to HBM under riser parity. -/
  | l2SectorEvict (sector : Nat)
  /-- `L1_LINE_EVICT` (R152). A line leaves a core's L1, after which that core sees home-slice writes to the sector without an acquire. -/
  | l1LineEvict (core sector : Nat)
  /-- `PTP_MESSAGE` (R13). An IEEE 1588 message arrives on the timing port and disciplines device time. -/
  | ptpMessage (time : Nat)
  deriving DecidableEq, Repr

end Sys2Proof
end

