-- ==== Sys2Proof/WellFormed.lean ====
section
/-! DEFINITION. Which instruction terms stand for a legal word: the register and value rules of R83 to R85 that depend on
the word alone. (R69's comparison with `VREGS` belongs to the fetch of a run, not to the word.) -/

namespace Sys2Proof

/-- The pair rule of R69 and R85: the register code is even. -/
def even {n : Nat} (f : BitVec n) : Bool := f.toNat % 2 == 0

/-- The field's unsigned value is at most `m` (R83). -/
def atMost {n : Nat} (f : BitVec n) (m : Nat) : Bool := decide (f.toNat ≤ m)

/-- The block base of `CBLD` (R311): a multiple of 8. -/
def multipleOf8 {n : Nat} (f : BitVec n) : Bool := f.toNat % 8 == 0

/-- The privileged register ids that R94 assigns. -/
def assignedXids : List Nat :=
  [0x000, 0x001, 0x002, 0x010, 0x011, 0x012, 0x014, 0x015, 0x016, 0x017, 0x018, 0x019, 0x01A, 0x01B, 0x01C, 0x01D,
   0x01E, 0x01F, 0x020, 0x022, 0x023, 0x024, 0x025, 0x030, 0x031, 0x032, 0x034, 0x035, 0x036, 0x037, 0x040, 0x041]

/-- `GETX` and `SETX` name an assigned register (R83, R94). -/
def xidAssigned {n : Nat} (x : BitVec n) : Bool := assignedXids.contains x.toNat

/-- The registers that R94 marks RO: XMODE, XECAUSE, XTDEPTH, XROWMAP. -/
def xidReadOnly {n : Nat} (x : BitVec n) : Bool := [0x000, 0x011, 0x012, 0x041].contains x.toNat

/-- The word-only legality of an instruction (R83, R84, R85); an event is not a word and has nothing to break. -/
def Instr.wellFormed : Instr → Bool
  | .nop _ => true
  | .exit => true
  | .yield => true
  | .brkpt _ _ => true
  | .sigck _ _ => true
  | .evt _ _ => true
  | .rgnb _ _ => true
  | .rgne _ => true
  | .gbar => true
  | .iaddSr _ _ _ _ => true
  | .isubSr _ _ _ _ => true
  | .imulSr _ _ _ _ => true
  | .imulhSr _ _ _ _ => true
  | .imulhUSr _ _ _ _ => true
  | .andSr _ _ _ _ => true
  | .orSr _ _ _ _ => true
  | .xorSr _ _ _ _ => true
  | .andnSr _ _ _ _ => true
  | .shlSr _ _ _ _ => true
  | .shrSr _ _ _ _ => true
  | .sraSr _ _ _ _ => true
  | .iminSr _ _ _ _ => true
  | .imaxSr _ _ _ _ => true
  | .iminUSr _ _ _ _ => true
  | .imaxUSr _ _ _ _ => true
  | .sltSr _ _ _ _ => true
  | .sltUSr _ _ _ _ => true
  | .idivu _ _ _ _ => true
  | .iremu _ _ _ _ => true
  | .iadd64 _ d a b => even d && even a && even b
  | .isub64 _ d a b => even d && even a && even b
  | .iaddSi _ _ _ _ => true
  | .andSi _ _ _ _ => true
  | .orSi _ _ _ _ => true
  | .xorSi _ _ _ _ => true
  | .shlSi _ _ _ i => atMost i 31
  | .shrSi _ _ _ i => atMost i 31
  | .sraSi _ _ _ i => atMost i 31
  | .sltSi _ _ _ _ => true
  | .lui _ _ _ => true
  | .gets _ _ n => atMost n 20
  | .ldScalar _ d b z _ => even b && (z != 1 || even d)
  | .stScalar _ d b z _ => even b && (z != 1 || even d)
  | .iaddVr _ _ _ _ => true
  | .isubVr _ _ _ _ => true
  | .imulVr _ _ _ _ => true
  | .imulhVr _ _ _ _ => true
  | .imulhUVr _ _ _ _ => true
  | .andVr _ _ _ _ => true
  | .orVr _ _ _ _ => true
  | .xorVr _ _ _ _ => true
  | .andnVr _ _ _ _ => true
  | .shlVr _ _ _ _ => true
  | .shrVr _ _ _ _ => true
  | .sraVr _ _ _ _ => true
  | .iminVr _ _ _ _ => true
  | .imaxVr _ _ _ _ => true
  | .iminUVr _ _ _ _ => true
  | .imaxUVr _ _ _ _ => true
  | .iaddVi _ _ _ _ => true
  | .andVi _ _ _ _ => true
  | .shlVi _ _ _ i => atMost i 31
  | .shrVi _ _ _ i => atMost i 31
  | .iaddP16 _ _ _ _ => true
  | .isubP16 _ _ _ _ => true
  | .iaddsP16 _ _ _ _ => true
  | .isubsP16 _ _ _ _ => true
  | .imaxP16 _ _ _ _ => true
  | .iminP16 _ _ _ _ => true
  | .cmpvGtP16 _ _ _ _ => true
  | .iaddP8 _ _ _ _ => true
  | .isubP8 _ _ _ _ => true
  | .iaddsUP8 _ _ _ _ => true
  | .imaxUP8 _ _ _ _ => true
  | .iminUP8 _ _ _ _ => true
  | .permb _ _ _ _ => true
  | .pack16 _ _ _ _ => true
  | .unpk16Lo _ _ _ _ => true
  | .unpk16Hi _ _ _ _ => true
  | .li _ _ _ => true
  | .sel _ _ _ _ _ => true
  | .bcast _ _ _ => true
  | .iaddVs _ _ _ _ => true
  | .imulVs _ _ _ _ => true
  | .faddVs _ _ _ _ => true
  | .fmulVs _ _ _ _ => true
  | .ffmaVs _ _ _ _ => true
  | .laneid _ _ _ => true
  | .rand _ _ _ => true
  | .samp _ _ _ _ => true
  | .rdlane _ _ _ _ => true
  | .popc _ _ _ => true
  | .clz _ _ _ => true
  | .fadd _ _ _ _ => true
  | .fsub _ _ _ _ => true
  | .fmul _ _ _ _ => true
  | .ffma _ _ _ _ => true
  | .ffms _ _ _ _ => true
  | .fnfma _ _ _ _ => true
  | .fmin _ _ _ _ => true
  | .fmax _ _ _ _ => true
  | .fminn _ _ _ _ => true
  | .fmaxn _ _ _ _ => true
  | .fabs _ _ _ => true
  | .fneg _ _ _ => true
  | .fcps _ _ _ _ => true
  | .twosum _ d _ _ => even d
  | .twoprod _ d _ _ => even d
  | .fclass _ _ _ => true
  | .cmp _ k _ _ o t => k != 0 && atMost o 7 && atMost t 3 && (o != 6 && o != 7 || t == 0 || t == 3)
  | .faddB2 _ _ _ _ => true
  | .fmulB2 _ _ _ _ => true
  | .ffmaB2 _ _ _ _ => true
  | .fmaxB2 _ _ _ _ => true
  | .fminB2 _ _ _ _ => true
  | .faddH2 _ _ _ _ => true
  | .fmulH2 _ _ _ _ => true
  | .ffmaH2 _ _ _ _ => true
  | .fmaxH2 _ _ _ _ => true
  | .fminH2 _ _ _ _ => true
  | .cbx _ _ _ i => atMost i 3
  | .cbnear _ _ _ i => atMost i 7
  | .cbld _ _ i => atMost i 504 && multipleOf8 i
  | .cvt _ _ a o r s => atMost o 15 && atMost r 4 && (r == 0 || o != 2 && o != 3 && o != 6 && o != 7 && o != 14) && (s == 0 || o == 0 || o == 1 || o == 4 || o == 5 || o == 8 || o == 9 || o == 13) && (o != 12 || even a)
  | .rcps _ _ _ => true
  | .rsqs _ _ _ => true
  | .exp2 _ _ _ => true
  | .log2 _ _ _ => true
  | .tanh _ _ _ => true
  | .qswap _ _ _ i => i != 3
  | .qbc _ _ _ _ => true
  | .qred _ _ _ _ => true
  | .qfill _ => true
  | .shflAt _ _ _ _ => true
  | .shflRot _ _ _ _ => true
  | .shflShift _ _ _ _ => true
  | .shflMirr _ _ _ _ => true
  | .redAddI _ _ _ => true
  | .redAddF _ _ _ => true
  | .redMaxF _ _ _ => true
  | .redMinF _ _ _ => true
  | .redMaxI _ _ _ => true
  | .redMinI _ _ _ => true
  | .redMaxixF _ d _ _ => even d
  | .redMinixF _ d _ _ => even d
  | .scanAddI _ _ _ => true
  | .scanAddF _ _ _ => true
  | .shflVar _ _ _ _ => true
  | .redMaxixH _ d _ _ => even d
  | .ballot _ _ _ => true
  | .kany _ _ k => k != 0
  | .kall _ _ k => k != 0
  | .kpop _ _ k => k != 0
  | .krank _ _ _ => true
  | .kand _ k _ _ => k != 0
  | .kor _ k _ _ => k != 0
  | .kxor _ k _ _ => k != 0
  | .kandn _ k _ _ => k != 0
  | .knot _ k _ => k != 0
  | .kmov _ k _ => k != 0
  | .kset _ k => k != 0
  | .kclr _ k => k != 0
  | .kfromv _ k _ => k != 0
  | .kbit _ k _ _ => k != 0
  | .ifK _ _ => true
  | .elseK _ => true
  | .endIf _ => true
  | .brkIf _ _ _ => true
  | .loop _ _ => true
  | .endLp _ => true
  | .regrp _ o => o != 0
  | .endrg => true
  | .bra _ => true
  | .brc k _ _ => k != 0 && atMost k 6
  | .call _ => true
  | .callr _ => true
  | .ret => true
  | .jmpr _ => true
  | .ldVector _ d b _ z p => even b && (z != 1 || even d) && atMost p 4
  | .stVector _ d b _ z p => even b && (z != 1 || even d) && atMost p 4
  | .ldl _ d _ _ z => (z != 1 || even d)
  | .stl _ d _ _ z => (z != 1 || even d)
  | .ldt _ _ _ _ => true
  | .stt _ _ _ _ => true
  | .atom _ d a o _ s => even a && (o != 1 && o != 13 && o != 14 || even d) && atMost s 4
  | .lmon _ a _ => even a
  | .waitm a _ => even a
  | .fence _ k s => atMost k 3 && atMost s 4
  | .lpub _ s _ => atMost s 4
  | .lmark _ s _ => atMost s 4
  | .lacq _ s _ _ => atMost s 4
  | .binit _ _ _ => true
  | .barr _ _ _ => true
  | .bwait _ _ => true
  | .barw _ _ => true
  | .bphase _ _ _ => true
  | .bexp _ _ _ => true
  | .tdef _ _ _ => true
  | .tacq _ _ => true
  | .trdy _ _ => true
  | .trel _ _ => true
  | .tstat _ _ _ => true
  | .thand _ _ => true
  | .tadopt _ _ => true
  | .cpyG2t _ _ _ _ _ => true
  | .cpyT2g _ _ _ _ _ => true
  | .cpyL2l _ _ _ _ _ => true
  | .cpyG2g _ _ _ _ _ => true
  | .cpyG2l _ _ _ _ _ => true
  | .cpyL2g _ _ _ _ _ => true
  | .gather _ _ _ _ _ => true
  | .mldwTile _ _ _ => true
  | .mldwHandle _ p _ => even p
  | .mma _ _ _ _ _ _ => true
  | .mz _ _ _ => true
  | .mdrn _ _ => true
  | .mrst _ _ => true
  | .mrel _ => true
  | .accrd _ d _ _ => even d
  | .accrdF _ _ _ _ => true
  | .accwr _ d _ _ => even d
  | .accwrF _ _ _ _ => true
  | .put _ _ _ _ _ => true
  | .puts _ _ _ _ _ => true
  | .get _ _ _ _ _ => true
  | .csend _ _ _ _ _ => true
  | .rsig _ _ _ _ _ => true
  | .spawn _ _ _ _ _ => true
  | .hpass _ _ _ _ _ => true
  | .getx _ _ x => xidAssigned x
  | .setx _ _ x => xidAssigned x && !xidReadOnly x
  | .sysc _ => true
  | .rett => true
  | .hcall _ => true
  | .tlbi _ a => even a
  | .tlbiAll _ => true
  | .dict _ _ _ _ _ _ => true
  | .runStart _ _ => true
  | .teamPromote _ => true
  | .operationComplete _ _ => true
  | .walkComplete _ _ _ => true
  | .trapEntry _ => true
  | .regionRollback _ => true
  | .ladleGrant _ => true
  | .regrpForm _ => true
  | .endrgReturn _ => true
  | .teamWake _ => true
  | .teamEnd _ => true
  | .blockEnd _ => true
  | .budgetOut _ => true
  | .fold _ => true
  | .rebase => true
  | .engineCommandIssue _ => true
  | .copyUnit _ _ => true
  | .copyComplete _ => true
  | .reservationGrant _ => true
  | .reservationRetire _ _ => true
  | .reservationPromote _ _ => true
  | .packetSend _ => true
  | .flitReceive _ _ _ _ _ _ => true
  | .linkRetrain _ => true
  | .putDataPacket _ _ => true
  | .putsDataPacket _ _ => true
  | .signalPacket _ _ => true
  | .getRequestPacket _ _ => true
  | .getResponsePacket _ _ _ => true
  | .collectiveChunk _ _ => true
  | .ackPacket _ _ => true
  | .nackPacket _ _ _ => true
  | .controlPacket _ _ => true
  | .retransmit _ => true
  | .watchdog _ => true
  | .coreOffer _ => true
  | .carveChange _ => true
  | .governorEvaluate => true
  | .sliceBoundary _ => true
  | .classUpdate => true
  | .evictionCheck => true
  | .blockEvict _ => true
  | .blockResume _ _ => true
  | .fallback _ _ => true
  | .spawnAccept => true
  | .passRecord => true
  | .monitorSpuriousWake _ => true
  | .lanemapApply _ => true
  | .stopTimeout _ => true
  | .load _ => true
  | .start => true
  | .signalArrival => true
  | .signalWord => true
  | .stop => true
  | .reset => true
  | .ckpt => true
  | .restore => true
  | .setseed => true
  | .queryIdent => true
  | .queryHealth => true
  | .queryAttest => true
  | .queryEvents => true
  | .queryCapture => true
  | .badcmd => true
  | .cqheadWrite _ => true
  | .registerWrite _ _ _ => true
  | .hostApertureWrite _ _ => true
  | .hostApertureRead _ _ _ => true
  | .debugEnableWrite _ => true
  | .meas7Write _ => true
  | .imageKeyWrite _ _ => true
  | .firmwareImageWrite _ => true
  | .edgeViewPass => true
  | .coldStart => true
  | .warmResetPin => true
  | .powerLoss => true
  | .monitorSample _ _ _ _ _ => true
  | .clockStepUp => true
  | .eccError _ _ _ _ => true
  | .stackLost _ => true
  | .hbmScrub => true
  | .eventRecord => true
  | .ringWrite => true
  | .ringHeaderWrite => true
  | .sample _ _ => true
  | .ckptComplete => true
  | .restoreComplete => true
  | .l2SectorEvict _ => true
  | .l1LineEvict _ _ => true
  | .ptpMessage _ => true

/-- A step that is an instruction word, as against an event of another agent. -/
def Instr.isWord : Instr → Bool
  | .nop _ => true
  | .exit => true
  | .yield => true
  | .brkpt _ _ => true
  | .sigck _ _ => true
  | .evt _ _ => true
  | .rgnb _ _ => true
  | .rgne _ => true
  | .gbar => true
  | .iaddSr _ _ _ _ => true
  | .isubSr _ _ _ _ => true
  | .imulSr _ _ _ _ => true
  | .imulhSr _ _ _ _ => true
  | .imulhUSr _ _ _ _ => true
  | .andSr _ _ _ _ => true
  | .orSr _ _ _ _ => true
  | .xorSr _ _ _ _ => true
  | .andnSr _ _ _ _ => true
  | .shlSr _ _ _ _ => true
  | .shrSr _ _ _ _ => true
  | .sraSr _ _ _ _ => true
  | .iminSr _ _ _ _ => true
  | .imaxSr _ _ _ _ => true
  | .iminUSr _ _ _ _ => true
  | .imaxUSr _ _ _ _ => true
  | .sltSr _ _ _ _ => true
  | .sltUSr _ _ _ _ => true
  | .idivu _ _ _ _ => true
  | .iremu _ _ _ _ => true
  | .iadd64 _ _ _ _ => true
  | .isub64 _ _ _ _ => true
  | .iaddSi _ _ _ _ => true
  | .andSi _ _ _ _ => true
  | .orSi _ _ _ _ => true
  | .xorSi _ _ _ _ => true
  | .shlSi _ _ _ _ => true
  | .shrSi _ _ _ _ => true
  | .sraSi _ _ _ _ => true
  | .sltSi _ _ _ _ => true
  | .lui _ _ _ => true
  | .gets _ _ _ => true
  | .ldScalar _ _ _ _ _ => true
  | .stScalar _ _ _ _ _ => true
  | .iaddVr _ _ _ _ => true
  | .isubVr _ _ _ _ => true
  | .imulVr _ _ _ _ => true
  | .imulhVr _ _ _ _ => true
  | .imulhUVr _ _ _ _ => true
  | .andVr _ _ _ _ => true
  | .orVr _ _ _ _ => true
  | .xorVr _ _ _ _ => true
  | .andnVr _ _ _ _ => true
  | .shlVr _ _ _ _ => true
  | .shrVr _ _ _ _ => true
  | .sraVr _ _ _ _ => true
  | .iminVr _ _ _ _ => true
  | .imaxVr _ _ _ _ => true
  | .iminUVr _ _ _ _ => true
  | .imaxUVr _ _ _ _ => true
  | .iaddVi _ _ _ _ => true
  | .andVi _ _ _ _ => true
  | .shlVi _ _ _ _ => true
  | .shrVi _ _ _ _ => true
  | .iaddP16 _ _ _ _ => true
  | .isubP16 _ _ _ _ => true
  | .iaddsP16 _ _ _ _ => true
  | .isubsP16 _ _ _ _ => true
  | .imaxP16 _ _ _ _ => true
  | .iminP16 _ _ _ _ => true
  | .cmpvGtP16 _ _ _ _ => true
  | .iaddP8 _ _ _ _ => true
  | .isubP8 _ _ _ _ => true
  | .iaddsUP8 _ _ _ _ => true
  | .imaxUP8 _ _ _ _ => true
  | .iminUP8 _ _ _ _ => true
  | .permb _ _ _ _ => true
  | .pack16 _ _ _ _ => true
  | .unpk16Lo _ _ _ _ => true
  | .unpk16Hi _ _ _ _ => true
  | .li _ _ _ => true
  | .sel _ _ _ _ _ => true
  | .bcast _ _ _ => true
  | .iaddVs _ _ _ _ => true
  | .imulVs _ _ _ _ => true
  | .faddVs _ _ _ _ => true
  | .fmulVs _ _ _ _ => true
  | .ffmaVs _ _ _ _ => true
  | .laneid _ _ _ => true
  | .rand _ _ _ => true
  | .samp _ _ _ _ => true
  | .rdlane _ _ _ _ => true
  | .popc _ _ _ => true
  | .clz _ _ _ => true
  | .fadd _ _ _ _ => true
  | .fsub _ _ _ _ => true
  | .fmul _ _ _ _ => true
  | .ffma _ _ _ _ => true
  | .ffms _ _ _ _ => true
  | .fnfma _ _ _ _ => true
  | .fmin _ _ _ _ => true
  | .fmax _ _ _ _ => true
  | .fminn _ _ _ _ => true
  | .fmaxn _ _ _ _ => true
  | .fabs _ _ _ => true
  | .fneg _ _ _ => true
  | .fcps _ _ _ _ => true
  | .twosum _ _ _ _ => true
  | .twoprod _ _ _ _ => true
  | .fclass _ _ _ => true
  | .cmp _ _ _ _ _ _ => true
  | .faddB2 _ _ _ _ => true
  | .fmulB2 _ _ _ _ => true
  | .ffmaB2 _ _ _ _ => true
  | .fmaxB2 _ _ _ _ => true
  | .fminB2 _ _ _ _ => true
  | .faddH2 _ _ _ _ => true
  | .fmulH2 _ _ _ _ => true
  | .ffmaH2 _ _ _ _ => true
  | .fmaxH2 _ _ _ _ => true
  | .fminH2 _ _ _ _ => true
  | .cbx _ _ _ _ => true
  | .cbnear _ _ _ _ => true
  | .cbld _ _ _ => true
  | .cvt _ _ _ _ _ _ => true
  | .rcps _ _ _ => true
  | .rsqs _ _ _ => true
  | .exp2 _ _ _ => true
  | .log2 _ _ _ => true
  | .tanh _ _ _ => true
  | .qswap _ _ _ _ => true
  | .qbc _ _ _ _ => true
  | .qred _ _ _ _ => true
  | .qfill _ => true
  | .shflAt _ _ _ _ => true
  | .shflRot _ _ _ _ => true
  | .shflShift _ _ _ _ => true
  | .shflMirr _ _ _ _ => true
  | .redAddI _ _ _ => true
  | .redAddF _ _ _ => true
  | .redMaxF _ _ _ => true
  | .redMinF _ _ _ => true
  | .redMaxI _ _ _ => true
  | .redMinI _ _ _ => true
  | .redMaxixF _ _ _ _ => true
  | .redMinixF _ _ _ _ => true
  | .scanAddI _ _ _ => true
  | .scanAddF _ _ _ => true
  | .shflVar _ _ _ _ => true
  | .redMaxixH _ _ _ _ => true
  | .ballot _ _ _ => true
  | .kany _ _ _ => true
  | .kall _ _ _ => true
  | .kpop _ _ _ => true
  | .krank _ _ _ => true
  | .kand _ _ _ _ => true
  | .kor _ _ _ _ => true
  | .kxor _ _ _ _ => true
  | .kandn _ _ _ _ => true
  | .knot _ _ _ => true
  | .kmov _ _ _ => true
  | .kset _ _ => true
  | .kclr _ _ => true
  | .kfromv _ _ _ => true
  | .kbit _ _ _ _ => true
  | .ifK _ _ => true
  | .elseK _ => true
  | .endIf _ => true
  | .brkIf _ _ _ => true
  | .loop _ _ => true
  | .endLp _ => true
  | .regrp _ _ => true
  | .endrg => true
  | .bra _ => true
  | .brc _ _ _ => true
  | .call _ => true
  | .callr _ => true
  | .ret => true
  | .jmpr _ => true
  | .ldVector _ _ _ _ _ _ => true
  | .stVector _ _ _ _ _ _ => true
  | .ldl _ _ _ _ _ => true
  | .stl _ _ _ _ _ => true
  | .ldt _ _ _ _ => true
  | .stt _ _ _ _ => true
  | .atom _ _ _ _ _ _ => true
  | .lmon _ _ _ => true
  | .waitm _ _ => true
  | .fence _ _ _ => true
  | .lpub _ _ _ => true
  | .lmark _ _ _ => true
  | .lacq _ _ _ _ => true
  | .binit _ _ _ => true
  | .barr _ _ _ => true
  | .bwait _ _ => true
  | .barw _ _ => true
  | .bphase _ _ _ => true
  | .bexp _ _ _ => true
  | .tdef _ _ _ => true
  | .tacq _ _ => true
  | .trdy _ _ => true
  | .trel _ _ => true
  | .tstat _ _ _ => true
  | .thand _ _ => true
  | .tadopt _ _ => true
  | .cpyG2t _ _ _ _ _ => true
  | .cpyT2g _ _ _ _ _ => true
  | .cpyL2l _ _ _ _ _ => true
  | .cpyG2g _ _ _ _ _ => true
  | .cpyG2l _ _ _ _ _ => true
  | .cpyL2g _ _ _ _ _ => true
  | .gather _ _ _ _ _ => true
  | .mldwTile _ _ _ => true
  | .mldwHandle _ _ _ => true
  | .mma _ _ _ _ _ _ => true
  | .mz _ _ _ => true
  | .mdrn _ _ => true
  | .mrst _ _ => true
  | .mrel _ => true
  | .accrd _ _ _ _ => true
  | .accrdF _ _ _ _ => true
  | .accwr _ _ _ _ => true
  | .accwrF _ _ _ _ => true
  | .put _ _ _ _ _ => true
  | .puts _ _ _ _ _ => true
  | .get _ _ _ _ _ => true
  | .csend _ _ _ _ _ => true
  | .rsig _ _ _ _ _ => true
  | .spawn _ _ _ _ _ => true
  | .hpass _ _ _ _ _ => true
  | .getx _ _ _ => true
  | .setx _ _ _ => true
  | .sysc _ => true
  | .rett => true
  | .hcall _ => true
  | .tlbi _ _ => true
  | .tlbiAll _ => true
  | .dict _ _ _ _ _ _ => true
  | .runStart _ _ => false
  | .teamPromote _ => false
  | .operationComplete _ _ => false
  | .walkComplete _ _ _ => false
  | .trapEntry _ => false
  | .regionRollback _ => false
  | .ladleGrant _ => false
  | .regrpForm _ => false
  | .endrgReturn _ => false
  | .teamWake _ => false
  | .teamEnd _ => false
  | .blockEnd _ => false
  | .budgetOut _ => false
  | .fold _ => false
  | .rebase => false
  | .engineCommandIssue _ => false
  | .copyUnit _ _ => false
  | .copyComplete _ => false
  | .reservationGrant _ => false
  | .reservationRetire _ _ => false
  | .reservationPromote _ _ => false
  | .packetSend _ => false
  | .flitReceive _ _ _ _ _ _ => false
  | .linkRetrain _ => false
  | .putDataPacket _ _ => false
  | .putsDataPacket _ _ => false
  | .signalPacket _ _ => false
  | .getRequestPacket _ _ => false
  | .getResponsePacket _ _ _ => false
  | .collectiveChunk _ _ => false
  | .ackPacket _ _ => false
  | .nackPacket _ _ _ => false
  | .controlPacket _ _ => false
  | .retransmit _ => false
  | .watchdog _ => false
  | .coreOffer _ => false
  | .carveChange _ => false
  | .governorEvaluate => false
  | .sliceBoundary _ => false
  | .classUpdate => false
  | .evictionCheck => false
  | .blockEvict _ => false
  | .blockResume _ _ => false
  | .fallback _ _ => false
  | .spawnAccept => false
  | .passRecord => false
  | .monitorSpuriousWake _ => false
  | .lanemapApply _ => false
  | .stopTimeout _ => false
  | .load _ => false
  | .start => false
  | .signalArrival => false
  | .signalWord => false
  | .stop => false
  | .reset => false
  | .ckpt => false
  | .restore => false
  | .setseed => false
  | .queryIdent => false
  | .queryHealth => false
  | .queryAttest => false
  | .queryEvents => false
  | .queryCapture => false
  | .badcmd => false
  | .cqheadWrite _ => false
  | .registerWrite _ _ _ => false
  | .hostApertureWrite _ _ => false
  | .hostApertureRead _ _ _ => false
  | .debugEnableWrite _ => false
  | .meas7Write _ => false
  | .imageKeyWrite _ _ => false
  | .firmwareImageWrite _ => false
  | .edgeViewPass => false
  | .coldStart => false
  | .warmResetPin => false
  | .powerLoss => false
  | .monitorSample _ _ _ _ _ => false
  | .clockStepUp => false
  | .eccError _ _ _ _ => false
  | .stackLost _ => false
  | .hbmScrub => false
  | .eventRecord => false
  | .ringWrite => false
  | .ringHeaderWrite => false
  | .sample _ _ => false
  | .ckptComplete => false
  | .restoreComplete => false
  | .l2SectorEvict _ => false
  | .l1LineEvict _ _ => false
  | .ptpMessage _ => false

end Sys2Proof
end

