-- ==== Sys2Proof/Decode.lean ====
section
/-! DEFINITION. The decoder of R58 and R78 to R85, total on any bytes, and after it the encoder written from the same
tables (R74, R80). A word is read as a number below 2^32; bit 0 is its least significant bit (R4). -/

namespace Sys2Proof

/-- Why a word is not an instruction. -/
inductive DecodeError where
  /-- Fewer than the four bytes of a word (R58). -/
  | short
  /-- Major 0x00 is a run header, not an instruction (R63). -/
  | header
  /-- Major 0x1F or 0x33 to 0x3E (R81). -/
  | reservedMajor
  /-- A function code absent from R78 and R79, or a field that must be zero is not (R81, R82). -/
  | reservedField
  /-- A field value or register operand that R83 to R85 forbid. -/
  | badOperand
  deriving DecidableEq, Repr

/-- The field of `n` bits of word `w` whose lowest bit is bit `lo` (R4). -/
def field (w lo n : Nat) : BitVec n := BitVec.ofNat n (w / 2 ^ lo)

/-- The word `w` agrees with pattern `m` in the bits hi:lo. -/
def bitsAre (w lo n v : Nat) : Bool := w / 2 ^ lo % 2 ^ n == v

/-- The word of four bytes, the first at the lowest address holding bits 7:0 (R4, R58). -/
def wordOfBytes (b0 b1 b2 b3 : BitVec 8) : Nat :=
  b0.toNat + 256 * b1.toNat + 65536 * b2.toNat + 16777216 * b3.toNat

/-- The chain bit (R58, R61). -/
def chainBit (w : Nat) : Bool := w / 2147483648 % 2 == 1

/-- The major opcode (R58). -/
def majorOf (w : Nat) : Nat := w / 33554432 % 64

/-- Major 0x01 (R78). -/
def decodeMajor01 (w : Nat) : Option Instr :=
  if bitsAre w 0 25 1048576 && bitsAre w 31 1 0 then some (.exit)
  else if bitsAre w 0 25 2097152 && bitsAre w 31 1 0 then some (.yield)
  else if bitsAre w 0 25 8388608 && bitsAre w 31 1 0 then some (.gbar)
  else if bitsAre w 0 25 0 then some (.nop (field w 31 1))
  else if bitsAre w 0 25 7340032 then some (.rgne (field w 31 1))
  else if bitsAre w 20 5 3 then some (.brkpt (field w 31 1) (field w 0 20))
  else if bitsAre w 20 5 4 then some (.sigck (field w 31 1) (field w 0 20))
  else if bitsAre w 20 5 5 then some (.evt (field w 31 1) (field w 0 20))
  else if bitsAre w 20 5 6 then some (.rgnb (field w 31 1) (field w 0 20))
  else none

/-- Major 0x02 (R78). -/
def decodeMajor02 (w : Nat) : Option Instr :=
  if bitsAre w 0 7 0 then some (.iaddSr (field w 31 1) (field w 19 6) (field w 13 6) (field w 7 6))
  else if bitsAre w 0 7 1 then some (.isubSr (field w 31 1) (field w 19 6) (field w 13 6) (field w 7 6))
  else if bitsAre w 0 7 2 then some (.imulSr (field w 31 1) (field w 19 6) (field w 13 6) (field w 7 6))
  else if bitsAre w 0 7 3 then some (.imulhSr (field w 31 1) (field w 19 6) (field w 13 6) (field w 7 6))
  else if bitsAre w 0 7 4 then some (.imulhUSr (field w 31 1) (field w 19 6) (field w 13 6) (field w 7 6))
  else if bitsAre w 0 7 5 then some (.andSr (field w 31 1) (field w 19 6) (field w 13 6) (field w 7 6))
  else if bitsAre w 0 7 6 then some (.orSr (field w 31 1) (field w 19 6) (field w 13 6) (field w 7 6))
  else if bitsAre w 0 7 7 then some (.xorSr (field w 31 1) (field w 19 6) (field w 13 6) (field w 7 6))
  else if bitsAre w 0 7 8 then some (.andnSr (field w 31 1) (field w 19 6) (field w 13 6) (field w 7 6))
  else if bitsAre w 0 7 9 then some (.shlSr (field w 31 1) (field w 19 6) (field w 13 6) (field w 7 6))
  else if bitsAre w 0 7 10 then some (.shrSr (field w 31 1) (field w 19 6) (field w 13 6) (field w 7 6))
  else if bitsAre w 0 7 11 then some (.sraSr (field w 31 1) (field w 19 6) (field w 13 6) (field w 7 6))
  else if bitsAre w 0 7 12 then some (.iminSr (field w 31 1) (field w 19 6) (field w 13 6) (field w 7 6))
  else if bitsAre w 0 7 13 then some (.imaxSr (field w 31 1) (field w 19 6) (field w 13 6) (field w 7 6))
  else if bitsAre w 0 7 14 then some (.iminUSr (field w 31 1) (field w 19 6) (field w 13 6) (field w 7 6))
  else if bitsAre w 0 7 15 then some (.imaxUSr (field w 31 1) (field w 19 6) (field w 13 6) (field w 7 6))
  else if bitsAre w 0 7 16 then some (.sltSr (field w 31 1) (field w 19 6) (field w 13 6) (field w 7 6))
  else if bitsAre w 0 7 17 then some (.sltUSr (field w 31 1) (field w 19 6) (field w 13 6) (field w 7 6))
  else if bitsAre w 0 7 18 then some (.idivu (field w 31 1) (field w 19 6) (field w 13 6) (field w 7 6))
  else if bitsAre w 0 7 19 then some (.iremu (field w 31 1) (field w 19 6) (field w 13 6) (field w 7 6))
  else if bitsAre w 0 7 20 then some (.iadd64 (field w 31 1) (field w 19 6) (field w 13 6) (field w 7 6))
  else if bitsAre w 0 7 21 then some (.isub64 (field w 31 1) (field w 19 6) (field w 13 6) (field w 7 6))
  else none

/-- Major 0x03 (R78). -/
def decodeMajor03 (w : Nat) : Option Instr :=
  if bitsAre w 10 3 0 then some (.iaddSi (field w 31 1) (field w 19 6) (field w 13 6) (field w 0 10))
  else if bitsAre w 10 3 1 then some (.andSi (field w 31 1) (field w 19 6) (field w 13 6) (field w 0 10))
  else if bitsAre w 10 3 2 then some (.orSi (field w 31 1) (field w 19 6) (field w 13 6) (field w 0 10))
  else if bitsAre w 10 3 3 then some (.xorSi (field w 31 1) (field w 19 6) (field w 13 6) (field w 0 10))
  else if bitsAre w 10 3 4 then some (.shlSi (field w 31 1) (field w 19 6) (field w 13 6) (field w 0 10))
  else if bitsAre w 10 3 5 then some (.shrSi (field w 31 1) (field w 19 6) (field w 13 6) (field w 0 10))
  else if bitsAre w 10 3 6 then some (.sraSi (field w 31 1) (field w 19 6) (field w 13 6) (field w 0 10))
  else if bitsAre w 10 3 7 then some (.sltSi (field w 31 1) (field w 19 6) (field w 13 6) (field w 0 10))
  else none

/-- Major 0x04 (R78). -/
def decodeMajor04 (w : Nat) : Option Instr :=
  some (.lui (field w 31 1) (field w 19 6) (field w 0 19))

/-- Major 0x05 (R78). -/
def decodeMajor05 (w : Nat) : Option Instr :=
  if bitsAre w 0 11 0 then some (.gets (field w 31 1) (field w 19 6) (field w 11 8))
  else none

/-- Major 0x06 (R78). -/
def decodeMajor06 (w : Nat) : Option Instr :=
  some (.ldScalar (field w 31 1) (field w 19 6) (field w 13 6) (field w 11 2) (field w 0 11))

/-- Major 0x07 (R78). -/
def decodeMajor07 (w : Nat) : Option Instr :=
  some (.stScalar (field w 31 1) (field w 19 6) (field w 13 6) (field w 11 2) (field w 0 11))

/-- Major 0x08 (R78). -/
def decodeMajor08 (w : Nat) : Option Instr :=
  if bitsAre w 0 4 0 then some (.iaddVr (field w 31 1) (field w 18 7) (field w 11 7) (field w 4 7))
  else if bitsAre w 0 4 1 then some (.isubVr (field w 31 1) (field w 18 7) (field w 11 7) (field w 4 7))
  else if bitsAre w 0 4 2 then some (.imulVr (field w 31 1) (field w 18 7) (field w 11 7) (field w 4 7))
  else if bitsAre w 0 4 3 then some (.imulhVr (field w 31 1) (field w 18 7) (field w 11 7) (field w 4 7))
  else if bitsAre w 0 4 4 then some (.imulhUVr (field w 31 1) (field w 18 7) (field w 11 7) (field w 4 7))
  else if bitsAre w 0 4 5 then some (.andVr (field w 31 1) (field w 18 7) (field w 11 7) (field w 4 7))
  else if bitsAre w 0 4 6 then some (.orVr (field w 31 1) (field w 18 7) (field w 11 7) (field w 4 7))
  else if bitsAre w 0 4 7 then some (.xorVr (field w 31 1) (field w 18 7) (field w 11 7) (field w 4 7))
  else if bitsAre w 0 4 8 then some (.andnVr (field w 31 1) (field w 18 7) (field w 11 7) (field w 4 7))
  else if bitsAre w 0 4 9 then some (.shlVr (field w 31 1) (field w 18 7) (field w 11 7) (field w 4 7))
  else if bitsAre w 0 4 10 then some (.shrVr (field w 31 1) (field w 18 7) (field w 11 7) (field w 4 7))
  else if bitsAre w 0 4 11 then some (.sraVr (field w 31 1) (field w 18 7) (field w 11 7) (field w 4 7))
  else if bitsAre w 0 4 12 then some (.iminVr (field w 31 1) (field w 18 7) (field w 11 7) (field w 4 7))
  else if bitsAre w 0 4 13 then some (.imaxVr (field w 31 1) (field w 18 7) (field w 11 7) (field w 4 7))
  else if bitsAre w 0 4 14 then some (.iminUVr (field w 31 1) (field w 18 7) (field w 11 7) (field w 4 7))
  else if bitsAre w 0 4 15 then some (.imaxUVr (field w 31 1) (field w 18 7) (field w 11 7) (field w 4 7))
  else none

/-- Major 0x09 (R78). -/
def decodeMajor09 (w : Nat) : Option Instr :=
  if bitsAre w 9 2 0 then some (.iaddVi (field w 31 1) (field w 18 7) (field w 11 7) (field w 0 9))
  else if bitsAre w 9 2 1 then some (.andVi (field w 31 1) (field w 18 7) (field w 11 7) (field w 0 9))
  else if bitsAre w 9 2 2 then some (.shlVi (field w 31 1) (field w 18 7) (field w 11 7) (field w 0 9))
  else if bitsAre w 9 2 3 then some (.shrVi (field w 31 1) (field w 18 7) (field w 11 7) (field w 0 9))
  else none

/-- Major 0x0A (R78). -/
def decodeMajor0A (w : Nat) : Option Instr :=
  if bitsAre w 0 4 0 then some (.iaddP16 (field w 31 1) (field w 18 7) (field w 11 7) (field w 4 7))
  else if bitsAre w 0 4 1 then some (.isubP16 (field w 31 1) (field w 18 7) (field w 11 7) (field w 4 7))
  else if bitsAre w 0 4 2 then some (.iaddsP16 (field w 31 1) (field w 18 7) (field w 11 7) (field w 4 7))
  else if bitsAre w 0 4 3 then some (.isubsP16 (field w 31 1) (field w 18 7) (field w 11 7) (field w 4 7))
  else if bitsAre w 0 4 4 then some (.imaxP16 (field w 31 1) (field w 18 7) (field w 11 7) (field w 4 7))
  else if bitsAre w 0 4 5 then some (.iminP16 (field w 31 1) (field w 18 7) (field w 11 7) (field w 4 7))
  else if bitsAre w 0 4 6 then some (.cmpvGtP16 (field w 31 1) (field w 18 7) (field w 11 7) (field w 4 7))
  else if bitsAre w 0 4 7 then some (.iaddP8 (field w 31 1) (field w 18 7) (field w 11 7) (field w 4 7))
  else if bitsAre w 0 4 8 then some (.isubP8 (field w 31 1) (field w 18 7) (field w 11 7) (field w 4 7))
  else if bitsAre w 0 4 9 then some (.iaddsUP8 (field w 31 1) (field w 18 7) (field w 11 7) (field w 4 7))
  else if bitsAre w 0 4 10 then some (.imaxUP8 (field w 31 1) (field w 18 7) (field w 11 7) (field w 4 7))
  else if bitsAre w 0 4 11 then some (.iminUP8 (field w 31 1) (field w 18 7) (field w 11 7) (field w 4 7))
  else if bitsAre w 0 4 12 then some (.permb (field w 31 1) (field w 18 7) (field w 11 7) (field w 4 7))
  else if bitsAre w 0 4 13 then some (.pack16 (field w 31 1) (field w 18 7) (field w 11 7) (field w 4 7))
  else if bitsAre w 0 4 14 then some (.unpk16Lo (field w 31 1) (field w 18 7) (field w 11 7) (field w 4 7))
  else if bitsAre w 0 4 15 then some (.unpk16Hi (field w 31 1) (field w 18 7) (field w 11 7) (field w 4 7))
  else none

/-- Major 0x0B (R78). -/
def decodeMajor0B (w : Nat) : Option Instr :=
  some (.li (field w 31 1) (field w 18 7) (field w 0 18))

/-- Major 0x0C (R78). -/
def decodeMajor0C (w : Nat) : Option Instr :=
  some (.sel (field w 31 1) (field w 18 7) (field w 11 7) (field w 4 7) (field w 0 4))

/-- Major 0x0D (R78). -/
def decodeMajor0D (w : Nat) : Option Instr :=
  if bitsAre w 0 5 0 && bitsAre w 11 7 0 then some (.bcast (field w 31 1) (field w 18 7) (field w 5 6))
  else if bitsAre w 0 5 6 && bitsAre w 11 7 0 then some (.laneid (field w 31 1) (field w 18 7) (field w 5 6))
  else if bitsAre w 0 5 7 && bitsAre w 11 7 0 then some (.rand (field w 31 1) (field w 18 7) (field w 5 6))
  else if bitsAre w 0 5 1 then some (.iaddVs (field w 31 1) (field w 18 7) (field w 11 7) (field w 5 6))
  else if bitsAre w 0 5 2 then some (.imulVs (field w 31 1) (field w 18 7) (field w 11 7) (field w 5 6))
  else if bitsAre w 0 5 3 then some (.faddVs (field w 31 1) (field w 18 7) (field w 11 7) (field w 5 6))
  else if bitsAre w 0 5 4 then some (.fmulVs (field w 31 1) (field w 18 7) (field w 11 7) (field w 5 6))
  else if bitsAre w 0 5 5 then some (.ffmaVs (field w 31 1) (field w 18 7) (field w 11 7) (field w 5 6))
  else if bitsAre w 0 5 8 then some (.samp (field w 31 1) (field w 18 7) (field w 11 7) (field w 5 6))
  else none

/-- Major 0x0E (R78). -/
def decodeMajor0E (w : Nat) : Option Instr :=
  if bitsAre w 0 6 0 then some (.rdlane (field w 31 1) (field w 19 6) (field w 12 7) (field w 6 6))
  else none

/-- Major 0x0F (R78). -/
def decodeMajor0F (w : Nat) : Option Instr :=
  if bitsAre w 0 11 0 then some (.popc (field w 31 1) (field w 18 7) (field w 11 7))
  else if bitsAre w 0 11 1 then some (.clz (field w 31 1) (field w 18 7) (field w 11 7))
  else none

/-- Major 0x10 (R78). -/
def decodeMajor10 (w : Nat) : Option Instr :=
  if bitsAre w 0 11 10 then some (.fabs (field w 31 1) (field w 18 7) (field w 11 7))
  else if bitsAre w 0 11 11 then some (.fneg (field w 31 1) (field w 18 7) (field w 11 7))
  else if bitsAre w 0 11 15 then some (.fclass (field w 31 1) (field w 18 7) (field w 11 7))
  else if bitsAre w 0 4 0 then some (.fadd (field w 31 1) (field w 18 7) (field w 11 7) (field w 4 7))
  else if bitsAre w 0 4 1 then some (.fsub (field w 31 1) (field w 18 7) (field w 11 7) (field w 4 7))
  else if bitsAre w 0 4 2 then some (.fmul (field w 31 1) (field w 18 7) (field w 11 7) (field w 4 7))
  else if bitsAre w 0 4 3 then some (.ffma (field w 31 1) (field w 18 7) (field w 11 7) (field w 4 7))
  else if bitsAre w 0 4 4 then some (.ffms (field w 31 1) (field w 18 7) (field w 11 7) (field w 4 7))
  else if bitsAre w 0 4 5 then some (.fnfma (field w 31 1) (field w 18 7) (field w 11 7) (field w 4 7))
  else if bitsAre w 0 4 6 then some (.fmin (field w 31 1) (field w 18 7) (field w 11 7) (field w 4 7))
  else if bitsAre w 0 4 7 then some (.fmax (field w 31 1) (field w 18 7) (field w 11 7) (field w 4 7))
  else if bitsAre w 0 4 8 then some (.fminn (field w 31 1) (field w 18 7) (field w 11 7) (field w 4 7))
  else if bitsAre w 0 4 9 then some (.fmaxn (field w 31 1) (field w 18 7) (field w 11 7) (field w 4 7))
  else if bitsAre w 0 4 12 then some (.fcps (field w 31 1) (field w 18 7) (field w 11 7) (field w 4 7))
  else if bitsAre w 0 4 13 then some (.twosum (field w 31 1) (field w 18 7) (field w 11 7) (field w 4 7))
  else if bitsAre w 0 4 14 then some (.twoprod (field w 31 1) (field w 18 7) (field w 11 7) (field w 4 7))
  else none

/-- Major 0x11 (R78). -/
def decodeMajor11 (w : Nat) : Option Instr :=
  some (.cmp (field w 31 1) (field w 21 4) (field w 14 7) (field w 7 7) (field w 3 4) (field w 0 3))

/-- Major 0x12 (R78). -/
def decodeMajor12 (w : Nat) : Option Instr :=
  if bitsAre w 0 4 0 then some (.faddB2 (field w 31 1) (field w 18 7) (field w 11 7) (field w 4 7))
  else if bitsAre w 0 4 1 then some (.fmulB2 (field w 31 1) (field w 18 7) (field w 11 7) (field w 4 7))
  else if bitsAre w 0 4 2 then some (.ffmaB2 (field w 31 1) (field w 18 7) (field w 11 7) (field w 4 7))
  else if bitsAre w 0 4 3 then some (.fmaxB2 (field w 31 1) (field w 18 7) (field w 11 7) (field w 4 7))
  else if bitsAre w 0 4 4 then some (.fminB2 (field w 31 1) (field w 18 7) (field w 11 7) (field w 4 7))
  else if bitsAre w 0 4 5 then some (.faddH2 (field w 31 1) (field w 18 7) (field w 11 7) (field w 4 7))
  else if bitsAre w 0 4 6 then some (.fmulH2 (field w 31 1) (field w 18 7) (field w 11 7) (field w 4 7))
  else if bitsAre w 0 4 7 then some (.ffmaH2 (field w 31 1) (field w 18 7) (field w 11 7) (field w 4 7))
  else if bitsAre w 0 4 8 then some (.fmaxH2 (field w 31 1) (field w 18 7) (field w 11 7) (field w 4 7))
  else if bitsAre w 0 4 9 then some (.fminH2 (field w 31 1) (field w 18 7) (field w 11 7) (field w 4 7))
  else none

/-- Major 0x13 (R78). -/
def decodeMajor13 (w : Nat) : Option Instr :=
  if bitsAre w 9 2 2 && bitsAre w 18 7 0 then some (.cbld (field w 31 1) (field w 11 7) (field w 0 9))
  else if bitsAre w 9 2 0 then some (.cbx (field w 31 1) (field w 18 7) (field w 11 7) (field w 0 9))
  else if bitsAre w 9 2 1 then some (.cbnear (field w 31 1) (field w 18 7) (field w 11 7) (field w 0 9))
  else none

/-- Major 0x14 (R78). -/
def decodeMajor14 (w : Nat) : Option Instr :=
  if bitsAre w 0 2 0 then some (.cvt (field w 31 1) (field w 18 7) (field w 11 7) (field w 6 5) (field w 3 3) (field w 2 1))
  else none

/-- Major 0x15 (R78). -/
def decodeMajor15 (w : Nat) : Option Instr :=
  if bitsAre w 0 11 0 then some (.rcps (field w 31 1) (field w 18 7) (field w 11 7))
  else if bitsAre w 0 11 1 then some (.rsqs (field w 31 1) (field w 18 7) (field w 11 7))
  else if bitsAre w 0 11 2 then some (.exp2 (field w 31 1) (field w 18 7) (field w 11 7))
  else if bitsAre w 0 11 3 then some (.log2 (field w 31 1) (field w 18 7) (field w 11 7))
  else if bitsAre w 0 11 4 then some (.tanh (field w 31 1) (field w 18 7) (field w 11 7))
  else none

/-- Major 0x16 (R78). -/
def decodeMajor16 (w : Nat) : Option Instr :=
  if bitsAre w 0 25 1536 then some (.qfill (field w 31 1))
  else if bitsAre w 2 9 0 then some (.qswap (field w 31 1) (field w 18 7) (field w 11 7) (field w 0 2))
  else if bitsAre w 2 9 128 then some (.qbc (field w 31 1) (field w 18 7) (field w 11 7) (field w 0 2))
  else if bitsAre w 2 9 256 then some (.qred (field w 31 1) (field w 18 7) (field w 11 7) (field w 0 2))
  else none

/-- Major 0x17 (R78). -/
def decodeMajor17 (w : Nat) : Option Instr :=
  if bitsAre w 0 5 0 then some (.shflAt (field w 31 1) (field w 18 7) (field w 11 7) (field w 5 6))
  else if bitsAre w 0 5 1 then some (.shflRot (field w 31 1) (field w 18 7) (field w 11 7) (field w 5 6))
  else if bitsAre w 0 5 2 then some (.shflShift (field w 31 1) (field w 18 7) (field w 11 7) (field w 5 6))
  else if bitsAre w 0 5 3 then some (.shflMirr (field w 31 1) (field w 18 7) (field w 11 7) (field w 5 6))
  else none

/-- Major 0x18 (R78). -/
def decodeMajor18 (w : Nat) : Option Instr :=
  if bitsAre w 0 11 0 then some (.redAddI (field w 31 1) (field w 18 7) (field w 11 7))
  else if bitsAre w 0 11 1 then some (.redAddF (field w 31 1) (field w 18 7) (field w 11 7))
  else if bitsAre w 0 11 2 then some (.redMaxF (field w 31 1) (field w 18 7) (field w 11 7))
  else if bitsAre w 0 11 3 then some (.redMinF (field w 31 1) (field w 18 7) (field w 11 7))
  else if bitsAre w 0 11 4 then some (.redMaxI (field w 31 1) (field w 18 7) (field w 11 7))
  else if bitsAre w 0 11 5 then some (.redMinI (field w 31 1) (field w 18 7) (field w 11 7))
  else if bitsAre w 0 11 8 then some (.scanAddI (field w 31 1) (field w 18 7) (field w 11 7))
  else if bitsAre w 0 11 9 then some (.scanAddF (field w 31 1) (field w 18 7) (field w 11 7))
  else if bitsAre w 0 4 6 then some (.redMaxixF (field w 31 1) (field w 18 7) (field w 11 7) (field w 4 7))
  else if bitsAre w 0 4 7 then some (.redMinixF (field w 31 1) (field w 18 7) (field w 11 7) (field w 4 7))
  else if bitsAre w 0 4 10 then some (.shflVar (field w 31 1) (field w 18 7) (field w 11 7) (field w 4 7))
  else if bitsAre w 0 4 11 then some (.redMaxixH (field w 31 1) (field w 18 7) (field w 11 7) (field w 4 7))
  else none

/-- Major 0x19 (R78). -/
def decodeMajor19 (w : Nat) : Option Instr :=
  if bitsAre w 0 10 128 && bitsAre w 18 7 0 then some (.kany (field w 31 1) (field w 14 4) (field w 10 4))
  else if bitsAre w 0 10 256 && bitsAre w 18 7 0 then some (.kall (field w 31 1) (field w 14 4) (field w 10 4))
  else if bitsAre w 0 10 384 && bitsAre w 18 7 0 then some (.kpop (field w 31 1) (field w 14 4) (field w 10 4))
  else if bitsAre w 0 14 0 then some (.ballot (field w 31 1) (field w 18 7) (field w 14 4))
  else if bitsAre w 0 14 512 then some (.krank (field w 31 1) (field w 18 7) (field w 14 4))
  else none

/-- Major 0x1A (R78). -/
def decodeMajor1A (w : Nat) : Option Instr :=
  if bitsAre w 0 21 3072 then some (.kset (field w 31 1) (field w 21 4))
  else if bitsAre w 0 21 3584 then some (.kclr (field w 31 1) (field w 21 4))
  else if bitsAre w 0 17 2048 then some (.knot (field w 31 1) (field w 21 4) (field w 17 4))
  else if bitsAre w 0 17 2560 then some (.kmov (field w 31 1) (field w 21 4) (field w 17 4))
  else if bitsAre w 0 2 0 && bitsAre w 9 12 8 then some (.kfromv (field w 31 1) (field w 21 4) (field w 2 7))
  else if bitsAre w 0 13 0 then some (.kand (field w 31 1) (field w 21 4) (field w 17 4) (field w 13 4))
  else if bitsAre w 0 13 512 then some (.kor (field w 31 1) (field w 21 4) (field w 17 4) (field w 13 4))
  else if bitsAre w 0 13 1024 then some (.kxor (field w 31 1) (field w 21 4) (field w 17 4) (field w 13 4))
  else if bitsAre w 0 13 1536 then some (.kandn (field w 31 1) (field w 21 4) (field w 17 4) (field w 13 4))
  else none

/-- Major 0x1B (R78). -/
def decodeMajor1B (w : Nat) : Option Instr :=
  if bitsAre w 0 9 0 then some (.kbit (field w 31 1) (field w 21 4) (field w 14 7) (field w 9 5))
  else none

/-- Major 0x1C (R78). -/
def decodeMajor1C (w : Nat) : Option Instr :=
  if bitsAre w 0 25 1572864 && bitsAre w 31 1 0 then some (.endrg)
  else if bitsAre w 0 25 524288 then some (.endIf (field w 31 1))
  else if bitsAre w 18 7 1 && bitsAre w 31 1 0 then some (.elseK (field w 0 18))
  else if bitsAre w 18 7 5 && bitsAre w 31 1 0 then some (.endLp (field w 0 18))
  else if bitsAre w 18 7 4 then some (.loop (field w 31 1) (field w 0 18))
  else if bitsAre w 18 3 0 && bitsAre w 31 1 0 then some (.ifK (field w 21 4) (field w 0 18))
  else if bitsAre w 18 3 6 && bitsAre w 31 1 0 then some (.regrp (field w 21 4) (field w 0 18))
  else if bitsAre w 18 3 3 then some (.brkIf (field w 31 1) (field w 21 4) (field w 0 18))
  else none

/-- Major 0x1D (R78). -/
def decodeMajor1D (w : Nat) : Option Instr :=
  if bitsAre w 15 10 0 && bitsAre w 31 1 0 then some (.bra (field w 0 15))
  else if bitsAre w 31 1 0 then some (.brc (field w 21 4) (field w 15 6) (field w 0 15))
  else none

/-- Major 0x1E (R78). -/
def decodeMajor1E (w : Nat) : Option Instr :=
  if bitsAre w 0 25 8388608 && bitsAre w 31 1 0 then some (.ret)
  else if bitsAre w 0 16 0 && bitsAre w 22 3 1 && bitsAre w 31 1 0 then some (.callr (field w 16 6))
  else if bitsAre w 0 16 0 && bitsAre w 22 3 3 && bitsAre w 31 1 0 then some (.jmpr (field w 16 6))
  else if bitsAre w 22 3 0 && bitsAre w 31 1 0 then some (.call (field w 0 22))
  else none

/-- Major 0x20 (R78). -/
def decodeMajor20 (w : Nat) : Option Instr :=
  some (.ldVector (field w 31 1) (field w 18 7) (field w 12 6) (field w 5 7) (field w 3 2) (field w 0 3))

/-- Major 0x21 (R78). -/
def decodeMajor21 (w : Nat) : Option Instr :=
  some (.stVector (field w 31 1) (field w 18 7) (field w 12 6) (field w 5 7) (field w 3 2) (field w 0 3))

/-- Major 0x22 (R78). -/
def decodeMajor22 (w : Nat) : Option Instr :=
  if bitsAre w 0 3 0 then some (.ldl (field w 31 1) (field w 18 7) (field w 12 6) (field w 5 7) (field w 3 2))
  else none

/-- Major 0x23 (R78). -/
def decodeMajor23 (w : Nat) : Option Instr :=
  if bitsAre w 0 3 0 then some (.stl (field w 31 1) (field w 18 7) (field w 12 6) (field w 5 7) (field w 3 2))
  else none

/-- Major 0x24 (R78). -/
def decodeMajor24 (w : Nat) : Option Instr :=
  if bitsAre w 0 5 0 then some (.ldt (field w 31 1) (field w 18 7) (field w 12 6) (field w 5 7))
  else none

/-- Major 0x25 (R78). -/
def decodeMajor25 (w : Nat) : Option Instr :=
  if bitsAre w 0 5 0 then some (.stt (field w 31 1) (field w 18 7) (field w 12 6) (field w 5 7))
  else none

/-- Major 0x26 (R78). -/
def decodeMajor26 (w : Nat) : Option Instr :=
  if bitsAre w 0 2 0 then some (.atom (field w 31 1) (field w 18 7) (field w 11 7) (field w 7 4) (field w 5 2) (field w 2 3))
  else none

/-- Major 0x27 (R78). -/
def decodeMajor27 (w : Nat) : Option Instr :=
  if bitsAre w 0 8 0 && bitsAre w 21 4 1 && bitsAre w 31 1 0 then some (.waitm (field w 14 7) (field w 8 6))
  else if bitsAre w 0 8 0 && bitsAre w 21 4 0 then some (.lmon (field w 31 1) (field w 14 7) (field w 8 6))
  else none

/-- Major 0x28 (R78). -/
def decodeMajor28 (w : Nat) : Option Instr :=
  if bitsAre w 0 19 0 then some (.fence (field w 31 1) (field w 22 3) (field w 19 3))
  else none

/-- Major 0x29 (R78). -/
def decodeMajor29 (w : Nat) : Option Instr :=
  if bitsAre w 0 13 0 && bitsAre w 22 3 0 then some (.lpub (field w 31 1) (field w 19 3) (field w 13 6))
  else if bitsAre w 0 13 0 && bitsAre w 22 3 1 then some (.lmark (field w 31 1) (field w 19 3) (field w 13 6))
  else if bitsAre w 0 7 0 && bitsAre w 22 3 2 then some (.lacq (field w 31 1) (field w 19 3) (field w 13 6) (field w 7 6))
  else none

/-- Major 0x2A (R78). -/
def decodeMajor2A (w : Nat) : Option Instr :=
  if bitsAre w 0 12 0 && bitsAre w 18 3 2 && bitsAre w 31 1 0 then some (.bwait (field w 21 4) (field w 12 6))
  else if bitsAre w 0 12 0 && bitsAre w 18 3 3 && bitsAre w 31 1 0 then some (.barw (field w 21 4) (field w 12 6))
  else if bitsAre w 0 12 0 && bitsAre w 18 3 0 then some (.binit (field w 31 1) (field w 21 4) (field w 12 6))
  else if bitsAre w 0 12 0 && bitsAre w 18 3 1 then some (.barr (field w 31 1) (field w 21 4) (field w 12 6))
  else if bitsAre w 0 12 0 && bitsAre w 18 3 4 then some (.bphase (field w 31 1) (field w 21 4) (field w 12 6))
  else if bitsAre w 0 12 0 && bitsAre w 18 3 5 then some (.bexp (field w 31 1) (field w 21 4) (field w 12 6))
  else none

/-- Major 0x2B (R78). -/
def decodeMajor2B (w : Nat) : Option Instr :=
  if bitsAre w 0 19 65536 then some (.tacq (field w 31 1) (field w 19 6))
  else if bitsAre w 0 19 131072 then some (.trdy (field w 31 1) (field w 19 6))
  else if bitsAre w 0 19 196608 then some (.trel (field w 31 1) (field w 19 6))
  else if bitsAre w 0 10 0 && bitsAre w 16 9 5 then some (.thand (field w 31 1) (field w 10 6))
  else if bitsAre w 0 10 0 && bitsAre w 16 9 6 then some (.tadopt (field w 31 1) (field w 10 6))
  else if bitsAre w 0 10 0 && bitsAre w 16 3 0 then some (.tdef (field w 31 1) (field w 19 6) (field w 10 6))
  else if bitsAre w 0 10 0 && bitsAre w 16 3 4 then some (.tstat (field w 31 1) (field w 19 6) (field w 10 6))
  else none

/-- Major 0x2C (R78). -/
def decodeMajor2C (w : Nat) : Option Instr :=
  if bitsAre w 22 3 0 then some (.cpyG2t (field w 31 1) (field w 16 6) (field w 10 6) (field w 4 6) (field w 0 4))
  else if bitsAre w 22 3 1 then some (.cpyT2g (field w 31 1) (field w 16 6) (field w 10 6) (field w 4 6) (field w 0 4))
  else if bitsAre w 22 3 2 then some (.cpyL2l (field w 31 1) (field w 16 6) (field w 10 6) (field w 4 6) (field w 0 4))
  else if bitsAre w 22 3 3 then some (.cpyG2g (field w 31 1) (field w 16 6) (field w 10 6) (field w 4 6) (field w 0 4))
  else if bitsAre w 22 3 4 then some (.cpyG2l (field w 31 1) (field w 16 6) (field w 10 6) (field w 4 6) (field w 0 4))
  else if bitsAre w 22 3 5 then some (.cpyL2g (field w 31 1) (field w 16 6) (field w 10 6) (field w 4 6) (field w 0 4))
  else if bitsAre w 22 3 6 then some (.gather (field w 31 1) (field w 16 6) (field w 10 6) (field w 4 6) (field w 0 4))
  else none

/-- Major 0x2D (R78). -/
def decodeMajor2D (w : Nat) : Option Instr :=
  if bitsAre w 0 25 20971520 then some (.mrel (field w 31 1))
  else if bitsAre w 0 16 0 && bitsAre w 22 3 3 then some (.mdrn (field w 31 1) (field w 16 6))
  else if bitsAre w 0 16 0 && bitsAre w 22 3 4 then some (.mrst (field w 31 1) (field w 16 6))
  else if bitsAre w 0 14 0 && bitsAre w 15 1 0 && bitsAre w 22 3 0 then some (.mldwTile (field w 31 1) (field w 16 6) (field w 14 1))
  else if bitsAre w 0 14 0 && bitsAre w 15 1 1 && bitsAre w 22 3 0 then some (.mldwHandle (field w 31 1) (field w 16 6) (field w 14 1))
  else if bitsAre w 0 10 0 && bitsAre w 22 3 2 then some (.mz (field w 31 1) (field w 16 6) (field w 10 6))
  else if bitsAre w 0 5 0 && bitsAre w 22 3 1 then some (.mma (field w 31 1) (field w 16 6) (field w 13 3) (field w 7 6) (field w 6 1) (field w 5 1))
  else none

/-- Major 0x2E (R78). -/
def decodeMajor2E (w : Nat) : Option Instr :=
  if bitsAre w 0 6 0 then some (.accrd (field w 31 1) (field w 18 7) (field w 12 6) (field w 6 6))
  else if bitsAre w 0 6 8 then some (.accrdF (field w 31 1) (field w 18 7) (field w 12 6) (field w 6 6))
  else if bitsAre w 0 6 16 then some (.accwr (field w 31 1) (field w 18 7) (field w 12 6) (field w 6 6))
  else if bitsAre w 0 6 24 then some (.accwrF (field w 31 1) (field w 18 7) (field w 12 6) (field w 6 6))
  else none

/-- Major 0x2F (R78). -/
def decodeMajor2F (w : Nat) : Option Instr :=
  if bitsAre w 22 3 0 then some (.put (field w 31 1) (field w 16 6) (field w 10 6) (field w 4 6) (field w 0 4))
  else if bitsAre w 22 3 1 then some (.puts (field w 31 1) (field w 16 6) (field w 10 6) (field w 4 6) (field w 0 4))
  else if bitsAre w 22 3 2 then some (.get (field w 31 1) (field w 16 6) (field w 10 6) (field w 4 6) (field w 0 4))
  else if bitsAre w 22 3 3 then some (.csend (field w 31 1) (field w 16 6) (field w 10 6) (field w 4 6) (field w 0 4))
  else if bitsAre w 22 3 4 then some (.rsig (field w 31 1) (field w 16 6) (field w 10 6) (field w 4 6) (field w 0 4))
  else none

/-- Major 0x30 (R78). -/
def decodeMajor30 (w : Nat) : Option Instr :=
  if bitsAre w 22 3 0 then some (.spawn (field w 31 1) (field w 16 6) (field w 10 6) (field w 4 6) (field w 0 4))
  else if bitsAre w 22 3 1 then some (.hpass (field w 31 1) (field w 16 6) (field w 10 6) (field w 4 6) (field w 0 4))
  else none

/-- Major 0x31 (R78). -/
def decodeMajor31 (w : Nat) : Option Instr :=
  if bitsAre w 0 8 0 then some (.getx (field w 31 1) (field w 19 6) (field w 8 11))
  else if bitsAre w 0 8 32 then some (.setx (field w 31 1) (field w 19 6) (field w 8 11))
  else none

/-- Major 0x32 (R78). -/
def decodeMajor32 (w : Nat) : Option Instr :=
  if bitsAre w 0 25 4194304 && bitsAre w 31 1 0 then some (.rett)
  else if bitsAre w 0 25 12615680 then some (.tlbiAll (field w 31 1))
  else if bitsAre w 0 16 0 && bitsAre w 22 3 3 then some (.tlbi (field w 31 1) (field w 16 6))
  else if bitsAre w 16 9 0 && bitsAre w 31 1 0 then some (.sysc (field w 0 16))
  else if bitsAre w 16 9 128 && bitsAre w 31 1 0 then some (.hcall (field w 0 16))
  else none

/-- Major 0x3F (R78). -/
def decodeMajor3F (w : Nat) : Option Instr :=
  some (.dict (field w 31 1) (field w 24 1) (field w 22 2) (field w 12 10) (field w 10 2) (field w 0 10))

/-- The instruction a word of a given major stands for before its operands are checked (R78, R79, R80). -/
def decodeRaw (w : Nat) : Option Instr :=
  match majorOf w with
  | 1 => decodeMajor01 w
  | 2 => decodeMajor02 w
  | 3 => decodeMajor03 w
  | 4 => decodeMajor04 w
  | 5 => decodeMajor05 w
  | 6 => decodeMajor06 w
  | 7 => decodeMajor07 w
  | 8 => decodeMajor08 w
  | 9 => decodeMajor09 w
  | 10 => decodeMajor0A w
  | 11 => decodeMajor0B w
  | 12 => decodeMajor0C w
  | 13 => decodeMajor0D w
  | 14 => decodeMajor0E w
  | 15 => decodeMajor0F w
  | 16 => decodeMajor10 w
  | 17 => decodeMajor11 w
  | 18 => decodeMajor12 w
  | 19 => decodeMajor13 w
  | 20 => decodeMajor14 w
  | 21 => decodeMajor15 w
  | 22 => decodeMajor16 w
  | 23 => decodeMajor17 w
  | 24 => decodeMajor18 w
  | 25 => decodeMajor19 w
  | 26 => decodeMajor1A w
  | 27 => decodeMajor1B w
  | 28 => decodeMajor1C w
  | 29 => decodeMajor1D w
  | 30 => decodeMajor1E w
  | 32 => decodeMajor20 w
  | 33 => decodeMajor21 w
  | 34 => decodeMajor22 w
  | 35 => decodeMajor23 w
  | 36 => decodeMajor24 w
  | 37 => decodeMajor25 w
  | 38 => decodeMajor26 w
  | 39 => decodeMajor27 w
  | 40 => decodeMajor28 w
  | 41 => decodeMajor29 w
  | 42 => decodeMajor2A w
  | 43 => decodeMajor2B w
  | 44 => decodeMajor2C w
  | 45 => decodeMajor2D w
  | 46 => decodeMajor2E w
  | 47 => decodeMajor2F w
  | 48 => decodeMajor30 w
  | 49 => decodeMajor31 w
  | 50 => decodeMajor32 w
  | 63 => decodeMajor3F w
  | _ => none

/-- Decode one word (R81, R83 to R85). -/
def decodeWord (w : Nat) : Except DecodeError Instr :=
  if majorOf w = 0 then .error .header
  else if majorOf w = 31 ∨ (51 ≤ majorOf w ∧ majorOf w ≤ 62) then .error .reservedMajor
  else match decodeRaw w with
    | none => .error .reservedField
    | some i => if i.wellFormed then .ok i else .error .badOperand

/-- Decode the first word of a list of bytes and return the bytes after it. -/
def decode : List (BitVec 8) → Except DecodeError (Instr × List (BitVec 8))
  | b0 :: b1 :: b2 :: b3 :: rest =>
    match decodeWord (wordOfBytes b0 b1 b2 b3) with
    | .ok i => .ok (i, rest)
    | .error e => .error e
  | _ => .error .short

/-- Byte `k` of a word stored little-endian (R4). -/
def byteOfWord (w k : Nat) : BitVec 8 := BitVec.ofNat 8 (w / 256 ^ k)

/-- The four bytes of a word, lowest address first (R4, R58). -/
def bytesOfWord (w : Nat) : List (BitVec 8) := [byteOfWord w 0, byteOfWord w 1, byteOfWord w 2, byteOfWord w 3]

/-- What the decoder reads from an instruction whose bits are `w` (the host's numbering; every instruction is one
word of 32 bits, so `nbits` beyond 32 adds nothing). -/
def decodeTableWord (_nbits w : Nat) : Option Instr :=
  match decode (bytesOfWord (w % 4294967296)) with
  | .ok (i, _) => some i
  | .error _ => none

/-- The word of an instruction, from the tables of R74 and R80: its fixed bits plus each field at its place. An event
has no word. -/
def encodeWord : Instr → Option Nat
  | .nop c => some (33554432 + c.toNat * 2147483648)
  | .exit => some (34603008)
  | .yield => some (35651584)
  | .brkpt c i => some (36700160 + c.toNat * 2147483648 + i.toNat * 1)
  | .sigck c i => some (37748736 + c.toNat * 2147483648 + i.toNat * 1)
  | .evt c i => some (38797312 + c.toNat * 2147483648 + i.toNat * 1)
  | .rgnb c i => some (39845888 + c.toNat * 2147483648 + i.toNat * 1)
  | .rgne c => some (40894464 + c.toNat * 2147483648)
  | .gbar => some (41943040)
  | .iaddSr c d a b => some (67108864 + c.toNat * 2147483648 + d.toNat * 524288 + a.toNat * 8192 + b.toNat * 128)
  | .isubSr c d a b => some (67108865 + c.toNat * 2147483648 + d.toNat * 524288 + a.toNat * 8192 + b.toNat * 128)
  | .imulSr c d a b => some (67108866 + c.toNat * 2147483648 + d.toNat * 524288 + a.toNat * 8192 + b.toNat * 128)
  | .imulhSr c d a b => some (67108867 + c.toNat * 2147483648 + d.toNat * 524288 + a.toNat * 8192 + b.toNat * 128)
  | .imulhUSr c d a b => some (67108868 + c.toNat * 2147483648 + d.toNat * 524288 + a.toNat * 8192 + b.toNat * 128)
  | .andSr c d a b => some (67108869 + c.toNat * 2147483648 + d.toNat * 524288 + a.toNat * 8192 + b.toNat * 128)
  | .orSr c d a b => some (67108870 + c.toNat * 2147483648 + d.toNat * 524288 + a.toNat * 8192 + b.toNat * 128)
  | .xorSr c d a b => some (67108871 + c.toNat * 2147483648 + d.toNat * 524288 + a.toNat * 8192 + b.toNat * 128)
  | .andnSr c d a b => some (67108872 + c.toNat * 2147483648 + d.toNat * 524288 + a.toNat * 8192 + b.toNat * 128)
  | .shlSr c d a b => some (67108873 + c.toNat * 2147483648 + d.toNat * 524288 + a.toNat * 8192 + b.toNat * 128)
  | .shrSr c d a b => some (67108874 + c.toNat * 2147483648 + d.toNat * 524288 + a.toNat * 8192 + b.toNat * 128)
  | .sraSr c d a b => some (67108875 + c.toNat * 2147483648 + d.toNat * 524288 + a.toNat * 8192 + b.toNat * 128)
  | .iminSr c d a b => some (67108876 + c.toNat * 2147483648 + d.toNat * 524288 + a.toNat * 8192 + b.toNat * 128)
  | .imaxSr c d a b => some (67108877 + c.toNat * 2147483648 + d.toNat * 524288 + a.toNat * 8192 + b.toNat * 128)
  | .iminUSr c d a b => some (67108878 + c.toNat * 2147483648 + d.toNat * 524288 + a.toNat * 8192 + b.toNat * 128)
  | .imaxUSr c d a b => some (67108879 + c.toNat * 2147483648 + d.toNat * 524288 + a.toNat * 8192 + b.toNat * 128)
  | .sltSr c d a b => some (67108880 + c.toNat * 2147483648 + d.toNat * 524288 + a.toNat * 8192 + b.toNat * 128)
  | .sltUSr c d a b => some (67108881 + c.toNat * 2147483648 + d.toNat * 524288 + a.toNat * 8192 + b.toNat * 128)
  | .idivu c d a b => some (67108882 + c.toNat * 2147483648 + d.toNat * 524288 + a.toNat * 8192 + b.toNat * 128)
  | .iremu c d a b => some (67108883 + c.toNat * 2147483648 + d.toNat * 524288 + a.toNat * 8192 + b.toNat * 128)
  | .iadd64 c d a b => some (67108884 + c.toNat * 2147483648 + d.toNat * 524288 + a.toNat * 8192 + b.toNat * 128)
  | .isub64 c d a b => some (67108885 + c.toNat * 2147483648 + d.toNat * 524288 + a.toNat * 8192 + b.toNat * 128)
  | .iaddSi c d a i => some (100663296 + c.toNat * 2147483648 + d.toNat * 524288 + a.toNat * 8192 + i.toNat * 1)
  | .andSi c d a i => some (100664320 + c.toNat * 2147483648 + d.toNat * 524288 + a.toNat * 8192 + i.toNat * 1)
  | .orSi c d a i => some (100665344 + c.toNat * 2147483648 + d.toNat * 524288 + a.toNat * 8192 + i.toNat * 1)
  | .xorSi c d a i => some (100666368 + c.toNat * 2147483648 + d.toNat * 524288 + a.toNat * 8192 + i.toNat * 1)
  | .shlSi c d a i => some (100667392 + c.toNat * 2147483648 + d.toNat * 524288 + a.toNat * 8192 + i.toNat * 1)
  | .shrSi c d a i => some (100668416 + c.toNat * 2147483648 + d.toNat * 524288 + a.toNat * 8192 + i.toNat * 1)
  | .sraSi c d a i => some (100669440 + c.toNat * 2147483648 + d.toNat * 524288 + a.toNat * 8192 + i.toNat * 1)
  | .sltSi c d a i => some (100670464 + c.toNat * 2147483648 + d.toNat * 524288 + a.toNat * 8192 + i.toNat * 1)
  | .lui c d i => some (134217728 + c.toNat * 2147483648 + d.toNat * 524288 + i.toNat * 1)
  | .gets c d n => some (167772160 + c.toNat * 2147483648 + d.toNat * 524288 + n.toNat * 2048)
  | .ldScalar c d b z o => some (201326592 + c.toNat * 2147483648 + d.toNat * 524288 + b.toNat * 8192 + z.toNat * 2048 + o.toNat * 1)
  | .stScalar c d b z o => some (234881024 + c.toNat * 2147483648 + d.toNat * 524288 + b.toNat * 8192 + z.toNat * 2048 + o.toNat * 1)
  | .iaddVr c d a b => some (268435456 + c.toNat * 2147483648 + d.toNat * 262144 + a.toNat * 2048 + b.toNat * 16)
  | .isubVr c d a b => some (268435457 + c.toNat * 2147483648 + d.toNat * 262144 + a.toNat * 2048 + b.toNat * 16)
  | .imulVr c d a b => some (268435458 + c.toNat * 2147483648 + d.toNat * 262144 + a.toNat * 2048 + b.toNat * 16)
  | .imulhVr c d a b => some (268435459 + c.toNat * 2147483648 + d.toNat * 262144 + a.toNat * 2048 + b.toNat * 16)
  | .imulhUVr c d a b => some (268435460 + c.toNat * 2147483648 + d.toNat * 262144 + a.toNat * 2048 + b.toNat * 16)
  | .andVr c d a b => some (268435461 + c.toNat * 2147483648 + d.toNat * 262144 + a.toNat * 2048 + b.toNat * 16)
  | .orVr c d a b => some (268435462 + c.toNat * 2147483648 + d.toNat * 262144 + a.toNat * 2048 + b.toNat * 16)
  | .xorVr c d a b => some (268435463 + c.toNat * 2147483648 + d.toNat * 262144 + a.toNat * 2048 + b.toNat * 16)
  | .andnVr c d a b => some (268435464 + c.toNat * 2147483648 + d.toNat * 262144 + a.toNat * 2048 + b.toNat * 16)
  | .shlVr c d a b => some (268435465 + c.toNat * 2147483648 + d.toNat * 262144 + a.toNat * 2048 + b.toNat * 16)
  | .shrVr c d a b => some (268435466 + c.toNat * 2147483648 + d.toNat * 262144 + a.toNat * 2048 + b.toNat * 16)
  | .sraVr c d a b => some (268435467 + c.toNat * 2147483648 + d.toNat * 262144 + a.toNat * 2048 + b.toNat * 16)
  | .iminVr c d a b => some (268435468 + c.toNat * 2147483648 + d.toNat * 262144 + a.toNat * 2048 + b.toNat * 16)
  | .imaxVr c d a b => some (268435469 + c.toNat * 2147483648 + d.toNat * 262144 + a.toNat * 2048 + b.toNat * 16)
  | .iminUVr c d a b => some (268435470 + c.toNat * 2147483648 + d.toNat * 262144 + a.toNat * 2048 + b.toNat * 16)
  | .imaxUVr c d a b => some (268435471 + c.toNat * 2147483648 + d.toNat * 262144 + a.toNat * 2048 + b.toNat * 16)
  | .iaddVi c d a i => some (301989888 + c.toNat * 2147483648 + d.toNat * 262144 + a.toNat * 2048 + i.toNat * 1)
  | .andVi c d a i => some (301990400 + c.toNat * 2147483648 + d.toNat * 262144 + a.toNat * 2048 + i.toNat * 1)
  | .shlVi c d a i => some (301990912 + c.toNat * 2147483648 + d.toNat * 262144 + a.toNat * 2048 + i.toNat * 1)
  | .shrVi c d a i => some (301991424 + c.toNat * 2147483648 + d.toNat * 262144 + a.toNat * 2048 + i.toNat * 1)
  | .iaddP16 c d a b => some (335544320 + c.toNat * 2147483648 + d.toNat * 262144 + a.toNat * 2048 + b.toNat * 16)
  | .isubP16 c d a b => some (335544321 + c.toNat * 2147483648 + d.toNat * 262144 + a.toNat * 2048 + b.toNat * 16)
  | .iaddsP16 c d a b => some (335544322 + c.toNat * 2147483648 + d.toNat * 262144 + a.toNat * 2048 + b.toNat * 16)
  | .isubsP16 c d a b => some (335544323 + c.toNat * 2147483648 + d.toNat * 262144 + a.toNat * 2048 + b.toNat * 16)
  | .imaxP16 c d a b => some (335544324 + c.toNat * 2147483648 + d.toNat * 262144 + a.toNat * 2048 + b.toNat * 16)
  | .iminP16 c d a b => some (335544325 + c.toNat * 2147483648 + d.toNat * 262144 + a.toNat * 2048 + b.toNat * 16)
  | .cmpvGtP16 c d a b => some (335544326 + c.toNat * 2147483648 + d.toNat * 262144 + a.toNat * 2048 + b.toNat * 16)
  | .iaddP8 c d a b => some (335544327 + c.toNat * 2147483648 + d.toNat * 262144 + a.toNat * 2048 + b.toNat * 16)
  | .isubP8 c d a b => some (335544328 + c.toNat * 2147483648 + d.toNat * 262144 + a.toNat * 2048 + b.toNat * 16)
  | .iaddsUP8 c d a b => some (335544329 + c.toNat * 2147483648 + d.toNat * 262144 + a.toNat * 2048 + b.toNat * 16)
  | .imaxUP8 c d a b => some (335544330 + c.toNat * 2147483648 + d.toNat * 262144 + a.toNat * 2048 + b.toNat * 16)
  | .iminUP8 c d a b => some (335544331 + c.toNat * 2147483648 + d.toNat * 262144 + a.toNat * 2048 + b.toNat * 16)
  | .permb c d a b => some (335544332 + c.toNat * 2147483648 + d.toNat * 262144 + a.toNat * 2048 + b.toNat * 16)
  | .pack16 c d a b => some (335544333 + c.toNat * 2147483648 + d.toNat * 262144 + a.toNat * 2048 + b.toNat * 16)
  | .unpk16Lo c d a b => some (335544334 + c.toNat * 2147483648 + d.toNat * 262144 + a.toNat * 2048 + b.toNat * 16)
  | .unpk16Hi c d a b => some (335544335 + c.toNat * 2147483648 + d.toNat * 262144 + a.toNat * 2048 + b.toNat * 16)
  | .li c d i => some (369098752 + c.toNat * 2147483648 + d.toNat * 262144 + i.toNat * 1)
  | .sel c d a b k => some (402653184 + c.toNat * 2147483648 + d.toNat * 262144 + a.toNat * 2048 + b.toNat * 16 + k.toNat * 1)
  | .bcast c d s => some (436207616 + c.toNat * 2147483648 + d.toNat * 262144 + s.toNat * 32)
  | .iaddVs c d a s => some (436207617 + c.toNat * 2147483648 + d.toNat * 262144 + a.toNat * 2048 + s.toNat * 32)
  | .imulVs c d a s => some (436207618 + c.toNat * 2147483648 + d.toNat * 262144 + a.toNat * 2048 + s.toNat * 32)
  | .faddVs c d a s => some (436207619 + c.toNat * 2147483648 + d.toNat * 262144 + a.toNat * 2048 + s.toNat * 32)
  | .fmulVs c d a s => some (436207620 + c.toNat * 2147483648 + d.toNat * 262144 + a.toNat * 2048 + s.toNat * 32)
  | .ffmaVs c d a s => some (436207621 + c.toNat * 2147483648 + d.toNat * 262144 + a.toNat * 2048 + s.toNat * 32)
  | .laneid c d s => some (436207622 + c.toNat * 2147483648 + d.toNat * 262144 + s.toNat * 32)
  | .rand c d s => some (436207623 + c.toNat * 2147483648 + d.toNat * 262144 + s.toNat * 32)
  | .samp c d a s => some (436207624 + c.toNat * 2147483648 + d.toNat * 262144 + a.toNat * 2048 + s.toNat * 32)
  | .rdlane c d a s => some (469762048 + c.toNat * 2147483648 + d.toNat * 524288 + a.toNat * 4096 + s.toNat * 64)
  | .popc c d a => some (503316480 + c.toNat * 2147483648 + d.toNat * 262144 + a.toNat * 2048)
  | .clz c d a => some (503316481 + c.toNat * 2147483648 + d.toNat * 262144 + a.toNat * 2048)
  | .fadd c d a b => some (536870912 + c.toNat * 2147483648 + d.toNat * 262144 + a.toNat * 2048 + b.toNat * 16)
  | .fsub c d a b => some (536870913 + c.toNat * 2147483648 + d.toNat * 262144 + a.toNat * 2048 + b.toNat * 16)
  | .fmul c d a b => some (536870914 + c.toNat * 2147483648 + d.toNat * 262144 + a.toNat * 2048 + b.toNat * 16)
  | .ffma c d a b => some (536870915 + c.toNat * 2147483648 + d.toNat * 262144 + a.toNat * 2048 + b.toNat * 16)
  | .ffms c d a b => some (536870916 + c.toNat * 2147483648 + d.toNat * 262144 + a.toNat * 2048 + b.toNat * 16)
  | .fnfma c d a b => some (536870917 + c.toNat * 2147483648 + d.toNat * 262144 + a.toNat * 2048 + b.toNat * 16)
  | .fmin c d a b => some (536870918 + c.toNat * 2147483648 + d.toNat * 262144 + a.toNat * 2048 + b.toNat * 16)
  | .fmax c d a b => some (536870919 + c.toNat * 2147483648 + d.toNat * 262144 + a.toNat * 2048 + b.toNat * 16)
  | .fminn c d a b => some (536870920 + c.toNat * 2147483648 + d.toNat * 262144 + a.toNat * 2048 + b.toNat * 16)
  | .fmaxn c d a b => some (536870921 + c.toNat * 2147483648 + d.toNat * 262144 + a.toNat * 2048 + b.toNat * 16)
  | .fabs c d a => some (536870922 + c.toNat * 2147483648 + d.toNat * 262144 + a.toNat * 2048)
  | .fneg c d a => some (536870923 + c.toNat * 2147483648 + d.toNat * 262144 + a.toNat * 2048)
  | .fcps c d a b => some (536870924 + c.toNat * 2147483648 + d.toNat * 262144 + a.toNat * 2048 + b.toNat * 16)
  | .twosum c d a b => some (536870925 + c.toNat * 2147483648 + d.toNat * 262144 + a.toNat * 2048 + b.toNat * 16)
  | .twoprod c d a b => some (536870926 + c.toNat * 2147483648 + d.toNat * 262144 + a.toNat * 2048 + b.toNat * 16)
  | .fclass c d a => some (536870927 + c.toNat * 2147483648 + d.toNat * 262144 + a.toNat * 2048)
  | .cmp c k a b o t => some (570425344 + c.toNat * 2147483648 + k.toNat * 2097152 + a.toNat * 16384 + b.toNat * 128 + o.toNat * 8 + t.toNat * 1)
  | .faddB2 c d a b => some (603979776 + c.toNat * 2147483648 + d.toNat * 262144 + a.toNat * 2048 + b.toNat * 16)
  | .fmulB2 c d a b => some (603979777 + c.toNat * 2147483648 + d.toNat * 262144 + a.toNat * 2048 + b.toNat * 16)
  | .ffmaB2 c d a b => some (603979778 + c.toNat * 2147483648 + d.toNat * 262144 + a.toNat * 2048 + b.toNat * 16)
  | .fmaxB2 c d a b => some (603979779 + c.toNat * 2147483648 + d.toNat * 262144 + a.toNat * 2048 + b.toNat * 16)
  | .fminB2 c d a b => some (603979780 + c.toNat * 2147483648 + d.toNat * 262144 + a.toNat * 2048 + b.toNat * 16)
  | .faddH2 c d a b => some (603979781 + c.toNat * 2147483648 + d.toNat * 262144 + a.toNat * 2048 + b.toNat * 16)
  | .fmulH2 c d a b => some (603979782 + c.toNat * 2147483648 + d.toNat * 262144 + a.toNat * 2048 + b.toNat * 16)
  | .ffmaH2 c d a b => some (603979783 + c.toNat * 2147483648 + d.toNat * 262144 + a.toNat * 2048 + b.toNat * 16)
  | .fmaxH2 c d a b => some (603979784 + c.toNat * 2147483648 + d.toNat * 262144 + a.toNat * 2048 + b.toNat * 16)
  | .fminH2 c d a b => some (603979785 + c.toNat * 2147483648 + d.toNat * 262144 + a.toNat * 2048 + b.toNat * 16)
  | .cbx c d a i => some (637534208 + c.toNat * 2147483648 + d.toNat * 262144 + a.toNat * 2048 + i.toNat * 1)
  | .cbnear c d a i => some (637534720 + c.toNat * 2147483648 + d.toNat * 262144 + a.toNat * 2048 + i.toNat * 1)
  | .cbld c a i => some (637535232 + c.toNat * 2147483648 + a.toNat * 2048 + i.toNat * 1)
  | .cvt c d a o r s => some (671088640 + c.toNat * 2147483648 + d.toNat * 262144 + a.toNat * 2048 + o.toNat * 64 + r.toNat * 8 + s.toNat * 4)
  | .rcps c d a => some (704643072 + c.toNat * 2147483648 + d.toNat * 262144 + a.toNat * 2048)
  | .rsqs c d a => some (704643073 + c.toNat * 2147483648 + d.toNat * 262144 + a.toNat * 2048)
  | .exp2 c d a => some (704643074 + c.toNat * 2147483648 + d.toNat * 262144 + a.toNat * 2048)
  | .log2 c d a => some (704643075 + c.toNat * 2147483648 + d.toNat * 262144 + a.toNat * 2048)
  | .tanh c d a => some (704643076 + c.toNat * 2147483648 + d.toNat * 262144 + a.toNat * 2048)
  | .qswap c d a i => some (738197504 + c.toNat * 2147483648 + d.toNat * 262144 + a.toNat * 2048 + i.toNat * 1)
  | .qbc c d a i => some (738198016 + c.toNat * 2147483648 + d.toNat * 262144 + a.toNat * 2048 + i.toNat * 1)
  | .qred c d a i => some (738198528 + c.toNat * 2147483648 + d.toNat * 262144 + a.toNat * 2048 + i.toNat * 1)
  | .qfill c => some (738199040 + c.toNat * 2147483648)
  | .shflAt c d a s => some (771751936 + c.toNat * 2147483648 + d.toNat * 262144 + a.toNat * 2048 + s.toNat * 32)
  | .shflRot c d a s => some (771751937 + c.toNat * 2147483648 + d.toNat * 262144 + a.toNat * 2048 + s.toNat * 32)
  | .shflShift c d a s => some (771751938 + c.toNat * 2147483648 + d.toNat * 262144 + a.toNat * 2048 + s.toNat * 32)
  | .shflMirr c d a s => some (771751939 + c.toNat * 2147483648 + d.toNat * 262144 + a.toNat * 2048 + s.toNat * 32)
  | .redAddI c d a => some (805306368 + c.toNat * 2147483648 + d.toNat * 262144 + a.toNat * 2048)
  | .redAddF c d a => some (805306369 + c.toNat * 2147483648 + d.toNat * 262144 + a.toNat * 2048)
  | .redMaxF c d a => some (805306370 + c.toNat * 2147483648 + d.toNat * 262144 + a.toNat * 2048)
  | .redMinF c d a => some (805306371 + c.toNat * 2147483648 + d.toNat * 262144 + a.toNat * 2048)
  | .redMaxI c d a => some (805306372 + c.toNat * 2147483648 + d.toNat * 262144 + a.toNat * 2048)
  | .redMinI c d a => some (805306373 + c.toNat * 2147483648 + d.toNat * 262144 + a.toNat * 2048)
  | .redMaxixF c d a b => some (805306374 + c.toNat * 2147483648 + d.toNat * 262144 + a.toNat * 2048 + b.toNat * 16)
  | .redMinixF c d a b => some (805306375 + c.toNat * 2147483648 + d.toNat * 262144 + a.toNat * 2048 + b.toNat * 16)
  | .scanAddI c d a => some (805306376 + c.toNat * 2147483648 + d.toNat * 262144 + a.toNat * 2048)
  | .scanAddF c d a => some (805306377 + c.toNat * 2147483648 + d.toNat * 262144 + a.toNat * 2048)
  | .shflVar c d a b => some (805306378 + c.toNat * 2147483648 + d.toNat * 262144 + a.toNat * 2048 + b.toNat * 16)
  | .redMaxixH c d a b => some (805306379 + c.toNat * 2147483648 + d.toNat * 262144 + a.toNat * 2048 + b.toNat * 16)
  | .ballot c d a => some (838860800 + c.toNat * 2147483648 + d.toNat * 262144 + a.toNat * 16384)
  | .kany c a k => some (838860928 + c.toNat * 2147483648 + a.toNat * 16384 + k.toNat * 1024)
  | .kall c a k => some (838861056 + c.toNat * 2147483648 + a.toNat * 16384 + k.toNat * 1024)
  | .kpop c a k => some (838861184 + c.toNat * 2147483648 + a.toNat * 16384 + k.toNat * 1024)
  | .krank c d a => some (838861312 + c.toNat * 2147483648 + d.toNat * 262144 + a.toNat * 16384)
  | .kand c k a b => some (872415232 + c.toNat * 2147483648 + k.toNat * 2097152 + a.toNat * 131072 + b.toNat * 8192)
  | .kor c k a b => some (872415744 + c.toNat * 2147483648 + k.toNat * 2097152 + a.toNat * 131072 + b.toNat * 8192)
  | .kxor c k a b => some (872416256 + c.toNat * 2147483648 + k.toNat * 2097152 + a.toNat * 131072 + b.toNat * 8192)
  | .kandn c k a b => some (872416768 + c.toNat * 2147483648 + k.toNat * 2097152 + a.toNat * 131072 + b.toNat * 8192)
  | .knot c k a => some (872417280 + c.toNat * 2147483648 + k.toNat * 2097152 + a.toNat * 131072)
  | .kmov c k a => some (872417792 + c.toNat * 2147483648 + k.toNat * 2097152 + a.toNat * 131072)
  | .kset c k => some (872418304 + c.toNat * 2147483648 + k.toNat * 2097152)
  | .kclr c k => some (872418816 + c.toNat * 2147483648 + k.toNat * 2097152)
  | .kfromv c k v => some (872419328 + c.toNat * 2147483648 + k.toNat * 2097152 + v.toNat * 4)
  | .kbit c k a n => some (905969664 + c.toNat * 2147483648 + k.toNat * 2097152 + a.toNat * 16384 + n.toNat * 512)
  | .ifK k o => some (939524096 + k.toNat * 2097152 + o.toNat * 1)
  | .elseK o => some (939786240 + o.toNat * 1)
  | .endIf c => some (940048384 + c.toNat * 2147483648)
  | .brkIf c k o => some (940310528 + c.toNat * 2147483648 + k.toNat * 2097152 + o.toNat * 1)
  | .loop c o => some (940572672 + c.toNat * 2147483648 + o.toNat * 1)
  | .endLp o => some (940834816 + o.toNat * 1)
  | .regrp v o => some (941096960 + v.toNat * 2097152 + o.toNat * 1)
  | .endrg => some (941096960)
  | .bra o => some (973078528 + o.toNat * 1)
  | .brc k s o => some (973078528 + k.toNat * 2097152 + s.toNat * 32768 + o.toNat * 1)
  | .call o => some (1006632960 + o.toNat * 1)
  | .callr s => some (1010827264 + s.toNat * 65536)
  | .ret => some (1015021568)
  | .jmpr s => some (1019215872 + s.toNat * 65536)
  | .ldVector c d b i z p => some (1073741824 + c.toNat * 2147483648 + d.toNat * 262144 + b.toNat * 4096 + i.toNat * 32 + z.toNat * 8 + p.toNat * 1)
  | .stVector c d b i z p => some (1107296256 + c.toNat * 2147483648 + d.toNat * 262144 + b.toNat * 4096 + i.toNat * 32 + z.toNat * 8 + p.toNat * 1)
  | .ldl c d b i z => some (1140850688 + c.toNat * 2147483648 + d.toNat * 262144 + b.toNat * 4096 + i.toNat * 32 + z.toNat * 8)
  | .stl c d b i z => some (1174405120 + c.toNat * 2147483648 + d.toNat * 262144 + b.toNat * 4096 + i.toNat * 32 + z.toNat * 8)
  | .ldt c d t i => some (1207959552 + c.toNat * 2147483648 + d.toNat * 262144 + t.toNat * 4096 + i.toNat * 32)
  | .stt c d t i => some (1241513984 + c.toNat * 2147483648 + d.toNat * 262144 + t.toNat * 4096 + i.toNat * 32)
  | .atom c d a o e s => some (1275068416 + c.toNat * 2147483648 + d.toNat * 262144 + a.toNat * 2048 + o.toNat * 128 + e.toNat * 32 + s.toNat * 4)
  | .lmon c a s => some (1308622848 + c.toNat * 2147483648 + a.toNat * 16384 + s.toNat * 256)
  | .waitm a s => some (1310720000 + a.toNat * 16384 + s.toNat * 256)
  | .fence c k s => some (1342177280 + c.toNat * 2147483648 + k.toNat * 4194304 + s.toNat * 524288)
  | .lpub c s x => some (1375731712 + c.toNat * 2147483648 + s.toNat * 524288 + x.toNat * 8192)
  | .lmark c s x => some (1379926016 + c.toNat * 2147483648 + s.toNat * 524288 + x.toNat * 8192)
  | .lacq c s x y => some (1384120320 + c.toNat * 2147483648 + s.toNat * 524288 + x.toNat * 8192 + y.toNat * 128)
  | .binit c b s => some (1409286144 + c.toNat * 2147483648 + b.toNat * 2097152 + s.toNat * 4096)
  | .barr c b s => some (1409548288 + c.toNat * 2147483648 + b.toNat * 2097152 + s.toNat * 4096)
  | .bwait b s => some (1409810432 + b.toNat * 2097152 + s.toNat * 4096)
  | .barw b s => some (1410072576 + b.toNat * 2097152 + s.toNat * 4096)
  | .bphase c b s => some (1410334720 + c.toNat * 2147483648 + b.toNat * 2097152 + s.toNat * 4096)
  | .bexp c b s => some (1410596864 + c.toNat * 2147483648 + b.toNat * 2097152 + s.toNat * 4096)
  | .tdef c t s => some (1442840576 + c.toNat * 2147483648 + t.toNat * 524288 + s.toNat * 1024)
  | .tacq c t => some (1442906112 + c.toNat * 2147483648 + t.toNat * 524288)
  | .trdy c t => some (1442971648 + c.toNat * 2147483648 + t.toNat * 524288)
  | .trel c t => some (1443037184 + c.toNat * 2147483648 + t.toNat * 524288)
  | .tstat c t s => some (1443102720 + c.toNat * 2147483648 + t.toNat * 524288 + s.toNat * 1024)
  | .thand c s => some (1443168256 + c.toNat * 2147483648 + s.toNat * 1024)
  | .tadopt c s => some (1443233792 + c.toNat * 2147483648 + s.toNat * 1024)
  | .cpyG2t c x y z b => some (1476395008 + c.toNat * 2147483648 + x.toNat * 65536 + y.toNat * 1024 + z.toNat * 16 + b.toNat * 1)
  | .cpyT2g c x y z b => some (1480589312 + c.toNat * 2147483648 + x.toNat * 65536 + y.toNat * 1024 + z.toNat * 16 + b.toNat * 1)
  | .cpyL2l c x y z b => some (1484783616 + c.toNat * 2147483648 + x.toNat * 65536 + y.toNat * 1024 + z.toNat * 16 + b.toNat * 1)
  | .cpyG2g c x y z b => some (1488977920 + c.toNat * 2147483648 + x.toNat * 65536 + y.toNat * 1024 + z.toNat * 16 + b.toNat * 1)
  | .cpyG2l c x y z b => some (1493172224 + c.toNat * 2147483648 + x.toNat * 65536 + y.toNat * 1024 + z.toNat * 16 + b.toNat * 1)
  | .cpyL2g c x y z b => some (1497366528 + c.toNat * 2147483648 + x.toNat * 65536 + y.toNat * 1024 + z.toNat * 16 + b.toNat * 1)
  | .gather c x y z b => some (1501560832 + c.toNat * 2147483648 + x.toNat * 65536 + y.toNat * 1024 + z.toNat * 16 + b.toNat * 1)
  | .mldwTile c t n => some (1509949440 + c.toNat * 2147483648 + t.toNat * 65536 + n.toNat * 16384)
  | .mldwHandle c p n => some (1509982208 + c.toNat * 2147483648 + p.toNat * 65536 + n.toNat * 16384)
  | .mma c t g s n a => some (1514143744 + c.toNat * 2147483648 + t.toNat * 65536 + g.toNat * 8192 + s.toNat * 128 + n.toNat * 64 + a.toNat * 32)
  | .mz c s n => some (1518338048 + c.toNat * 2147483648 + s.toNat * 65536 + n.toNat * 1024)
  | .mdrn c s => some (1522532352 + c.toNat * 2147483648 + s.toNat * 65536)
  | .mrst c s => some (1526726656 + c.toNat * 2147483648 + s.toNat * 65536)
  | .mrel c => some (1530920960 + c.toNat * 2147483648)
  | .accrd c d a b => some (1543503872 + c.toNat * 2147483648 + d.toNat * 262144 + a.toNat * 4096 + b.toNat * 64)
  | .accrdF c d a b => some (1543503880 + c.toNat * 2147483648 + d.toNat * 262144 + a.toNat * 4096 + b.toNat * 64)
  | .accwr c d a b => some (1543503888 + c.toNat * 2147483648 + d.toNat * 262144 + a.toNat * 4096 + b.toNat * 64)
  | .accwrF c d a b => some (1543503896 + c.toNat * 2147483648 + d.toNat * 262144 + a.toNat * 4096 + b.toNat * 64)
  | .put c x y z b => some (1577058304 + c.toNat * 2147483648 + x.toNat * 65536 + y.toNat * 1024 + z.toNat * 16 + b.toNat * 1)
  | .puts c x y z b => some (1581252608 + c.toNat * 2147483648 + x.toNat * 65536 + y.toNat * 1024 + z.toNat * 16 + b.toNat * 1)
  | .get c x y z b => some (1585446912 + c.toNat * 2147483648 + x.toNat * 65536 + y.toNat * 1024 + z.toNat * 16 + b.toNat * 1)
  | .csend c x y z b => some (1589641216 + c.toNat * 2147483648 + x.toNat * 65536 + y.toNat * 1024 + z.toNat * 16 + b.toNat * 1)
  | .rsig c x y z b => some (1593835520 + c.toNat * 2147483648 + x.toNat * 65536 + y.toNat * 1024 + z.toNat * 16 + b.toNat * 1)
  | .spawn c x y z b => some (1610612736 + c.toNat * 2147483648 + x.toNat * 65536 + y.toNat * 1024 + z.toNat * 16 + b.toNat * 1)
  | .hpass c x y z b => some (1614807040 + c.toNat * 2147483648 + x.toNat * 65536 + y.toNat * 1024 + z.toNat * 16 + b.toNat * 1)
  | .getx c s x => some (1644167168 + c.toNat * 2147483648 + s.toNat * 524288 + x.toNat * 256)
  | .setx c s x => some (1644167200 + c.toNat * 2147483648 + s.toNat * 524288 + x.toNat * 256)
  | .sysc i => some (1677721600 + i.toNat * 1)
  | .rett => some (1681915904)
  | .hcall i => some (1686110208 + i.toNat * 1)
  | .tlbi c a => some (1690304512 + c.toNat * 2147483648 + a.toNat * 65536)
  | .tlbiAll c => some (1690337280 + c.toNat * 2147483648)
  | .dict c h w i x j => some (2113929216 + c.toNat * 2147483648 + h.toNat * 16777216 + w.toNat * 4194304 + i.toNat * 4096 + x.toNat * 1024 + j.toNat * 1)
  | .runStart _ _ => none
  | .teamPromote _ => none
  | .operationComplete _ _ => none
  | .walkComplete _ _ _ => none
  | .trapEntry _ => none
  | .regionRollback _ => none
  | .ladleGrant _ => none
  | .regrpForm _ => none
  | .endrgReturn _ => none
  | .teamWake _ => none
  | .teamEnd _ => none
  | .blockEnd _ => none
  | .budgetOut _ => none
  | .fold _ => none
  | .rebase => none
  | .engineCommandIssue _ => none
  | .copyUnit _ _ => none
  | .copyComplete _ => none
  | .reservationGrant _ => none
  | .reservationRetire _ _ => none
  | .reservationPromote _ _ => none
  | .packetSend _ => none
  | .flitReceive _ _ _ _ _ _ => none
  | .linkRetrain _ => none
  | .putDataPacket _ _ => none
  | .putsDataPacket _ _ => none
  | .signalPacket _ _ => none
  | .getRequestPacket _ _ => none
  | .getResponsePacket _ _ _ => none
  | .collectiveChunk _ _ => none
  | .ackPacket _ _ => none
  | .nackPacket _ _ _ => none
  | .controlPacket _ _ => none
  | .retransmit _ => none
  | .watchdog _ => none
  | .coreOffer _ => none
  | .carveChange _ => none
  | .governorEvaluate => none
  | .sliceBoundary _ => none
  | .classUpdate => none
  | .evictionCheck => none
  | .blockEvict _ => none
  | .blockResume _ _ => none
  | .fallback _ _ => none
  | .spawnAccept => none
  | .passRecord => none
  | .monitorSpuriousWake _ => none
  | .lanemapApply _ => none
  | .stopTimeout _ => none
  | .load _ => none
  | .start => none
  | .signalArrival => none
  | .signalWord => none
  | .stop => none
  | .reset => none
  | .ckpt => none
  | .restore => none
  | .setseed => none
  | .queryIdent => none
  | .queryHealth => none
  | .queryAttest => none
  | .queryEvents => none
  | .queryCapture => none
  | .badcmd => none
  | .cqheadWrite _ => none
  | .registerWrite _ _ _ => none
  | .hostApertureWrite _ _ => none
  | .hostApertureRead _ _ _ => none
  | .debugEnableWrite _ => none
  | .meas7Write _ => none
  | .imageKeyWrite _ _ => none
  | .firmwareImageWrite _ => none
  | .edgeViewPass => none
  | .coldStart => none
  | .warmResetPin => none
  | .powerLoss => none
  | .monitorSample _ _ _ _ _ => none
  | .clockStepUp => none
  | .eccError _ _ _ _ => none
  | .stackLost _ => none
  | .hbmScrub => none
  | .eventRecord => none
  | .ringWrite => none
  | .ringHeaderWrite => none
  | .sample _ _ => none
  | .ckptComplete => none
  | .restoreComplete => none
  | .l2SectorEvict _ => none
  | .l1LineEvict _ _ => none
  | .ptpMessage _ => none

/-- The bytes of an instruction, lowest address first; none for an event. -/
def encode (i : Instr) : List (BitVec 8) :=
  match encodeWord i with
  | some w => bytesOfWord w
  | none => []


end Sys2Proof
end

