-- ==== Sys2Proof/Config.lean ====
section
/-! DEFINITION. What an implementation fixes or the manual leaves open. An `opaque` constant has no body a proof can see:
a statement holds whatever its value. -/

namespace Sys2Proof.Config

/-- R67, R110, R128, R166: where the manual leaves a value unspecified between an old and a new one, which of the two
is taken. The first argument is the state's free-value counter, the second names the element. Log entry 2. -/
opaque pickNew : Nat → Nat → Bool

/-- A value the manual does not state (log entry 2): drawn with the free-value counter and a place. -/
opaque freeWord : Nat → Nat → Word

/-- Nanoseconds of device time that pass with one step (R2: times are nominal). Log entry 3. -/
opaque elapsedNs : Nat → Nat

/-- Cycles of the arithmetic clock that pass with one step (R2). Log entry 3. -/
opaque elapsedCycles : Nat → Nat

/-- Sixteenths of a nanosecond that pass with one step beside them (R246, R249). Log entry 3. -/
opaque fraction : Nat → BitVec 4

/-- SLH-DSA verification with the SHA2-192s set of FIPS 205, which the manual names and does not give (R26, R29, R34):
public key, message and signature. Log entry 4. -/
opaque slhVerify : List Byte → List Byte → List Byte → Bool

/-- SLH-DSA signing by the identity key, whose private seeds never leave the hub die (R34, R36). Log entry 4. -/
opaque slhSign : List Byte → List Byte

/-- The identity public key of the module, 48 bytes (R34). Log entry 4. -/
opaque identityKey : List Byte

/-- Amitre's manufacturing certificate over the identity key (R34). Log entry 4. -/
opaque certificate : List Byte

/-- The key that Amitre signs firmware images with, whose hash is fused (R34). Log entry 4. -/
opaque firmwareKey : List Byte

/-- The anti-rollback check of a firmware image against the fused counter, which the manual does not give (R27). Log entry 4. -/
opaque rollbackOk : List Byte → Bool

/-- The range of a rail in mV, which the manual does not give (R32). Log entry 4. -/
opaque railRange : Nat → Nat × Nat

/-- The digest measured into MEAS0, MEAS2 and MEAS3 at start-up: stage-one code, configuration block and fuse image of the module at hand
(R35). Log entry 4. -/
opaque bootDigest : Nat → List Byte

/-- The firmware image the module is shipped with (R27, R29). Log entry 4. -/
opaque shippedFirmware : List Byte

/-- The reading of a cluster's process monitor at step 3 of a start-up, whose unit the manual does not give (R31). Log entry 4. -/
opaque processReading : Nat → Nat → Nat

/-- The voltage of a die in mV for the arithmetic clock, from the readings of its process monitors (R31). Log entry 4. -/
opaque dieVoltage : Nat → List Nat → Nat

/-- The firmware minor version, which R1 leaves to the module. Log entry 4. -/
opaque firmwareMinor : BitVec 8

/-- The firmware major version of R1. -/
def firmwareMajor : Nat := 3

/-- Whether firmware is configured to turn a `DOUBLE` in H into a warm reset (R28, R218). Log entry 4. -/
opaque doubleResets : Bool

/-- Whether a stack trains at the start-up that begins at a value of the free-value counter (R27, R285). Log entry 4. -/
opaque stackTrains : Nat → Nat → Bool

/-- XLANEMAP as the fuses give it for a core: no lane steered past (R94). Log entry 5. -/
def fusedLaneMap (_core : Nat) : Word := 0x3F3F#32

/-- XROWMAP as the fuses give it for a cluster: no row disabled (R94). Log entry 5. -/
def fusedRowMap (_cluster : Nat) : Word := 0xFFFFFFFF#32

/-- SECDED check bits of a log entry, and the reserved bits beside them (R144). Log entry 16. -/
opaque logEcc : Nat → BitVec 128

end Sys2Proof.Config
end

