-- ==== Sys2Proof/Machine/Sparse.lean ====
section
/-! DEFINITION. The two keyed stores the state is made of. A `Sparse` store is total: an address it does not list reads
as a default, and no listed entry equals that default, so equal contents are equal lists. A `Table` holds records under
numbers. Both are plain lists, addresses strictly rising. -/

namespace Sys2Proof.Machine

/-- A store whose unlisted addresses read as a default. -/
abbrev Sparse (α : Type) := List (Nat × α)

/-- Records under numbers. -/
abbrev Table (α : Type) := List (Nat × α)

/-- Read an address; an unlisted one reads `d`. -/
def Sparse.get {α : Type} (d : α) : Sparse α → Nat → α
  | [], _ => d
  | (k, v) :: m, a => if a = k then v else Sparse.get d m a

/-- List `v` at address `a`, in rising order. -/
def Sparse.put {α : Type} : Sparse α → Nat → α → Sparse α
  | [], a, v => [(a, v)]
  | (k, w) :: m, a, v =>
    if a < k then (a, v) :: (k, w) :: m
    else if a = k then (a, v) :: m
    else (k, w) :: Sparse.put m a v

/-- Unlist address `a`. -/
def Sparse.drop {α : Type} : Sparse α → Nat → Sparse α
  | [], _ => []
  | (k, w) :: m, a => if k = a then Sparse.drop m a else (k, w) :: Sparse.drop m a

/-- Write an address. Writing the default unlists the address. -/
def Sparse.set {α : Type} [DecidableEq α] (d : α) (m : Sparse α) (a : Nat) (v : α) : Sparse α :=
  if v = d then Sparse.drop m a else Sparse.put m a v

/-- Every listed address is above `lo`, the addresses rise strictly, and no entry is the default. -/
def Sparse.wfFrom {α : Type} [DecidableEq α] (d : α) : Nat → Sparse α → Bool
  | _, [] => true
  | lo, (k, v) :: m => decide (lo ≤ k) && decide (v ≠ d) && Sparse.wfFrom d (k + 1) m

/-- The canonical form: addresses strictly rising, no entry equal to what an unlisted address reads as. -/
def Sparse.wf {α : Type} [DecidableEq α] (d : α) (m : Sparse α) : Bool := Sparse.wfFrom d 0 m

/-- Write `f k` at `key k` for each `k` of a list, in order. -/
def Sparse.setAll {α : Type} [DecidableEq α] (d : α) (m : Sparse α) (key : Nat → Nat) (f : Nat → α) :
    List Nat → Sparse α
  | [] => m
  | k :: ks => Sparse.setAll d (Sparse.set d m (key k) (f k)) key f ks

/-- Look a record up. -/
def Table.find {α : Type} : Table α → Nat → Option α
  | [], _ => none
  | (k, v) :: m, a => if a = k then some v else Table.find m a

/-- Store a record under a number. -/
def Table.put {α : Type} (m : Table α) (a : Nat) (v : α) : Table α := Sparse.put m a v

/-- Remove a record. -/
def Table.drop {α : Type} (m : Table α) (a : Nat) : Table α := Sparse.drop m a

/-- The numbers that have a record. -/
def Table.keys {α : Type} (m : Table α) : List Nat := m.map (·.1)

/-- Change a record if it is there. -/
def Table.update {α : Type} (m : Table α) (a : Nat) (f : α → α) : Table α :=
  match Table.find m a with
  | some v => Table.put m a (f v)
  | none => m

/-- The least number at or above `n` with no record, looking at most `fuel` numbers on. -/
def Table.freshFrom {α : Type} (m : Table α) (n : Nat) : Nat → Nat
  | 0 => n
  | fuel + 1 => if (Table.find m n).isSome then Table.freshFrom m (n + 1) fuel else n

end Sys2Proof.Machine
end

