-- ==== Sys2Proof/Machine/State.lean ====
section
/-! DEFINITION. The state of the LX-960, everything the manual gives the machine, as plain data. Numbers the manual adds,
shifts or shows to software as words are bit vectors; counts, indexes, addresses and times are natural numbers. -/

namespace Sys2Proof.Machine

/-- Why the machine stops. -/
inductive Fault where
  /-- A team, an engine or the walker reached a physical address that is neither HBM (R283) nor the aperture of R127: the
  manual gives no such address. Raised by the memory operations of Machine/Memory.lean. Safe. -/
  | noSuchAddress (pa : Nat)
  deriving DecidableEq, Repr

/-- Why a step has no meaning. -/
inductive Refusal where
  /-- An instruction whose meaning is not written yet. Raised by Machine/Dispatch.lean only. Safe. -/
  | notModelled (mnemonic : String)
  deriving DecidableEq, Repr

/-! ### The team (R88) -/

/-- The privilege modes (R93). -/
inductive Mode where
  | u | s | h
  deriving DecidableEq, Repr

/-- The kinds of a mask-stack entry (R49). -/
inductive StackKind where
  | ifArm | elseArm | loopBody
  deriving DecidableEq, Repr

/-- An entry of the mask stack (R49): saved mask S, else mask E, kind. `sDiff` and `eDiff` are primary XOR shadow (R271). -/
structure StackEntry where
  saved : Mask
  other : Mask
  kind  : StackKind
  sDiff : Mask
  eDiff : Mask
  deriving DecidableEq, Repr

/-- The registers an instruction reads and writes at once in a chain (R62).
`v` is keyed 1024 × register + lane: registers 0–111 and the U bank at 112–119, `w0`–`w7` at 120–127, the S bank at 128–135
and the H bank at 136–143. `s` is keyed by register, banks of `s56`–`s63` at 64 + 8 × mode. `k` is keyed by register, banks
of `k14`–`k15` at 16 + 2 × mode. -/
structure Regs where
  v       : Sparse Word
  s       : Sparse Word
  k       : Sparse Mask
  /-- primary XOR shadow of each mask (R271, R279) -/
  kDiff   : Sparse Mask
  /-- poisoned elements, keyed as `v` and `s` (R271, R273) -/
  vPoison : Sparse Bool
  sPoison : Sparse Bool
  /-- the codebook table, 16 × BF16 (R88) -/
  cbt     : Sparse (BitVec 16)
  part    : BitVec 3
  fflags  : BitVec 5
  deriving DecidableEq, Repr

/-- What a lane traps with (R97–R99, R434): its cause code, `v119`, `v118:v117`, index in the run, the bits of `v116`. An index of 32
or more belongs to no instruction of the run: 32 for a cause from outside it, 64 for the code address it goes to. -/
structure LaneTrap where
  lanes  : Mask
  cause  : Nat
  detail : Word
  addr   : Nat
  index  : Nat
  fetch  : Bool
  parked : Bool
  /-- taken in H: a stage-two fault, or a cause of H (R97) -/
  inH    : Bool
  /-- bits 31:16 of XECAUSE (R94) -/
  imm    : BitVec 16
  deriving DecidableEq, Repr

/-- One instruction of a run in progress: its word with C clear, its code address (R435) and its chain bit. -/
structure RunItem where
  word  : Nat
  addr  : Nat
  chain : Bool
  deriving DecidableEq, Repr

/-- Why a run in progress holds (R65, R66, R84, R155). -/
inductive Hold where
  /-- the instruction has had no effect yet and is tried again -/
  | retry
  /-- the instruction has acted; the run goes on when the operation numbered so has completed -/
  | onOp (op : Nat)
  deriving DecidableEq, Repr

/-- A blocking point of R209 and R223 a team stands at. -/
inductive Wait where
  /-- `BWAIT`, `BARW`: register, phase awaited to end, and once it has ended the scope and bound of the acquire it owes -/
  | barrier (b : Nat) (phase : BitVec 8) (woken : Option (Nat × Nat))
  | grid
  /-- `WAITM`: virtual and physical address of the word, and the scalar it goes to -/
  | monitor (va pa sb : Nat)
  | spawn (queue : Nat)
  | get (cmd : Nat)
  /-- `REGRP`: code address of the target table, and one octal digit per lane, 1 + its target or 0; `ENDRG`: the
  fall-through address -/
  | regroup (endForm : Bool) (addr : Nat) (targets : Nat)
  deriving DecidableEq, Repr

/-- A run that has started and not ended (R45). -/
structure Run where
  start    : Nat
  setA     : Nat
  setB     : Nat
  items    : List RunItem
  /-- index of the next instruction (R435) -/
  index    : Nat
  /-- code address after the run's last packet (R59) -/
  through  : Nat
  /-- a transfer decided and taking effect at the end (R49) -/
  target   : Option Nat
  /-- the text base a `RETT` goes to, with `target` -/
  newText  : Option Nat
  /-- `QFILL` has acted (R55), and `QFILL` stands in the chain in progress (R378) -/
  helper   : Bool
  fills    : Bool
  /-- the lanes of T and their causes so far (R98) -/
  traps    : List LaneTrap
  /-- lanes that consumed poison, or mismatched signatures, in this run, with their causes (R273, R280) -/
  consumed : List LaneTrap
  hold     : Option Hold
  /-- a region opens (its id), closes, or advances at the end of this run (R274, R275, R388) -/
  opens    : Option (BitVec 20)
  closes   : Bool
  advances : Bool
  /-- lanes that exit at the end (R328) -/
  exits    : Mask
  yields   : Bool
  /-- the blocking point this run ends in -/
  blocks   : Option Wait
  /-- the word, index and address of the instruction now issuing -/
  item     : RunItem
  itemIdx  : Nat
  /-- the instruction before it in the run had its chain bit set (R61) -/
  inChain  : Bool
  /-- `SG` as the chain in progress reads it (R396) -/
  sgRead   : Word
  /-- `SG` and `LCLK` before the instruction now issuing, given back if it stalls -/
  sg0      : Word
  lclk0    : Nat
  /-- the mode the run issued in, and its sequence among the core's runs (R46) -/
  mode     : Mode
  order    : Nat
  deriving DecidableEq, Repr

/-- A captured access of the operand log (R211, R212). -/
structure Parked where
  word    : Nat
  status  : Nat
  /-- its entry of the operand log, 0–7 -/
  slot    : Nat
  flag    : Option Nat
  depth   : Nat
  pc      : Nat
  lclk    : Nat
  index   : Nat
  op      : Nat
  /-- pending lanes, with the 64-bit address and the captured operands of each -/
  pending : List (Nat × Nat × List Word)
  /-- faulted lanes: address, cause, detail, whether at stage two -/
  faulted : List (Nat × Nat × Nat × Word × Bool)
  /-- stalled for log room (R158) rather than for translation -/
  forRoom : Bool
  /-- already listed in a frame at this depth, awaiting `RETT` (R213) -/
  framed  : Bool
  /-- the mode of the access -/
  mode    : Mode
  /-- an `ATOM`'s: sectors touched so far, stamp and mark of its release part (R153, R300) -/
  sectors : List Nat
  stamp   : Nat
  mark    : Nat
  /-- re-issued by a `RETT`: a lane is performed as a new execution (R300) -/
  again   : Bool
  /-- the ladle's turn of its instruction goes on until it is performed or has faulted (R263) -/
  turn    : Bool
  deriving DecidableEq, Repr

/-- An operation counted or held for and not complete (R65, R66): what it writes when it completes. -/
structure Op where
  num    : Nat
  /-- register-writing, counted on SETA (R65) -/
  classA : Bool
  flag   : Option Nat
  depth  : Nat
  /-- vector elements to write, keyed as `Regs.v`, and whether the value is poisoned -/
  vDest  : List (Nat × Word × Bool)
  sDest  : List (Nat × Word × Bool)
  fflags : BitVec 5
  /-- destination elements the program wrote meanwhile (R67) -/
  dirty  : List Nat
  /-- completes by an event of its own (an engine, a reservation, a parked access, a publication) -/
  waits  : Bool
  /-- an engine's write through the aperture, open until this barrier of this block completes its phase (R128) -/
  till   : Option (Nat × Nat)
  index  : Nat
  pc     : Nat
  /-- the run that issued it has ended -/
  past   : Bool
  /-- the save area that `MDRN` writes or `MRST` reads: core, offset, and the bytes that `MDRN` found there (R369) -/
  area   : Option (Nat × Nat × List Byte)
  deriving DecidableEq, Repr

/-- The monitor of a team (R254, R363). -/
structure Monitor where
  armed    : Bool
  waiting  : Bool
  sector   : Nat
  armTime  : Nat
  waitTime : Nat
  written  : Bool
  deriving DecidableEq, Repr

/-- The checkpoint of an open region (R274). -/
structure Region where
  id      : BitVec 20
  mark    : Nat
  restart : Nat
  k0      : Mask
  stack   : List StackEntry
  s       : Sparse Word
  sg      : Word
  ldclk   : Nat
  /-- a rollback was made from this checkpoint (R277) -/
  rolled  : Bool
  /-- an entry of the team at or above the mark has been published (R276) -/
  leaked  : Bool
  deriving DecidableEq, Repr

/-- `DOUBLE` in force (R101): the cause not taken and the resume point it would have had. -/
structure DoubleState where
  cause  : Nat
  resume : Nat
  deriving DecidableEq, Repr

/-- Where a mode's `v112`–`v119` rest (R90). -/
inductive BankPlace where
  | unwritten | resident | inMemory
  deriving DecidableEq, Repr

/-- A team (R37, R88). -/
structure Team where
  /-- key of its block: 4 × core + slot -/
  block     : Nat
  /-- TEAM of R57, and the number in the block at launch -/
  number    : Nat
  words     : Nat
  /-- offset of its extent in the register file (R221) -/
  tbase     : Nat
  regs      : Regs
  /-- register values at the start of the chain in progress (R62) -/
  snap      : Option Regs
  /-- the operations outstanding at that start (R62, R67) -/
  snapOps   : List Op
  exited    : Mask
  /-- flags keyed 16 × depth + number (R88, R89) -/
  flags     : Sparse Nat
  stack     : List StackEntry
  sg        : Word
  lclk      : Nat
  pc        : Nat
  textBase  : Nat
  mode      : Mode
  depth     : Nat
  xtsp      : BitVec 64
  xhtsp     : BitVec 64
  double    : Option DoubleState
  bankS     : BankPlace
  bankH     : BankPlace
  run       : Option Run
  ops       : List Op
  nextOp    : Nat
  parked    : List Parked
  /-- traps to take before the next run (R171, R189, R208, R217, R238, R321) -/
  due       : List LaneTrap
  /-- latches of `GETS` keyed 2 × mode + (0 cycle, 1 time), of `GETX` keyed 4096 × mode + xid, and halves held by `SETX` -/
  clkLatch  : Table Word
  xLatch    : Table Word
  xHold     : Table Word
  wait      : Option Wait
  waitCause : Nat
  waitSince : Nat
  lastIssue : Nat
  passed    : Nat
  promoted  : Bool
  /-- the slots that have still to start another team's run before a team that yielded is chosen again (R416) -/
  yielded   : List Nat
  monitor   : Monitor
  region    : Option Region
  ldclk     : Nat
  phases    : Nat
  /-- wants the ladle from its stalled gated instruction on (R263) -/
  wants     : Bool
  /-- while regrouped: for each lane its home team and lane (R52) -/
  homes     : Table (Nat × Nat)
  /-- a rollback waits for the team's operations: the consuming lanes and their causes (R276) -/
  rolling   : List LaneTrap
  /-- a region that opens once the stores the team has issued are appended (R274) -/
  opening   : Option (BitVec 20)
  /-- arrived at `REGRP` with no lane for any target: it ends when it has taken the traps it owes (R385) -/
  ends      : Bool
  ended     : Bool
  deriving DecidableEq, Repr

/-! ### The block, the core and the cluster -/

/-- A tile table entry (R133). -/
structure Tile where
  d0    : Word
  d1    : Word
  d2    : Word
  d3    : Word
  eng   : Bool
  valid : Bool
  state : BitVec 2
  deriving DecidableEq, Repr

/-- A barrier register (R172). -/
structure Barrier where
  phase   : BitVec 8
  lfault  : Bool
  fault   : Bool
  teams   : Nat
  pend    : Nat
  ext     : Int
  arrt    : BitVec 16
  exited  : BitVec 16
  waiters : BitVec 16
  opened  : Nat
  oldest  : List Word
  /-- sequence fields of outstanding commands that OLDEST has no slot for, oldest first -/
  more    : List Word
  /-- bounds owed to observers of the open phase, and of each of the last 256 by its number: widest scope and greatest stamp (R174) -/
  openAcq : Nat × Nat
  acqs    : Table (Nat × Nat)
  /-- faults of commands counted in the open and in the last phase, as observers take them (R171, R238) -/
  openFlt : List LaneTrap
  lastFlt : List LaneTrap
  /-- the greatest LDCLK at issue of a command counted in the open phase, and LDCLK at arrival by team number (R264) -/
  cmdClk  : Nat
  clks    : Table Nat
  deriving DecidableEq, Repr

/-- A block on a core (R37, R39). -/
structure Block where
  launch   : Nat
  index    : Nat
  core     : Nat
  slot     : Nat
  base     : Nat
  size     : Nat
  accBase  : Nat
  accRows  : Nat
  vregs    : Nat
  lanes    : Nat
  nteams   : Nat
  dict     : List Nat
  tiles    : Table Tile
  barriers : Table Barrier
  grouped  : Bool
  /-- home teams while regrouped (R53) -/
  homes    : Table Team
  regrouped : Bool
  /-- being evicted (R219 step 1), stopped (R225) -/
  leaving  : Bool
  exited   : BitVec 16
  /-- the bound of the acquire that the block's first run starts with (R329) -/
  firstAcq : Option Nat
  deriving DecidableEq, Repr

/-- A store-log entry (R144). -/
structure LogEntry where
  ctx    : Nat
  pos    : Nat
  chunk  : Nat
  mask   : BitVec 32
  data   : BitVec 256
  pub    : Bool
  seg    : Nat
  tctx   : Nat
  eng    : Bool
  rgn    : Bool
  pois   : Bool
  spl    : Bool
  /-- the engine command that appended it (R162) -/
  cmd    : Option Nat
  /-- how L2 holds its sector once it is folded (R141) -/
  keep   : Nat
  /-- the evicted block in whose detached log it lies (R159); `tctx` is then the team's number -/
  det    : Option Nat
  /-- its positions in the logs of cores it lay on before (R157): core, position -/
  past   : List (Nat × Nat)
  deriving DecidableEq, Repr

/-- A published segment (R144, R148): tag and number of its context, and the positions of its entries, each with its core (R150, R157). -/
structure Segment where
  ctx   : Nat
  num   : Nat
  seg   : Nat
  stamp : Nat
  scope : Nat
  holds : List (Nat × Nat)
  deriving DecidableEq, Repr

/-- A context's part of a core's log control (R145). -/
structure CtxLog where
  ctx     : Nat
  tail    : Nat
  pubPos  : Nat
  ovfBase : BitVec 64
  deriving DecidableEq, Repr

/-- A held translation (R139). -/
structure TlbEntry where
  ctx   : Nat
  asid  : Nat
  /-- virtual page: base and bits of page size -/
  base  : Nat
  bits  : Nat
  pa    : Nat
  attr  : Nat
  wr    : Bool
  ex    : Bool
  ua    : Bool
  sh    : Bool
  /-- the stage-two permissions, apart, since they trap in H (R138) -/
  wr2   : Bool
  ex2   : Bool
  deriving DecidableEq, Repr

/-- A range lock (R169). -/
structure RangeLock where
  dst   : Bool
  isLocal : Bool
  /-- the core whose scratchpad a local range lies on -/
  home  : Nat
  ctx   : Nat
  slot  : Nat
  base  : Nat
  len   : Nat
  cid   : BitVec 64
  time  : Nat
  deriving DecidableEq, Repr

/-- A watch of the debug block (R216). -/
structure Watch where
  base : BitVec 64
  len  : Word
  kind : BitVec 8
  asid : BitVec 16
  deriving DecidableEq, Repr

/-- A hold slot (R205): the extent's size and the descriptors of the tiles it names. -/
structure HoldSlot where
  serial  : Nat
  extent  : Nat
  base    : Nat
  tiles   : List (Nat × List Word)
  launch  : Nat
  block   : Nat
  /-- when the issuing block exited (R207) -/
  exitAt  : Option Nat
  deriving DecidableEq, Repr

/-- A core (R37, R127). -/
structure Core where
  slotA    : Option Nat
  slotB    : Option Nat
  runs     : Nat
  scratch  : Sparse Byte
  scratchPoison : Sparse Bool
  acc      : Sparse (BitVec 64)
  accPoison : Sparse Bool
  /-- accumulator elements that an engine copy wrote through the aperture in a phase not completed: element, its other
  value, block and barrier of the phase (R295) -/
  accOpen  : List (Nat × BitVec 64 × Nat × Nat)
  /-- bytes of the window, by offset, that no resident block or team gives a meaning: free slots of the tile and barrier tables, free
  parts of the register file (R127) -/
  spare    : Sparse Byte
  carve    : Nat
  l1       : Table (List Byte)
  l1Poison : Sparse Bool
  /-- lines that are last to be replaced (R141) -/
  l1Keep   : Sparse Bool
  /-- in the order of appending, the detached logs of blocks evicted from here among them (R159) -/
  log      : List LogEntry
  ctxLogs  : Table CtxLog
  /-- TAIL of a context that has no tag here now (R145) -/
  tails    : Table Nat
  /-- the newest first -/
  segs     : List Segment
  nextSeg  : Nat
  counter  : Nat
  tlb      : List TlbEntry
  locks    : Table RangeLock
  steps    : Sparse Bool
  watches  : Table Watch
  lanemap  : Word
  newmap   : Option Word
  holds    : Table HoldSlot
  serial   : Nat
  /-- resident trap banks, oldest first: team key and whether of H (R90) -/
  banks    : List (Nat × Bool)
  /-- sequence counters of its units' CIDs: core, copy engine, fold engine (R247) -/
  cidCore  : Word
  cidCopy  : Word
  cidFold  : Word
  deriving DecidableEq, Repr

/-- A weight slot's content (R176): FMT code, 128 × 128 elements' raw codes, NPI scales as bytes, poison. -/
structure Weights where
  fmt    : Nat
  /-- the slot bytes as R192 lays them out -/
  bytes  : Sparse Byte
  poison : Bool
  deriving DecidableEq, Repr

/-- A reservation (R185, R193). -/
structure Reservation where
  word    : Nat
  core    : Nat
  block   : Nat
  team    : Nat
  number  : Nat
  cls     : Nat
  issued  : Nat
  order   : Nat
  cid     : BitVec 64
  flag    : Option Nat
  depth   : Nat
  /-- the operation counted for it; none for one not counted -/
  op      : Option Nat
  opA     : Nat
  opB     : Nat
  handle  : BitVec 64
  mask    : Mask
  desc    : List Word
  /-- for `ACCWR`: captured register pairs by lane; vd for the reads -/
  data    : List (Nat × Word × Word × Bool)
  vd      : Nat
  promoted : Bool
  granted : Bool
  /-- the code address of the instruction -/
  pc      : Nat
  /-- the mode of the issuing team, for a handle's image -/
  mode    : Mode
  /-- the tick of its issue, for what the team had observed by then (R291) -/
  tick    : Nat
  /-- the bytes of the captured tile at its issue (R369) -/
  seen    : List Byte
  deriving DecidableEq, Repr

/-- What a granted pass or load read of its tile, and the accumulator elements before it: key, value, poison (R369). -/
structure Pass where
  image : List Byte
  undo  : List (Nat × BitVec 64 × Bool)
  deriving DecidableEq, Repr

/-- A cluster (R37). -/
structure Cluster where
  rowmap  : Word
  /-- keyed 2 × block key + slot -/
  slots   : Table Weights
  table   : Table Reservation
  /-- keyed by the entry of the granted reservation -/
  passes  : Table Pass
  order   : Nat
  queue   : Nat
  moving  : Option Nat
  movedAt : Option Nat
  tlb     : List TlbEntry
  cid     : Word
  deriving DecidableEq, Repr

/-! ### The context, the launch and the hub -/

/-- A context's registers (R94, R230). -/
structure Context where
  xvect    : BitVec 64
  xhvect   : BitVec 64
  xtsbase  : BitVec 64
  xhtsbase : BitVec 64
  xasid    : BitVec 16
  xptb     : BitVec 64
  xstg2    : BitVec 64
  xseed    : BitVec 64
  fktbase  : BitVec 64
  deriving DecidableEq, Repr

/-- A failure record (R171, R189, R198, R207). -/
inductive Failure where
  | killed
  | doubleFault (cause : Nat)
  | command (cid : BitVec 64)
  | stopForced
  | spillFull (handle : BitVec 64)
  deriving DecidableEq, Repr

/-- A launch and its slice record (R197, R199, R266–R268). -/
structure Launch where
  id       : BitVec 64
  ctx      : Nat
  kernel   : Nat
  graph    : Nat
  nblocks  : Nat
  next     : Nat
  deadline : BitVec 64
  budget   : BitVec 64
  argva    : BitVec 64
  handle   : BitVec 64
  seed     : BitVec 64
  classMax : Nat
  cls      : Nat
  origin   : Nat
  queue    : Nat
  /-- the place of its record in the queue's ring (R202; log entry 28) -/
  place    : Nat
  alloc    : Nat
  accRows  : Nat
  grouping : Bool
  flagEvt  : Bool
  determ   : Bool
  cores    : Bool
  accepted : Nat
  /-- device time since which a ready record has found no core (R210) -/
  readyAt  : Nat
  ended    : Bool
  /-- its BUDGET_OUT has been recorded since the budget was last given anew (R208, R248) -/
  spent    : Bool
  failure  : Option Failure
  /-- teams that have arrived at the current grid barrier, and teams that have ended: 32 × block + team, stamp of the
  release, LDCLK (R339, R264) -/
  gridArr  : List (Nat × Nat × Nat)
  gridEnd  : List (Nat × Nat × Nat)
  /-- the acquire bound and W of the last completion of the grid barrier (R339, R264) -/
  gridBound : Nat × Nat
  ls       : Nat
  nextSeq  : Nat
  ladle    : Option Nat
  regions  : List Nat
  invalidSeen : Bool
  deriving DecidableEq, Repr

/-- A loaded image (R26, R77, R194). -/
structure Image where
  kind    : Nat
  dpa     : Nat
  size    : Nat
  ctx     : Nat
  datava  : BitVec 64
  deriving DecidableEq, Repr

/-- A graph instance (R196). -/
structure Instance where
  tag     : Nat
  graph   : Nat
  ctx     : Nat
  seed    : BitVec 64
  start   : Nat
  counts  : Table Nat
  stopped : Bool
  /-- the commands that ask for the stop and are not done: acceptance time and journal sequence, 0 for a `CKPT`'s (R225) -/
  stopping : List (Nat × Nat)
  running : Bool
  spillVa : Nat
  spillSz : Nat
  /-- what lies in the spill buffer: offset, bytes, whether a handle's record that is not adopted (R207, R219) -/
  spills  : Table (Nat × Bool)
  deriving DecidableEq, Repr

/-- A `SPAWN` that waits for room in a queue: its number in the walker's order, team key and command. -/
structure QueueWaiter where
  seq  : Nat
  team : Nat
  cmd  : Nat
  deriving DecidableEq, Repr

/-- What the walker handles in order: a launch that a count or a START readied, a `SPAWN`, an `HPASS` (R198, R204, R345). -/
inductive WalkWork where
  | ready (launch : Nat)
  | spawn (cmd : Nat)
  | pass (cmd : Nat)
  deriving DecidableEq, Repr

/-- Work with its number in the walker's order. -/
structure WalkItem where
  seq  : Nat
  work : WalkWork
  deriving DecidableEq, Repr

/-- A stage queue (R202). -/
structure Queue where
  size    : Nat
  /-- none while no queue record has named one: the ring then lies where no rule says -/
  base    : Option Nat
  lo      : Word
  hi      : Word
  mincl   : Nat
  /-- launches queued, in order -/
  records : List Nat
  blocked : Nat
  /-- `SPAWN`s that found it full, in the order in which their teams blocked (R204) -/
  waiters : List QueueWaiter
  deriving DecidableEq, Repr

/-- An evicted block (R159, R219–R224). -/
structure Evicted where
  launch   : Nat
  index    : Nat
  image    : Nat
  bytes    : Nat
  core     : Nat
  /-- where its allocation began on that core -/
  base     : Nat
  /-- offset of the image in the spill buffer -/
  offset   : Nat
  evicted  : Nat
  ctx      : Nat
  barriers : Table Barrier
  /-- wake code ready, per team number -/
  ready    : Bool
  exited   : Table Mask
  monitors : Table Monitor
  /-- LDCLK by team number (R264) -/
  ldclks   : Table Nat
  waits    : Table Wait
  phases   : Table Nat
  /-- traps a team owes at its next run, by team number (R171, R238) -/
  dues     : Table (List LaneTrap)
  /-- which of a team's S and H banks have been written, by team number (R90) -/
  banks    : Table (Bool × Bool)
  /-- the teams at `WAITM` whose sectors hold monitor entries, by number (R224) -/
  monEntries : List Nat
  nextSpur : Nat
  /-- a spurious wake has made it runnable (R224) -/
  spurious : Bool
  /-- device time since which its record has been back in its queue (R210) -/
  since    : Option Nat
  deriving DecidableEq, Repr

/-- A held arrival (R235, R236). -/
structure HeldArrival where
  launch  : BitVec 64
  block   : Nat
  barrier : Nat
  cid     : BitVec 64
  deriving DecidableEq, Repr

/-- What an engine command does (R163, R231, R345, R399, R409). -/
inductive CmdKind where
  | copy | gather | put | puts | get | csend | rsig | spawn | hpass | adopt
  /-- the responses that this device owes to a remote `GET` (R235) -/
  | serve
  deriving DecidableEq, Repr

/-- One end of a transfer: virtual memory, a core's scratchpad, or the allocation of an evicted block, in its image (R220, R340). -/
inductive Place where
  | global (va : Nat)
  | scratch (core : Nat) (offset : Nat)
  | saved (image : Nat) (offset : Nat)
  deriving DecidableEq, Repr

/-- An engine command in flight (R166, R185, R231). -/
structure Cmd where
  kind    : CmdKind
  word    : Nat
  team    : Nat
  block   : Nat
  launch  : Nat
  ctx     : Nat
  mode    : Mode
  op      : Option Nat
  barrier : Option Nat
  phase   : BitVec 8
  cid     : BitVec 64
  src     : Place
  dst     : Place
  srcPitch : Nat
  dstPitch : Nat
  lineUnits : Nat
  units   : Nat
  done    : List Nat
  reduce  : Nat
  scope   : Nat
  index   : List Nat
  tiles   : List Nat
  fill    : Bool
  locks   : List Nat
  fault   : Option (Nat × Nat × Bool)
  poison  : Bool
  stamp   : Option Nat
  seq     : Option Nat
  /-- fabric operands: destination device, window, key, offset, class, virtual channel, signal word, payload bytes -/
  dev     : Nat
  win     : Nat
  key     : Nat
  kix     : Nat
  offset  : Nat
  cls     : Nat
  vc      : Nat
  signal  : Word
  wait    : Bool
  oseq    : Nat
  payload : List Byte
  header  : List Byte
  /-- packets not yet acknowledged, and the value of LDCLK at issue -/
  unacked : Nat
  atIssue : Nat
  releasedReduce : Bool
  /-- the code address of the instruction; payload bytes in all; completed locally (R233); the request of a `GET`, or the
  signal of a `PUTS`, has left; the OSEQ of that signal -/
  pc      : Nat
  bytes   : Nat
  localDone : Bool
  signalled : Bool
  sigOseq : Nat
  deriving DecidableEq, Repr

/-- A packet in a port's replay store (R233, R237). -/
structure Replay where
  port    : Nat
  bytes   : List Byte
  cmd     : Option Nat
  cid     : BitVec 64
  /-- device time of the last transmission, transmissions after the first -/
  sent    : Nat
  tries   : Nat
  /-- the poisoned granules of a `GET` response, which the receiver must learn of and no header field carries (R272, R340) -/
  poison  : List Nat
  deriving DecidableEq, Repr

/-- A Runner link's receive state (R226). -/
structure Link where
  /-- CRC failures in a row, flits accepted of the packet under way -/
  bad     : Nat
  partials : List Byte
  replayWanted : Bool
  /-- flits sent and not acknowledged at link level, oldest first, at most 512: the link retry buffer -/
  retry   : List (List Byte)
  /-- free credit in flits by channel, VC 0–3 and 4 for CONTROL, where it is not the first (log entry 30) -/
  free    : Table Nat
  /-- packets that wait for credit, in order, with their replay entries -/
  queue   : List (List Byte × Option Nat)
  deriving DecidableEq, Repr

/-- A route-table row (R227): the fixed port and the alternates. -/
structure RouteRow where
  fixed : Nat
  alts  : List Nat
  deriving DecidableEq, Repr

/-- A combining slot (R240, R255): its inputs with rank, CID, count and payload, in arrival order. -/
structure Slot where
  collid  : Word
  chunk   : BitVec 16
  entry   : BitVec 16
  fired   : Bool
  mapped  : Bool
  tmo     : Nat
  opened  : Nat
  ranks   : List Nat
  root    : Nat
  /-- each input in arrival order, with the port it came on (16 for a local one), and the local commands it completes -/
  inputs  : List (Nat × List Byte)
  origins : List Nat
  deriving DecidableEq, Repr

/-- A collective packet at this hub (R240): the port it came on, 16 for one made here; the local commands that complete
with it; the port it waits to leave by, none while its next entry has yet to act. -/
structure Chunk where
  port    : Nat
  bytes   : List Byte
  origins : List Nat
  out     : Option Nat
  deriving DecidableEq, Repr

/-- An event record before the recorder stores it (R246). -/
structure Record where
  bytes : List Byte
  cls   : Nat
  deriving DecidableEq, Repr

/-- The event recorder (R249–R252) and its per-source and per-class counters. -/
structure Recorder where
  intake  : List Record
  /-- slots written so far, by slot number: the stored 32 bytes -/
  slots   : Table (List Byte)
  head    : Nat
  epoch   : Nat
  /-- the header as last rewritten -/
  header  : List Byte
  drops   : Table Nat
  dropsSince : Table Nat
  sseq    : Table Nat
  /-- a class is being discarded -/
  shut    : Sparse Bool
  /-- records emitted and not yet at the intake, oldest first (R252) -/
  transit : List Record
  /-- class-7 sampling period of a core in µs, and when it last sampled (R248) -/
  period  : Table Nat
  sampled : Table Nat
  deriving DecidableEq, Repr

/-- The capture region (R269). -/
structure Capture where
  units : Table (List Byte)
  head  : Nat
  epoch : Nat
  deriving DecidableEq, Repr

/-- The command journal (R259). -/
structure Journal where
  next    : Nat
  entries : Table (List Byte)
  deriving DecidableEq, Repr

/-- The sync tag of a sector (R153). -/
structure SyncTag where
  stamp : Nat
  core  : Nat
  ctx   : Nat
  scope : Nat
  mark  : Nat
  /-- number of the record's context, and, of a deterministic launch's record, the launch and the team's number in its grid (R154, R266) -/
  num   : Nat
  team  : Option (Nat × Nat)
  deriving DecidableEq, Repr

/-- A sector in L2: whether dirty (R271), and when it is replaced: 0 as any, 1 first, 2 last (R141). -/
structure L2Line where
  dirty : Bool
  keep  : Nat
  deriving DecidableEq, Repr

/-- The home slices: HBM contents as bytes, and what L2 and the sectors carry (R147, R151–R153, R272). -/
structure Home where
  mem     : List Host.Cell
  /-- fold tag of each byte, (0, 0) where unlisted (R151) -/
  fold    : Sparse (Nat × Nat)
  sync    : Table SyncTag
  l2      : Table L2Line
  /-- poisoned 32-byte granules (R272) -/
  poison  : Sparse Bool
  /-- granules that L2 holds and HBM could not give (R271) -/
  under   : Sparse Bool
  /-- lost stacks (R285) -/
  lost    : List Nat
  /-- sectors whose write to HBM is under way: the intents recorded with the stripe locks held (R284) -/
  intents : List Nat
  deriving DecidableEq, Repr

/-- A word of a scratchpad that a team of a cluster group has stored to: its value before, the storing team's core, the tick of the store,
and the teams that have observed a barrier since (R129, R359). -/
structure Loose where
  core : Nat
  word : Nat
  old  : Word
  writer : Nat
  tick : Nat
  seen : List Nat
  deriving DecidableEq, Repr

/-- A signalled `DELIVER` as R291 asks of it: its writes and how far its signal has come. -/
structure Delivery where
  cid    : BitVec 64
  launch : BitVec 64
  block  : Nat
  reg    : Nat
  /-- by physical address: the byte before and the byte delivered -/
  bytes  : List (Nat × Byte × Byte)
  /-- expected arrivals still to come before its signal is counted; none while the signal has not reached the register -/
  credit : Option Int
  /-- the phase that counts its signal -/
  phase  : Option (BitVec 8)
  /-- the teams of the block that have observed that phase, with the tick of it -/
  seen   : Table Nat
  deriving DecidableEq, Repr

/-- The hub die: images, instances, queues, the walker's work, the fabric (R194–R210, R226–R244). -/
structure Hub where
  images    : Table Image
  instances : Table Instance
  queues    : Table Queue
  started   : Bool
  /-- the walker's work in the order in which it reached the hub (R198, R345, R399), and the next number in that order -/
  walk      : List WalkItem
  walkSeq   : Nat
  /-- the cores that await an offer, in order of arrival (R200) -/
  offers    : List Nat
  /-- handles whose spill record found no room: the launch that gets one is killed (R207) -/
  dead      : List (BitVec 64)
  /-- handles recorded for targets not accepted yet (R345): launch id, handle -/
  passed    : List (BitVec 64 × BitVec 64)
  evicted   : Table Evicted
  nextEvict : Nat
  arrivals  : List HeldArrival
  nextLaunch : Nat
  nextCmd   : Nat
  device    : BitVec 16
  routes    : Table RouteRow
  wtbase    : BitVec 64
  cmtbase   : BitVec 64
  replay    : Table Replay
  nextReplay : Nat
  links     : Table Link
  /-- next OSEQ to send, keyed by destination and channel; next OSEQ to perform, keyed by source and channel -/
  oseqOut   : Table Nat
  oseqIn    : Table Nat
  /-- ORDERED packets held behind a gap: port, bytes, poisoned granules of a response (R234) -/
  ahead     : List (Nat × List Byte × Nat)
  /-- signalled deliveries of running launches, which their teams may not have observed (R291) -/
  deliveries : List Delivery
  /-- stores of cluster groups that teams of the other cores may not see yet (R129, R359) -/
  loose : List Loose
  /-- identities of packets performed (R234) -/
  performed : List (List Byte)
  slots     : Table Slot
  /-- collective packets that continue at this hub or wait for a slot -/
  waiting   : List Chunk
  holdTime  : Nat
  cidWalker : Word
  cidColl   : Word
  /-- the records of the last pass of the edge view (R257) -/
  edges     : List (List Byte)
  /-- the greatest stamp of a block-end release (R329) -/
  endStamp  : Nat
  deriving DecidableEq, Repr

/-- What a queued command carries from its acceptance to its turn (R17): a LOAD's image and handle, a START's instance. -/
structure Queued where
  image  : List Byte
  handle : Nat
  inst   : Option Instance
  deriving DecidableEq, Repr

/-- An accepted command not complete (R17): record bytes, journal sequence of its acceptance, device time of it; whether its turn has
come, and what it carries till then. -/
structure Pending where
  bytes   : List Byte
  seq     : Nat
  time    : Nat
  started : Bool
  content : Queued
  deriving DecidableEq, Repr

/-- What the state section of a checkpoint holds (R25, R225), under the checkpoint's digest (log entry 39). -/
structure Saved where
  digest    : List Byte
  images    : Table Image
  instances : Table Instance
  queues    : Table Queue
  clusters  : List Nat
  walk      : List WalkItem
  walkSeq   : Nat
  dead      : List (BitVec 64)
  passed    : List (BitVec 64 × BitVec 64)
  evicted   : Table Evicted
  /-- the entries of detached logs, each with its core (R159) -/
  logs      : List (Nat × LogEntry)
  arrivals  : List HeldArrival
  launches  : Table Launch
  cmds      : Table Cmd
  nextEvict : Nat
  nextLaunch : Nat
  nextCmd   : Nat
  journal   : Nat
  deriving DecidableEq, Repr

/-- The module outside the compute dies (R10–R36). -/
structure Module where
  sq        : Sparse Byte
  sqTail    : Nat
  sqHead    : Nat
  cqHead    : Nat
  cqTail    : Nat
  cqPhase   : Bool
  cqBase    : BitVec 64
  cqSize    : Nat
  windows   : Sparse (BitVec 64)
  channel   : Bool
  pending   : List Pending
  meas      : Table (List Byte)
  imageKeys : Table (List Byte)
  debugWord : Word
  powerLimit : Nat
  clock     : Nat
  tripped   : Bool
  recovery  : Bool
  /-- the last samples of R31: temperatures, rails, power -/
  temps     : List Nat
  rails     : List Nat
  power     : Nat
  /-- the process monitors' readings at start-up, by cluster, and the voltage of each compute die that they set (R31) -/
  process   : List Nat
  volts     : List Nat
  /-- corrected errors by structure code, when each last gave an event, and when each stack gave its uncorrectable ones (R271, R285) -/
  corrected : Table Nat
  eccAt     : Table Nat
  hbmErr    : Table (List Nat)
  /-- device time of the last change of the arithmetic clock (R32) -/
  clockAt   : Nat
  /-- what the last host read returned (R18, R23, R253) -/
  reply     : List Byte
  /-- the host's memory, and what the windows of fabric peers that checkpoints go to hold, by device and key index -/
  hostMem   : Sparse Byte
  peers     : Table (Sparse Byte)
  saved     : List Saved
  firmware  : List Byte
  resetting : Bool
  deriving DecidableEq, Repr

/-- Who moves next: an event, or the run in an issue slot. -/
inductive Turn where
  | event (i : Instr)
  | slot (core slot : Nat)
  deriving DecidableEq, Repr

/-- The whole machine. -/
structure State where
  /-- the team whose run the current step advances: 16 × core + team context -/
  cur      : Nat
  teams    : Table Team
  blocks   : Table Block
  cores    : Table Core
  clusters : Table Cluster
  contexts : Table Context
  launches : Table Launch
  cmds     : Table Cmd
  home     : Home
  hub      : Hub
  recorder : Recorder
  capture  : Capture
  journal  : Journal
  module   : Module
  /-- device time in ns and sixteenths of one (R246, R249), and the cycle counter of R91, which the cores share (log entry 3) -/
  time     : Nat
  frac     : BitVec 4
  cycles   : Nat
  /-- the model's own: which turn comes next (log entry 1), the free-value counter (log entry 2) -/
  agenda   : List Turn
  tick     : Nat
  deriving DecidableEq, Repr

/-! ### Values at reset -/

/-- Registers at a team's first run (R88): zero; `k0` is set by placement. -/
def Regs.zero : Regs := ⟨[], [], [], [], [], [], [], 0, 0⟩

/-- A monitor not armed (R254). -/
def Monitor.clear : Monitor := ⟨false, false, 0, 0, 0, false⟩

/-- A core holding nothing (R127, R145, R169; values with no reset value in the manual: log entry 5). -/
def Core.fresh (c : Nat) : Core :=
  { slotA := none, slotB := none, runs := 0, scratch := [], scratchPoison := [], acc := [], accPoison := [], accOpen := [], spare := []
    carve := 0, l1 := [], l1Poison := [], l1Keep := [], log := [], ctxLogs := [], tails := [], segs := [], nextSeg := 0, counter := 0, tlb := [], locks := []
    steps := [], watches := [], lanemap := Config.fusedLaneMap c, newmap := none, holds := [], serial := 0, banks := []
    cidCore := 0, cidCopy := 0, cidFold := 0 }

/-- A cluster holding nothing (R176, R185; its queue until the first START: log entry 5). -/
def Cluster.fresh (c : Nat) : Cluster :=
  { rowmap := Config.fusedRowMap c, slots := [], table := [], passes := [], order := 0, queue := 0, moving := none, movedAt := none
    tlb := [], cid := 0 }

/-- A context no supervisor has set up (log entry 5). -/
def Context.fresh : Context := ⟨0, 0, 0, 0, 0, 0, 0, 0, 0⟩

/-- HBM scrubbed to zero (R27, R147), fold tags (0, 0), sync tags empty, nothing in L2, no stack lost. -/
def Home.fresh : Home := ⟨[], [], [], [], [], [], [], []⟩

/-- The hub with nothing loaded (R26, R202, R227, R236). -/
def Hub.fresh : Hub :=
  { images := [], instances := [], queues := [], started := false, walk := [], walkSeq := 0, offers := [], dead := [], passed := []
    evicted := [], nextEvict := 0, arrivals := [], nextLaunch := 0, nextCmd := 0, device := 0xFFFF#16, routes := [], wtbase := 0
    cmtbase := 0, replay := [], nextReplay := 0, links := [], oseqOut := [], oseqIn := [], ahead := [], deliveries := [], loose := [], performed := []
    slots := [], waiting := [], holdTime := 20000, cidWalker := 0, cidColl := 0, edges := [], endStamp := 0 }

/-- An empty event ring at EPOCH 1 (R250). -/
def Recorder.fresh : Recorder :=
  { intake := [], slots := [], head := 0, epoch := 1, header := [], drops := [], dropsSince := [], sseq := [], shut := []
    transit := [], period := [], sampled := [] }

/-- The measurement registers after the start-up steps of R27 and R35: each of MEAS0 to MEAS3 is zero extended once. The
extension itself is made by `COLD_START`; before it they are zero. -/
def Module.fresh : Module :=
  { sq := [], sqTail := 0, sqHead := 0, cqHead := 0, cqTail := 0, cqPhase := true, cqBase := 0, cqSize := 1024, windows := []
    channel := false, pending := [], meas := [], imageKeys := [], debugWord := 0, powerLimit := 2100, clock := 2250
    tripped := false, recovery := false, temps := [], rails := [], power := 0, process := [], volts := [], corrected := [], eccAt := [], hbmErr := []
    clockAt := 0, reply := []
    hostMem := [], peers := [], saved := [], firmware := [], resetting := false }

/-- The machine at power-good, before its start-up steps run: no launch, no block, no team, memory listing nothing. -/
def State.reset : State :=
  { cur := 0, teams := [], blocks := []
    cores := (List.range 256).map fun c => (c, Core.fresh c)
    clusters := (List.range 64).map fun c => (c, Cluster.fresh c)
    contexts := [], launches := [], cmds := [], home := Home.fresh, hub := Hub.fresh, recorder := Recorder.fresh
    capture := ⟨[], 0, 0⟩, journal := ⟨1, []⟩, module := Module.fresh, time := 0, frac := 0, cycles := 0, agenda := [], tick := 0 }

end Sys2Proof.Machine
end

