-- ==== Sys2Proof/Machine/Access.lean ====
section
/-! DEFINITION. Reading and writing the parts of the state by name, the event records (R246–R248), and the causal
identifiers (R229, R247). -/

namespace Sys2Proof.Machine

/-- The team in a team context. -/
def State.team (s : State) (k : Nat) : Option Team := s.teams.find k
/-- Put a team in its context. -/
def State.setTeam (s : State) (k : Nat) (t : Team) : State := { s with teams := s.teams.put k t }
/-- Change a team that is there. -/
def State.modTeam (s : State) (k : Nat) (f : Team → Team) : State := { s with teams := s.teams.update k f }

def State.block (s : State) (k : Nat) : Option Block := s.blocks.find k
def State.setBlock (s : State) (k : Nat) (b : Block) : State := { s with blocks := s.blocks.put k b }
def State.modBlock (s : State) (k : Nat) (f : Block → Block) : State := { s with blocks := s.blocks.update k f }

/-- A core by its logical number. -/
def State.core (s : State) (c : Nat) : Core := (s.cores.find c).getD (Core.fresh c)
def State.setCore (s : State) (c : Nat) (x : Core) : State := { s with cores := s.cores.put c x }
def State.modCore (s : State) (c : Nat) (f : Core → Core) : State := s.setCore c (f (s.core c))

def State.cluster (s : State) (c : Nat) : Cluster := (s.clusters.find c).getD (Cluster.fresh c)
def State.setCluster (s : State) (c : Nat) (x : Cluster) : State := { s with clusters := s.clusters.put c x }
def State.modCluster (s : State) (c : Nat) (f : Cluster → Cluster) : State := s.setCluster c (f (s.cluster c))

def State.context (s : State) (c : Nat) : Context := (s.contexts.find c).getD Context.fresh
def State.setContext (s : State) (c : Nat) (x : Context) : State := { s with contexts := s.contexts.put c x }
def State.modContext (s : State) (c : Nat) (f : Context → Context) : State := s.setContext c (f (s.context c))

def State.launch (s : State) (n : Nat) : Option Launch := s.launches.find n
def State.setLaunch (s : State) (n : Nat) (l : Launch) : State := { s with launches := s.launches.put n l }
def State.modLaunch (s : State) (n : Nat) (f : Launch → Launch) : State := { s with launches := s.launches.update n f }

def State.cmd (s : State) (n : Nat) : Option Cmd := s.cmds.find n
def State.setCmd (s : State) (n : Nat) (c : Cmd) : State := { s with cmds := s.cmds.put n c }
def State.modCmd (s : State) (n : Nat) (f : Cmd → Cmd) : State := { s with cmds := s.cmds.update n f }
def State.dropCmd (s : State) (n : Nat) : State := { s with cmds := s.cmds.drop n }

def State.modHome (s : State) (f : Home → Home) : State := { s with home := f s.home }
def State.modHub (s : State) (f : Hub → Hub) : State := { s with hub := f s.hub }
def State.modModule (s : State) (f : Module → Module) : State := { s with module := f s.module }
def State.modRecorder (s : State) (f : Recorder → Recorder) : State := { s with recorder := f s.recorder }

/-- Core, team context and cluster of a team key. -/
def coreOfTeam (k : Nat) : Nat := k / 16
def ctxOfTeam (k : Nat) : Nat := k % 16
def clusterOf (core : Nat) : Nat := core / 4
/-- The die a core lies on (R10): 0 or 1. -/
def dieOfCore (core : Nat) : Nat := core / 128

/-- The block a team belongs to. -/
def State.blockOf (s : State) (t : Team) : Option Block := s.block t.block

/-- The launch of a team. -/
def State.launchOf (s : State) (t : Team) : Option Launch :=
  match s.blockOf t with
  | some b => s.launch b.launch
  | none => none

/-- The context number of a team's launch; 0 for a team with none. -/
def State.ctxOf (s : State) (t : Team) : Nat :=
  match s.launchOf t with
  | some l => l.ctx
  | none => 0

/-- A team of a deterministic launch (R260). -/
def State.deterministic (s : State) (t : Team) : Bool :=
  match s.launchOf t with
  | some l => l.determ
  | none => false

/-- The teams of a block, with their keys, in key order. -/
def State.teamsOfBlock (s : State) (b : Nat) : List (Nat × Team) := s.teams.filter fun kt => kt.2.block == b

/-- The blocks of a core. -/
def State.blocksOfCore (s : State) (c : Nat) : List (Nat × Block) := s.blocks.filter fun kb => kb.2.core == c

/-- A cluster's reservation table without the reservations of a block. -/
def Cluster.without (c : Cluster) (bk : Nat) : Cluster :=
  let t := c.table.filter fun kr => kr.2.block != bk
  { c with table := t, passes := c.passes.filter fun p => t.any fun x => x.1 == p.1 }

/-- The context tag of a context in a core's log: the number of its log record there (R144, R145). -/
def Core.tagOf (c : Core) (ctx : Nat) : Option Nat :=
  (c.ctxLogs.find? fun kv => kv.2.ctx == ctx).map (·.1)

/-! ### Event records -/

/-- The unit classes of R247. -/
def unitCore : Nat := 1
def unitCopy : Nat := 2
def unitFold : Nat := 3
def unitMatrix : Nat := 4
def unitL2 : Nat := 5
def unitHbm : Nat := 6
def unitWalker : Nat := 7
def unitCollective : Nat := 8
def unitPort : Nat := 9
def unitChannel : Nat := 10
def unitFirmware : Nat := 11
def unitRecorder : Nat := 12

/-- The die of a unit (R246, R10). -/
def dieOfUnit (ucls unit : Nat) : Nat :=
  if ucls ≤ 3 then dieOfCore unit
  else if ucls = 4 then unit / 32
  else if ucls = 5 then unit / 64
  else if ucls = 6 then unit / 4
  else 2

/-- The 32 bytes of a record; EPOCH is filled in when the slot is written (R246, R250). -/
def recordBytes (time : Nat) (frac : BitVec 4) (ucls unit type sseq : Nat) (cid : BitVec 64) (payload : Nat) : List Byte :=
  leBytes 8 time ++ [BitVec.ofNat 8 (frac.toNat + type / 256 * 16), BitVec.ofNat 8 (dieOfUnit ucls unit), BitVec.ofNat 8 ucls,
    BitVec.ofNat 8 unit] ++ leBytes 2 type ++ leBytes 2 sseq ++ leBytes 8 cid.toNat ++ leBytes 8 payload

/-- A unit emits an event: its SSEQ advances and the record sets out for the recorder (R246, R249, R252). -/
def emit (s : State) (ucls unit type : Nat) (cid : BitVec 64) (payload : Nat) : State :=
  let key := 256 * ucls + unit
  let n := (s.recorder.sseq.find key).getD 0
  let r : Record := ⟨recordBytes s.time s.frac ucls unit type (n % 65536) cid payload, type / 256⟩
  s.modRecorder fun rec => { rec with sseq := rec.sseq.put key (n + 1), transit := rec.transit ++ [r] }

/-! ### Causal identifiers (R229, R247) -/

/-- A CID of this device. -/
def State.makeCid (s : State) (ucls unit : Nat) (seq : Word) : BitVec 64 :=
  s.hub.device ++ BitVec.ofNat 8 ucls ++ BitVec.ofNat 8 unit ++ seq

/-- A new CID of a core's copy engine, with the counter advanced. -/
def newCopyCid (s : State) (core : Nat) : BitVec 64 × State :=
  let c := s.core core
  (s.makeCid unitCopy core c.cidCopy, s.setCore core { c with cidCopy := c.cidCopy + 1 })

/-- A new CID of a cluster's matrix engine. -/
def newMatrixCid (s : State) (cl : Nat) : BitVec 64 × State :=
  let c := s.cluster cl
  (s.makeCid unitMatrix cl c.cid, s.setCluster cl { c with cid := c.cid + 1 })

/-- A new CID of the collective engine. -/
def newCollCid (s : State) : BitVec 64 × State :=
  (s.makeCid unitCollective 0 s.hub.cidColl, s.modHub fun h => { h with cidColl := h.cidColl + 1 })

/-- The free-value counter, advanced (log entry 2). -/
def State.nextTick (s : State) : State := { s with tick := s.tick + 1 }

end Sys2Proof.Machine
end

