-- ==== Sys2Proof/Machine/Memory.lean ====
section
/-! DEFINITION. Shared memory: the home slices, the store logs, publication, folding and acquires (R143–R162), poison in
memory (R272), and translation (R138, R139). -/

namespace Sys2Proof.Machine

/-! ### Physical addresses -/

/-- The first address above HBM (R283). -/
def hbmTop : Nat := 0x7000000000
/-- The aperture of R127. -/
def apertureBase : Nat := 0x0F0000000000

/-- What a physical address names. -/
inductive Where where
  | hbm
  | aperture (core off : Nat)
  | absent
  deriving DecidableEq, Repr

/-- HBM, a core's window, or nothing (R127, R283). -/
def whereIs (pa : Nat) : Where :=
  if pa < hbmTop then .hbm
  else if apertureBase ≤ pa ∧ pa < apertureBase + 0x100000000 then
    .aperture ((pa - apertureBase) / 0x1000000) ((pa - apertureBase) % 0x1000000)
  else .absent

/-- The 128-byte sector, the 32-byte chunk or granule of an address (R144, R153, R272). -/
def sectorOf (pa : Nat) : Nat := pa / 128
def chunkOf (pa : Nat) : Nat := pa / 32

/-! ### The home slices -/

/-- A byte as the home slice holds it. -/
def Home.byte (h : Home) (pa : Nat) : Byte := Sparse.get 0#8 h.mem pa

/-- A byte's fold tag (R151). -/
def Home.tag (h : Home) (pa : Nat) : Nat × Nat := Sparse.get (0, 0) h.fold pa

/-- A granule's poison (R272). -/
def Home.poisoned (h : Home) (pa : Nat) : Bool := Sparse.get false h.poison (chunkOf pa)

/-- Write one byte with its fold tag. -/
def Home.putByte (h : Home) (pa : Nat) (b : Byte) (tag : Nat × Nat) : Home :=
  { h with mem := Sparse.set 0#8 h.mem pa b, fold := Sparse.set (0, 0) h.fold pa tag }

/-- How a page attribute and a cache policy have L2 hold a sector (R141): as any other, first or last to be replaced, or, 3, not at all. -/
def retention (attr pol : Nat) : Nat := if 2 ≤ attr ∨ pol = 4 then 3 else if pol = 1 then 1 else if pol = 2 then 2 else 0

/-- A home-slice write of a sector: it lies in L2 and is dirty (R152, R271), held as before. -/
def Home.touch (h : Home) (sector : Nat) : Home :=
  { h with l2 := h.l2.put sector ⟨true, ((h.l2.find sector).map (·.keep)).getD 0⟩ }

/-- A sector comes into L2, or stays there, held as an access asks; one served at the memory controller brings nothing in (R141). -/
def Home.bring (h : Home) (sector keep : Nat) (dirty : Bool) : Home :=
  if keep = 3 then h else { h with l2 := h.l2.put sector ⟨dirty || ((h.l2.find sector).map (·.dirty)).getD false, keep⟩ }

/-- Poison after a write to a granule: poisoned data marks it, a write of the whole granule clears it (R272). -/
def Home.markGranule (h : Home) (granule : Nat) (whole pois : Bool) : Home :=
  if pois then { h with poison := Sparse.set false h.poison granule true }
  else if whole then { h with poison := Sparse.set false h.poison granule false }
  else h

/-- The sync tag of a sector (R153). -/
def Home.syncTag (h : Home) (sector : Nat) : SyncTag := (h.sync.find sector).getD ⟨0, 0, 0, 7, 0, 0, none⟩

/-- Bytes as the home slices hold them. -/
def homeBytes (s : State) (pa n : Nat) : List Byte := (List.range n).map fun i => s.home.byte (pa + i)

/-- A little-endian number as the home slices hold it. -/
def homeNat (s : State) (pa n : Nat) : Nat := leNat (homeBytes s pa n)

/-- A write or a fold into a sector wakes what monitors it (R224, R363). -/
def wakeMonitors (s : State) (sector : Nat) : State :=
  { s with
    teams := s.teams.map fun kt =>
      if kt.2.monitor.armed && kt.2.monitor.sector == sector then
        (kt.1, { kt.2 with monitor := { kt.2.monitor with written := true } })
      else kt
    hub := { s.hub with
      evicted := s.hub.evicted.map fun ke =>
        if ke.2.monitors.any (fun m => ke.2.monEntries.contains m.1 && m.2.armed && m.2.sector == sector) then
          (ke.1, { ke.2 with
            ready := true
            monitors := ke.2.monitors.map fun m =>
              if ke.2.monEntries.contains m.1 && m.2.armed && m.2.sector == sector then (m.1, { m.2 with written := true }) else m })
        else ke } }

/-! ### The store log -/

/-- Ring entries, spilled entries and free room (R145, R158). -/
def Core.ringUsed (c : Core) : Nat := (c.log.filter fun e => !e.spl).length
def Core.spilled (c : Core) (tag : Nat) : Nat := (c.log.filter fun e => e.spl && e.ctx == tag).length
def ringSize : Nat := 4096
def overflowSize : Nat := 262144
def overflowReserve : Nat := 8192

/-- TAIL and PUBPOS of a context's log (R145). -/
def Core.tail (c : Core) (tag : Nat) : Nat := ((c.ctxLogs.find tag).map (·.tail)).getD 0
def Core.pubPos (c : Core) (tag : Nat) : Nat := ((c.ctxLogs.find tag).map (·.pubPos)).getD 0

/-- The segment a published entry belongs to: the newest of its number. -/
def Core.segOf (c : Core) (e : LogEntry) : Segment :=
  (c.segs.find? fun g => g.ctx == e.ctx && g.seg == e.seg).getD ⟨e.ctx, 0, e.seg, 0, 3, []⟩

/-- The names of an entry that lies on a core: its position there, and those it had elsewhere (R157). -/
def LogEntry.names (e : LogEntry) (here : Nat) : List (Nat × Nat) := (here, e.pos) :: e.past

/-- The entry lies below a mark of a core's log (R145, R157). -/
def LogEntry.below (e : LogEntry) (here core m : Nat) : Bool := (e.names here).any fun x => x.1 == core && decide (x.2 < m)

/-- The positions, in a context's log of a core, of the entries that a test selects, wherever they lie now (R157, R159). -/
def State.positions (s : State) (c ctx : Nat) (sel : Nat → Core → LogEntry → Bool) : List Nat :=
  s.cores.flatMap fun kc =>
    match if kc.2.log.isEmpty then none else kc.2.tagOf ctx with
    | none => []
    | some tag =>
      (kc.2.log.filter fun e => e.ctx == tag && sel kc.1 kc.2 e).flatMap fun e =>
        ((e.names kc.1).filter fun x => x.1 == c).map (·.2)

/-- FOLDPOS: every entry below it is folded (R145). -/
def State.foldPos (s : State) (c tag : Nat) : Nat :=
  match (s.core c).ctxLogs.find tag with
  | none => 0
  | some r => (s.positions c r.ctx fun _ _ _ => true).foldl min r.tail

/-- The bytes an entry writes: addresses and values (R144). -/
def LogEntry.writes (e : LogEntry) : List (Nat × Byte) :=
  (List.range 32).filterMap fun i =>
    if e.mask.getLsbD i then some (32 * e.chunk + i, (e.data >>> (8 * i)).setWidth 8) else none

/-- The 64 bytes of an entry (R144). -/
def LogEntry.bytes (e : LogEntry) : List Byte :=
  let bit := fun (b : Bool) (n : Nat) => if b then 2 ^ n else 0
  let head := leBytes 8 (e.ctx % 4 * 2 ^ 62 + bit e.eng 61 + e.chunk % 2 ^ 47 * 32) ++ leBytes 4 e.mask.toNat
    ++ leBytes 4 (e.seg % 2 ^ 20 * 2 ^ 12 + e.tctx % 16 * 256 + bit e.rgn 3 + bit e.pois 2 + bit e.spl 1 + bit e.pub 0)
  let data := leBytes 32 e.data.toNat
  head ++ leBytes 16 (Config.logEcc (leNat (head ++ data))).toNat ++ data

/-- Write entries of a context's overflow region as they stand (R158): entry at position p at OVFBASE + 64 × (p mod 262,144) (log entry
50). -/
def writeOverflow (s : State) (c tag : Nat) (es : List LogEntry) : State :=
  match (s.core c).ctxLogs.find tag with
  | none => s
  | some r =>
    es.foldl
      (fun s e =>
        let a := r.ovfBase.toNat + 64 * (e.pos % 262144)
        if hbmTop < a + 64 then s
        else s.modHome fun h => (e.bytes.zipIdx).foldl (fun h b => h.putByte (a + b.2) b.1 (h.tag (a + b.2))) h) s

/-- Fold one published entry into the home slices under its (stamp, core) (R151). A sector that L2 does not hold carries no tags (R141). -/
def foldEntry (stamp core : Nat) (s : State) (e : LogEntry) : State :=
  let sector := sectorOf (32 * e.chunk)
  let held := e.keep != 3 || (s.home.l2.find sector).isSome
  let h := e.writes.foldl
    (fun (h : Home) w =>
      let t := h.tag w.1
      if stamp < t.1 ∨ (stamp = t.1 ∧ core < t.2) then h else h.putByte w.1 w.2 (if held then (stamp, core) else (0, 0)))
    s.home
  let h := (h.bring sector e.keep true).markGranule e.chunk (e.mask == BitVec.allOnes 32) e.pois
  -- the folding core keeps no L1 copy older than its own store (R146, R132)
  let s := { s with home := h }
  let c := s.core core
  wakeMonitors (if c.l1.isEmpty then s else s.setCore core { c with l1 := c.l1.drop sector }) sector

/-- Fold the published entries of a core that a test selects, in log order, and free them (R151). Their segments stay in the segment
table, for the bounds of later acquires (R150). -/
def foldSome (s : State) (c : Nat) (sel : LogEntry → Bool) : State :=
  let core := s.core c
  let go := core.log.filter fun e => e.pub && sel e
  let stay := core.log.filter fun e => !(e.pub && sel e)
  go.foldl (fun s e => foldEntry (core.segOf e).stamp c s e) (s.setCore c { core with log := stay })

/-- Fold on every core that holds log entries. -/
def foldAcross (s : State) (sel : Nat → Core → LogEntry → Bool) : State :=
  s.cores.foldl (fun s kc => if kc.2.log.isEmpty then s else foldSome s kc.1 (sel kc.1 kc.2)) s

/-- The DEVICE-scope view (R139, R77, R230): every segment published at DEVICE or wider is folded, and the home slices then
hold what a reader at that scope sees. -/
def syncDevice (s : State) : State := foldAcross s fun _ c e => decide (3 ≤ (c.segOf e).scope)

/-- A home-slice access to a sector waits until it is not pending (R152): its announced entries are folded, with what lies
before them in the same log. -/
def settleSector (s : State) (sector : Nat) : State :=
  foldAcross s fun _ c e => c.log.any fun x => x.pub && x.ctx == e.ctx && sectorOf (32 * x.chunk) == sector

/-- A home-slice write (R152): tags of the bytes written become (0, 0), the sector is dirty, its monitors wake. -/
def homeWrite (s : State) (pa : Nat) (bytes : List Byte) (pois : Bool) : State :=
  let sectors := (List.range (sectorOf (pa + bytes.length - 1) + 1 - sectorOf pa)).map (sectorOf pa + ·)
  let s := sectors.foldl settleSector s
  let n := bytes.length
  let h := (bytes.zipIdx).foldl (fun (h : Home) bi => h.putByte (pa + bi.2) bi.1 (0, 0)) s.home
  let h := sectors.foldl Home.touch h
  let granules := (List.range (chunkOf (pa + n - 1) + 1 - chunkOf pa)).map (chunkOf pa + ·)
  let h := granules.foldl (fun h g => h.markGranule g (decide (pa ≤ 32 * g ∧ 32 * g + 32 ≤ pa + n)) pois) h
  if n = 0 then s else sectors.foldl wakeMonitors { s with home := h }

/-! ### The reader's view (R147) -/

/-- The highest-position unfolded entry of a context that covers a byte, detached logs of blocks evicted from this core
among them (R147, R159). -/
def logHit (s : State) (c tag pa : Nat) : Option LogEntry :=
  ((s.core c).log.filter fun e => e.ctx == tag && e.chunk == chunkOf pa && e.mask.getLsbD (pa % 32)).foldl
    (fun best e =>
      match best with
      | none => some e
      | some b => if b.pos ≤ e.pos then some e else best)
    none

/-- A byte and its poison in the view of a team of a context on a core (R147); `l1` is false for engines (R166). -/
def viewByte (s : State) (c ctx : Nat) (l1 : Bool) (pa : Nat) : Byte × Bool :=
  let core := s.core c
  match logHit s c ((core.tagOf ctx).getD 4) pa with
  | some e => ((e.data >>> (8 * (pa % 32))).setWidth 8, e.pois)
  | none =>
    match if l1 then core.l1.find (sectorOf pa) else none with
    | some line => (line.getD (pa % 128) 0#8, Sparse.get false core.l1Poison (chunkOf pa))
    | none => (s.home.byte pa, s.home.poisoned pa)

/-- Bytes in that view, and whether any is poisoned. -/
def viewBytes (s : State) (c ctx : Nat) (l1 : Bool) (pa n : Nat) : List Byte × Bool :=
  let bs := (List.range n).map fun i => viewByte s c ctx l1 (pa + i)
  (bs.map (·.1), bs.any (·.2))

/-- Lines that a core's L1 of K KiB holds (R132). -/
def Core.l1Lines (c : Core) : Nat := 8 * c.carve

/-- A full L1 gives up a line, one kept for last only where every line is; which of them is free (R132, R141). -/
def Core.replaceLine (c : Core) (n : Nat) : Core :=
  let loose := c.l1.filter fun kv => !Sparse.get false c.l1Keep kv.1
  let pool := if loose.isEmpty then c.l1 else loose
  match if c.l1.length < c.l1Lines then none else pool[(Config.freeWord n 54).toNat % pool.length]? with
  | none => c
  | some x => { c with
      l1 := c.l1.drop x.1, l1Keep := Sparse.set false c.l1Keep x.1 false
      l1Poison := (List.range 4).foldl (fun m i => Sparse.set false m (4 * x.1 + i) false) c.l1Poison }

/-- A load under a policy that keeps lines fills the core's L1 with the sector (R132, R141). -/
def fillL1 (s : State) (c pa : Nat) (last : Bool) : State :=
  let core := s.core c
  if core.carve = 0 then s
  else if (core.l1.find (sectorOf pa)).isSome then
    s.setCore c { core with l1Keep := Sparse.set false core.l1Keep (sectorOf pa) last }
  else
    let core := core.replaceLine s.tick
    let g := 4 * sectorOf pa
    s.setCore c { core with
      l1 := core.l1.put (sectorOf pa) (homeBytes s (128 * sectorOf pa) 128)
      l1Keep := Sparse.set false core.l1Keep (sectorOf pa) last
      l1Poison := (List.range 4).foldl (fun m i => Sparse.set false m (g + i) (Sparse.get false s.home.poison (g + i))) core.l1Poison }

/-- A line leaves a core's L1. -/
def dropLine (s : State) (c sector : Nat) : State :=
  s.modCore c fun core => { core with
    l1 := core.l1.drop sector
    l1Poison := (List.range 4).foldl (fun m i => Sparse.set false m (4 * sector + i) false) core.l1Poison }

/-! ### Appending (R143, R144, R146, R158) -/

/-- What one pass writes to one chunk: chunk, mask, data, poison, how L2 holds it. -/
structure Piece where
  chunk : Nat
  mask  : BitVec 32
  data  : BitVec 256
  pois  : Bool
  keep  : Nat
  deriving DecidableEq, Repr

/-- Merge a byte into the pieces of a pass; a later lane's byte remains (R42, R146). -/
def mergeByte (pa : Nat) (b : Byte) (pois : Bool) (keep : Nat) : List Piece → List Piece
  | [] =>
    let i := pa % 32
    [⟨chunkOf pa, 1#32 <<< i, (b.setWidth 256) <<< (8 * i), pois, keep⟩]
  | p :: ps =>
    if p.chunk = chunkOf pa then
      let i := pa % 32
      ⟨p.chunk, p.mask ||| (1#32 <<< i), (p.data &&& ~~~((0xFF#256) <<< (8 * i))) ||| ((b.setWidth 256) <<< (8 * i)),
        p.pois || pois, keep⟩ :: ps
    else p :: mergeByte pa b pois keep ps

/-- Merge consecutive bytes. -/
def mergeBytes (pa : Nat) (bs : List Byte) (pois : Bool) (keep : Nat) (ps : List Piece) : List Piece :=
  (bs.zipIdx).foldl (fun ps bi => mergeByte (pa + bi.2) bi.1 pois keep ps) ps

/-- Set SPL in the oldest unpublished ring entries of contexts whose overflow region has room, at most `n` (R158). -/
def spillOldest (roomOf : Nat → Nat) : Nat → List LogEntry → List LogEntry
  | _, [] => []
  | 0, es => es
  | n + 1, e :: es =>
    if !e.pub && !e.spl && roomOf e.ctx != 0 then
      { e with spl := true } :: spillOldest (fun t => if t = e.ctx then roomOf t - 1 else roomOf t) n es
    else e :: spillOldest roomOf (n + 1) es

/-- Make room for one ring entry of context tag `tag`: fold what is published, then spill (R158). `reserve` entries of the
overflow region stay free. Nothing when no room can be made. -/
def makeRoom (s : State) (c tag reserve : Nat) : Option State :=
  if (s.core c).ringUsed < ringSize then some s
  else
    let s := foldSome s c fun _ => true
    let core := s.core c
    if core.ringUsed < ringSize then some s
    else
      let room := fun t => (overflowSize - (if t = tag then reserve else overflowReserve)) - core.spilled t
      let log := spillOldest room 64 core.log
      let moved := ((core.log.zip log).filter fun x => !x.1.spl && x.2.spl).map (·.2)
      let s := moved.foldl (fun s e => writeOverflow s c e.ctx [e]) (s.setCore c { core with log := log })
      if (s.core c).ringUsed < ringSize then some s else none

/-- Who appends: team context, whether an engine with its command, whether a region is open. -/
structure Appender where
  tctx : Nat
  cmd  : Option Nat
  rgn  : Bool
  /-- the evicted block to whose detached log the entry belongs (R159) -/
  det  : Option Nat
  deriving DecidableEq, Repr

/-- Append one entry at TAIL (R144, R145). -/
def appendEntry (s : State) (c tag : Nat) (a : Appender) (p : Piece) : State :=
  let core := s.core c
  let rec0 := (core.ctxLogs.find tag).getD ⟨0, 0, 0, 0⟩
  let e : LogEntry :=
    { ctx := tag, pos := rec0.tail, chunk := p.chunk, mask := p.mask, data := p.data, pub := false, seg := 0, tctx := a.tctx
      eng := a.cmd.isSome, rgn := a.rgn, pois := p.pois, spl := a.det.isSome, cmd := a.cmd, keep := p.keep, det := a.det, past := [] }
  let s := s.setCore c { core with log := core.log ++ [e], ctxLogs := core.ctxLogs.put tag { rec0 with tail := rec0.tail + 1 } }
  -- an append by a team of the same core and context is a write to a monitored sector (R363)
  { s with
    teams := s.teams.map fun kt =>
      let m := kt.2.monitor
      if m.armed && a.cmd.isNone && coreOfTeam kt.1 == c && m.sector == sectorOf (32 * p.chunk) && s.ctxOf kt.2 == rec0.ctx then
        (kt.1, { kt.2 with monitor := { m with written := true } })
      else kt }

/-- Append pieces in order; the pieces left when room runs out come back. -/
def appendPieces (s : State) (c tag reserve : Nat) (a : Appender) : List Piece → State × List Piece
  | [] => (s, [])
  | p :: ps =>
    match makeRoom s c tag reserve with
    | some s => appendPieces (appendEntry s c tag a p) c tag reserve a ps
    | none => (s, p :: ps)

/-! ### Publication (R148, R154, R266) -/

/-- How a release takes its stamp and what it publishes. -/
structure Publisher where
  /-- the entries it may publish: all, one team's, or one command's (R266) -/
  own    : LogEntry → Bool
  /-- a stamp reserved at issue (R266) -/
  stamp  : Option Nat
  /-- the deterministic launch whose ladle stamp it takes (R266) -/
  launch : Option Nat
  /-- the releasing team context -/
  tctx   : Nat

/-- The ordinary publisher of R148: a detached log is not its to publish (R159). -/
def Publisher.all (tctx : Nat) : Publisher := ⟨fun e => e.det.isNone, none, none, tctx⟩

/-- The hub's publisher of a promotion, which releases a detached log too (R154). -/
def Publisher.hub : Publisher := ⟨fun _ => true, none, none, 16⟩

/-- A region of a team lapses when another team's release publishes entries of it (R275); the team's own release leaves a
note that entries at or above its mark went out (R276). -/
def noteRegions (s : State) (c : Nat) (tctx : Nat) (g : List LogEntry) : State :=
  g.foldl
    (fun s e =>
      if e.rgn then
        s.modTeam (16 * c + e.tctx) fun t =>
          match t.region with
          | some r =>
            if e.tctx = tctx then { t with region := some { r with leaked := r.leaked || decide (r.mark ≤ e.pos) } }
            else { t with region := none }
          | none => t
      else s)
    s

/-- A release at CLUSTER, DEVICE or SYSTEM scope, on core `c`, of the entries of context tag `tag` that a test puts below the mark
(R148): the state and its stamp. In a deterministic launch every release takes a stamp (R266). -/
def publishWhere (s : State) (c tag scope : Nat) (p : Publisher) (below : LogEntry → Bool) (covers : Segment → Bool) (m : Nat) :
    State × Nat :=
  let core := s.core c
  let inG := fun (e : LogEntry) => e.ctx == tag && below e && !e.pub && p.own e
  let g := core.log.filter inG
  let fresh := !g.isEmpty
  let stamped := fresh || p.launch.isSome
  let ls := ((p.launch.bind s.launch).map (·.ls)).getD 0
  let stamp := p.stamp.getD (if p.launch.isSome then max core.counter ls + 1 else if fresh then core.counter + 1 else core.counter)
  let seg := core.nextSeg
  let num := ((core.ctxLogs.find tag).map (·.ctx)).getD 0
  let log := if fresh then core.log.map fun e => if inG e then { e with pub := true, seg := seg } else e else core.log
  let new : Segment := ⟨tag, num, seg, stamp, scope, g.flatMap fun e => e.names c⟩
  -- the narrower published segments below the mark are widened
  let segs := core.segs.map fun x => if x.ctx == tag && decide (x.scope < scope) && covers x then { x with scope := scope } else x
  let s := s.setCore c
    { core with
      log := log, segs := if fresh then new :: segs else segs
      counter := if stamped && p.stamp.isNone then stamp else core.counter
      ctxLogs := core.ctxLogs.update tag fun r => { r with pubPos := max r.pubPos m }
      nextSeg := if fresh then (seg + 1) % 1048576 else seg }
  let s := if stamped && p.stamp.isNone then
      match p.launch with
      | some l => s.modLaunch l fun x => { x with ls := stamp }
      | none => s
    else s
  let s := writeOverflow s c tag ((g.filter (·.spl)).map fun e => { e with pub := true, seg := seg })
  let s := noteRegions s c p.tctx g
  let s := if scope = 4 then foldSome s c fun e => e.ctx == tag && below e else s
  (s, stamp)

/-- A release up to mark `m` of the log of context tag `tag` on core `c`; a mark of a core that an entry lay on before covers it too
(R148, R157). -/
def publish (s : State) (c tag m scope : Nat) (p : Publisher) : State × Nat :=
  publishWhere s c tag scope p (fun e => (e.names c).any fun x => decide (x.2 < m))
    (fun g => g.holds.any fun x => x.1 == c && decide (x.2 < m)) m

/-! ### Acquires (R149, R150, R154) -/

/-- A core lies within a scope of another (R142). -/
def withinScope (scope c d : Nat) : Bool :=
  if scope = 2 then clusterOf c == clusterOf d else decide (3 ≤ scope)

/-- A published segment of core `d` covers core `c` (R142). -/
def segCovers (g : Segment) (d c : Nat) : Bool := if g.scope = 2 then clusterOf c == clusterOf d else decide (3 ≤ g.scope)

/-- An acquire at CLUSTER scope or wider with bound `b` on core `c` (R149). -/
def acquire (s : State) (c scope b : Nat) : State :=
  let s := foldAcross s fun d core e =>
    let g := core.segOf e
    withinScope scope c d && segCovers g d c && decide (g.stamp ≤ b)
  s.modCore c fun core => { core with l1 := [], l1Poison := [], counter := max core.counter (b + 1) }

/-- The greatest stamp of any covered segment published so far (R150); none when there is none. -/
def acquireBound (s : State) (c scope : Nat) : Nat :=
  s.cores.foldl
    (fun b kc => kc.2.segs.foldl (fun b g => if withinScope scope c kc.1 && segCovers g kc.1 c then max b g.stamp else b) b) 0

/-- Promote the log of context `num` of core `d` at a scope up to a mark, wherever its entries lie now (R154, R157): the greatest stamp of
the releases, or none where the context has no log left. -/
def promote (s : State) (d num mark scope : Nat) (p : Nat → Publisher) : State × Option Nat :=
  let parts := s.cores.filterMap fun kc =>
    match kc.2.tagOf num with
    | none => none
    | some tag =>
      if kc.1 = d ∨ kc.2.log.any (fun e => e.ctx == tag && e.past.any fun x => x.1 == d && decide (x.2 < mark)) then some (kc.1, tag) else none
  parts.foldl
    (fun acc x =>
      let r := publishWhere acc.1 x.1 x.2 scope (p x.1) (fun e => e.below x.1 d mark)
        (fun g => g.num == num && g.holds.any fun y => y.1 == d && decide (y.2 < mark)) (if x.1 = d then mark else 0)
      (r.1, some (max r.2 (acc.2.getD 0)))) (s, none)

/-! ### Translation (R138, R139) -/

/-- The kinds of access (R434): load 0, store 1, instruction fetch 2, atomic 3. -/
inductive AccessKind where
  | load | store | fetch | atomic
  deriving DecidableEq, Repr

/-- The kind's code (R434). -/
def AccessKind.code : AccessKind → Nat
  | .load => 0
  | .store => 1
  | .fetch => 2
  | .atomic => 3

/-- The access writes. -/
def AccessKind.writes : AccessKind → Bool
  | .store => true
  | .atomic => true
  | _ => false

/-- How a walk or a check fails: a cause in S or H, or a table beyond physical memory. -/
inductive XlateFault where
  | cause (code : Nat) (stage2 : Bool)
  | absent (pa : Nat)
  deriving DecidableEq, Repr

/-- A table entry, 64 bits (R138). -/
structure PageEntry where
  addr : Nat
  sh   : Bool
  ex   : Bool
  wr   : Bool
  ua   : Bool
  attr : Nat
  tbl  : Bool
  v    : Bool
  zero : Bool
  deriving DecidableEq, Repr

/-- Read the fields of an entry; `zero` says that bits 63:52 are zero. -/
def PageEntry.ofNat (n : Nat) : PageEntry :=
  { addr := n / 256 % 2 ^ 44 * 256, sh := n / 128 % 2 == 1, ex := n / 64 % 2 == 1, wr := n / 32 % 2 == 1
    ua := n / 16 % 2 == 1, attr := n / 4 % 4, tbl := n / 2 % 2 == 1, v := n % 2 == 1, zero := n / 2 ^ 52 == 0 }

/-- The levels below a table: (low bit of the index, bits of the index, bits of the next table's size) (R138). -/
def stageOneLevels : List (Nat × Nat × Nat) := [(43, 13, 16), (30, 13, 12), (21, 9, 8), (16, 5, 0)]
def stageTwoLevels : List (Nat × Nat × Nat) := [(43, 9, 16), (30, 13, 12), (21, 9, 8), (16, 5, 0)]

/-- Walk one set of tables from `base` for address `a`: the leaf and the low bit of its page. `ia` translates the address
of a table entry to a physical one. -/
def walkTables (s : State) (ia : Nat → Except XlateFault Nat) (stage2 : Bool) (a : Nat) :
    List (Nat × Nat × Nat) → Nat → Except XlateFault (PageEntry × Nat)
  | [], _ => .error (.cause 6 stage2)
  | (lo, bits, next) :: ls, base =>
    match ia (base + 8 * (a / 2 ^ lo % 2 ^ bits)) with
    | .error e => .error e
    | .ok pa =>
      if hbmTop ≤ pa then .error (.absent pa)
      else
        let e := PageEntry.ofNat (homeNat s pa 8)
        let top := lo == 43
        let last := lo == 16
        if !e.v || !e.zero || (stage2 && (e.ua || e.sh)) || (top && !e.tbl) || (last && e.tbl) then .error (.cause 6 stage2)
        else if e.tbl then
          if e.addr % 2 ^ next != 0 then .error (.cause 6 stage2) else walkTables s ia stage2 a ls e.addr
        else if e.addr % 2 ^ lo != 0 then .error (.cause 6 stage2)
        else .ok (e, lo)

/-- Stage two of a context: an intermediate address to its leaf and page size; the identity when XSTG2 is zero (R138). -/
def stageTwo (s : State) (cx : Context) (ia : Nat) : Except XlateFault (PageEntry × Nat) :=
  if cx.xstg2 = 0 then .ok (⟨0, false, true, true, false, 0, false, true, true⟩, 52)
  else walkTables s (fun pa => .ok pa) true ia stageTwoLevels cx.xstg2.toNat

/-- The physical address of an intermediate one, a valid leaf sufficing. -/
def stageTwoAddr (s : State) (cx : Context) (ia : Nat) : Except XlateFault Nat :=
  match stageTwo s cx ia with
  | .error e => .error e
  | .ok (e, lo) => .ok (e.addr + ia % 2 ^ lo)

/-- A permission check of one stage. -/
def permitted (ex wr : Bool) (k : AccessKind) : Bool :=
  match k with
  | .load => true
  | .store => wr
  | .fetch => ex
  | .atomic => wr

/-- The whole walk for an access (R138): the translation to hold, or the first check that fails. -/
def walk (s : State) (ctx va : Nat) (mode : Mode) (k : AccessKind) : Except XlateFault TlbEntry :=
  let cx := s.context ctx
  match walkTables s (stageTwoAddr s cx) false va stageOneLevels cx.xptb.toNat with
  | .error e => .error e
  | .ok (e1, lo1) =>
    if (mode == .u && !e1.ua) || !permitted e1.ex e1.wr k then .error (.cause 7 false)
    else
      let ia := e1.addr + va % 2 ^ lo1
      match stageTwo s cx ia with
      | .error e => .error e
      | .ok (e2, lo2) =>
        if !permitted e2.ex e2.wr k then .error (.cause 7 true)
        else
          let pa := e2.addr + ia % 2 ^ lo2
          let bits := min lo1 lo2
          .ok { ctx := ctx, asid := cx.xasid.toNat, base := va / 2 ^ bits * 2 ^ bits, bits := bits
                pa := pa / 2 ^ bits * 2 ^ bits, attr := max e1.attr e2.attr, wr := e1.wr, ex := e1.ex, ua := e1.ua
                sh := e1.sh, wr2 := e2.wr, ex2 := e2.ex }

/-- A held translation covers an address of a context (R139). -/
def TlbEntry.covers (t : TlbEntry) (ctx asid va : Nat) : Bool :=
  t.ctx == ctx && t.asid == asid && va / 2 ^ t.bits * 2 ^ t.bits == t.base

/-- The permissions of a held translation, stage one before stage two (R138). -/
def TlbEntry.check (t : TlbEntry) (mode : Mode) (k : AccessKind) : Option XlateFault :=
  if (mode == .u && !t.ua) || !permitted t.ex t.wr k then some (.cause 7 false)
  else if !permitted t.ex2 t.wr2 k then some (.cause 7 true)
  else none

/-- What a translation attempt gives. -/
inductive Xlate where
  | hit (pa attr : Nat) (sh : Bool)
  | miss
  | fault (f : XlateFault)
  deriving DecidableEq, Repr

/-- The held translation of an address, in the core's TLB or the cluster's (R139). -/
def lookupTlb (s : State) (c ctx va : Nat) : Option TlbEntry :=
  let asid := (s.context ctx).xasid.toNat
  match (s.core c).tlb.find? fun t => t.covers ctx asid va with
  | some t => some t
  | none => (s.cluster (clusterOf c)).tlb.find? fun t => t.covers ctx asid va

/-- Translate for a team's own access on a core (R138, R139). -/
def translate (s : State) (c ctx va : Nat) (mode : Mode) (k : AccessKind) : Xlate :=
  if 2 ^ 56 ≤ va then .fault (.cause 6 false)
  else
    match lookupTlb s c ctx va with
    | none => .miss
    | some t =>
      match t.check mode k with
      | some f => .fault f
      | none => .hit (t.pa + (va - t.base)) t.attr t.sh

/-- Hold a translation in a core's TLB of 1,024 entries and the cluster's of 16,384, the newest first (R139). -/
def holdTranslation (s : State) (c : Nat) (t : TlbEntry) : State :=
  let s := s.modCore c fun core => { core with tlb := (t :: core.tlb).take 1024 }
  s.modCluster (clusterOf c) fun cl => { cl with tlb := (t :: cl.tlb).take 16384 }

/-- The physical address that the tables give an address now, whether a translation is held or not. -/
def physicalOf (s : State) (c ctx : Nat) (mode : Mode) (k : AccessKind) (va : Nat) : Option Nat :=
  match lookupTlb s c ctx va with
  | some e => some (e.pa + (va - e.base))
  | none =>
    match walk (syncDevice s) ctx va mode k with
    | .ok e => some (e.pa + (va - e.base))
    | .error _ => none

/-- Translate at once, walking when nothing is held: engines, frames and banks, which wait for their walks. -/
def translateNow (s : State) (c ctx va : Nat) (mode : Mode) (k : AccessKind) : State × Except XlateFault (Nat × Nat) :=
  match translate s c ctx va mode k with
  | .hit pa attr _ => (s, .ok (pa, attr))
  | .fault f => (s, .error f)
  | .miss =>
    let s := syncDevice s
    match walk s ctx va mode k with
    | .error e => (s, .error e)
    | .ok t => (holdTranslation s c t, .ok (t.pa + (va - t.base), t.attr))

end Sys2Proof.Machine
end

