-- ==== Sys2Proof/Machine/Aperture.lean ====
section
/-! DEFINITION. A core's on-chip memory as bytes: scratchpad, register file, accumulators and the control region of the
aperture (R127–R130, R133, R145, R169, R172, R216, R221, R254). -/

namespace Sys2Proof.Machine

/-! ### Scratchpad -/

/-- The first carved offset of a core (R132). -/
def Core.carveFrom (c : Core) : Nat := 1048576 - 1024 * c.carve

/-- Bytes of the scratchpad, and whether a word among them is poisoned (R271). -/
def scratchBytes (s : State) (core off n : Nat) : List Byte × Bool :=
  let c := s.core core
  ((List.range n).map fun i => Sparse.get 0#8 c.scratch (off + i),
    (List.range n).any fun i => Sparse.get false c.scratchPoison ((off + i) / 4))

/-- Write bytes to the scratchpad; a poisoned source marks each 4-byte word, a write of a whole word clears it (R272). -/
def scratchWrite (s : State) (core off : Nat) (bs : List Byte) (pois : Bool) : State :=
  s.modCore core fun c =>
    let mem := (bs.zipIdx).foldl (fun m bi => Sparse.set 0#8 m (off + bi.2) bi.1) c.scratch
    let words := (List.range ((off + bs.length + 3) / 4 - off / 4)).map (off / 4 + ·)
    let mark := words.foldl
      (fun m w =>
        if pois then Sparse.set false m w true
        else if off ≤ 4 * w ∧ 4 * w + 4 ≤ off + bs.length then Sparse.set false m w false
        else m)
      c.scratchPoison
    { c with scratch := mem, scratchPoison := mark }

/-- The bytes of a weight slot, and of the save area of a block (R192). -/
def slotBytes : Nat := 33792
def areaSize : Nat := 68672

/-! ### Tiles and barriers as bytes -/

/-- Word 4 of a tile entry (R133). -/
def Tile.status (t : Tile) : Word :=
  t.state.setWidth 32 ||| (if t.valid then 4#32 else 0#32) ||| (if t.eng then 8#32 else 0#32)

/-- The 32 bytes of a tile entry (R133). -/
def Tile.bytes (t : Tile) : List Byte :=
  [t.d0, t.d1, t.d2, t.d3, t.status].flatMap (fun w => leBytes 4 w.toNat) ++ zeroBytes 12

/-- A tile entry from its 32 bytes. -/
def Tile.ofBytes (bs : List Byte) : Tile :=
  let w := fun i => BitVec.ofNat 32 (fieldAt bs (4 * i) 4)
  { d0 := w 0, d1 := w 1, d2 := w 2, d3 := w 3, eng := (w 4).getLsbD 3, valid := (w 4).getLsbD 2, state := (w 4).setWidth 2 }

/-- A tile with VALID = 0 (R134). -/
def Tile.none : Tile := ⟨0, 0, 0, 0, false, false, 0⟩

/-- A barrier register at placement (R172). -/
def Barrier.fresh (now : Nat) : Barrier :=
  { phase := 0, lfault := false, fault := false, teams := 0, pend := 0, ext := 0, arrt := 0, exited := 0, waiters := 0
    opened := now, oldest := [], more := [], openAcq := (0, 0), acqs := [], openFlt := [], lastFlt := [], cmdClk := 0, clks := [] }

/-- The 64 bytes of a barrier register (R172). -/
def Barrier.bytes (b : Barrier) : List Byte :=
  leBytes 4 (b.pend + b.teams * 2 ^ 15 + (if b.fault then 2 ^ 20 else 0) + (if b.lfault then 2 ^ 21 else 0)
      + b.phase.toNat * 2 ^ 24)
    ++ leBytes 2 b.arrt.toNat ++ leBytes 2 (BitVec.ofInt 16 b.ext).toNat
    ++ leBytes 2 b.waiters.toNat ++ leBytes 2 b.exited.toNat ++ zeroBytes 4 ++ leBytes 8 b.opened ++ zeroBytes 8
    ++ (List.range 8).flatMap fun i => leBytes 4 (b.oldest.getD i 0xFFFFFFFF#32).toNat

/-- A barrier register from its 64 bytes; what the bytes do not carry stays as `old` has it. -/
def Barrier.ofBytes (old : Barrier) (bs : List Byte) : Barrier :=
  let w := fieldAt bs 0 4
  { old with
    pend := w % 2 ^ 12, teams := w / 2 ^ 15 % 32, fault := w / 2 ^ 20 % 2 == 1, lfault := w / 2 ^ 21 % 2 == 1
    phase := BitVec.ofNat 8 (w / 2 ^ 24), arrt := BitVec.ofNat 16 (fieldAt bs 4 2)
    ext := (BitVec.ofNat 16 (fieldAt bs 6 2)).toInt, waiters := BitVec.ofNat 16 (fieldAt bs 8 2)
    exited := BitVec.ofNat 16 (fieldAt bs 10 2), opened := fieldAt bs 16 8
    oldest := ((List.range 8).map fun i => BitVec.ofNat 32 (fieldAt bs (32 + 4 * i) 4)).filter fun x => x != 0xFFFFFFFF#32 }

/-- A block's tile and barrier. -/
def Block.tile (b : Block) (n : Nat) : Tile := (b.tiles.find n).getD Tile.none
def Block.setTile (b : Block) (n : Nat) (t : Tile) : Block := { b with tiles := b.tiles.put n t }
def Block.barrier (b : Block) (n : Nat) : Barrier := (b.barriers.find n).getD (Barrier.fresh 0)
def Block.setBarrier (b : Block) (n : Nat) (x : Barrier) : Block := { b with barriers := b.barriers.put n x }

/-! ### The other tables of the control region -/

/-- A range-lock entry (R169). -/
def RangeLock.bytes (l : RangeLock) : List Byte :=
  leBytes 8 (2 ^ 63 + (if l.dst then 2 ^ 62 else 0) + (if l.isLocal then 2 ^ 61 else 0) + l.ctx % 4 * 2 ^ 59
      + l.slot % 4 * 2 ^ 57 + l.base / 128 * 128)
    ++ leBytes 8 l.len ++ leBytes 8 l.cid.toNat ++ leBytes 8 l.time

/-- The log control region (R145). -/
def logControlBytes (s : State) (core : Nat) : List Byte :=
  let c := s.core core
  ((List.range 4).flatMap fun t =>
    match c.ctxLogs.find t with
    | some r =>
      leBytes 4 r.tail ++ leBytes 4 r.pubPos ++ leBytes 4 (s.foldPos core t) ++ leBytes 4 (c.spilled t) ++ leBytes 8 r.ovfBase.toNat
        ++ leBytes 4 (r.ctx + 2 ^ 31) ++ zeroBytes 228
    | none => zeroBytes 256)
  ++ leBytes 8 c.counter ++ leBytes 4 (ringSize - c.ringUsed) ++ zeroBytes 1012

/-- The mode's code (R93). -/
def Mode.code : Mode → Nat
  | .u => 0
  | .s => 1
  | .h => 2

/-- A team-context record (R221). -/
def teamContextBytes (s : State) (k : Nat) : List Byte :=
  match s.team k with
  | none => zeroBytes 32
  | some t =>
    let b := s.blockOf t
    leBytes 4 t.tbase ++ leBytes 2 (32 * t.words) ++ leBytes 1 ((b.map (·.vregs)).getD 0)
      ++ leBytes 1 (1 + (b.map (·.slot)).getD 0 * 2 + t.mode.code * 8 + t.depth * 32) ++ leBytes 4 t.pc
      ++ leBytes 8 t.waitSince ++ zeroBytes 12

/-- A monitor-table entry (R254). -/
def Monitor.bytes (m : Monitor) : List Byte :=
  leBytes 8 ((if m.armed then 1 else 0) + (if m.waiting then 2 else 0)) ++ leBytes 8 (if m.armed then 128 * m.sector else 0)
    ++ leBytes 8 m.armTime ++ leBytes 8 m.waitTime

/-- The debug block (R216). -/
def debugBytes (c : Core) : List Byte :=
  ((List.range 16).flatMap fun x => leBytes 4 (if Sparse.get false c.steps x then 1 else 0))
  ++ ((List.range 4).flatMap fun w =>
    match c.watches.find w with
    | some x => leBytes 8 (x.base.toNat % 2 ^ 56) ++ leBytes 4 x.len.toNat ++ zeroBytes 4 ++ leBytes 1 (x.kind.toNat % 4)
        ++ zeroBytes 1 ++ leBytes 2 x.asid.toNat ++ zeroBytes 12
    | none => zeroBytes 32)
  ++ zeroBytes (1024 - 192)

/-- The block in a slot of a core. -/
def State.blockKey (core slot : Nat) : Nat := 4 * core + slot

/-- The control region of a core at an offset from 0x80_0000, as `n` bytes (R127, R253); none where reserved. -/
def controlByte (s : State) (core off : Nat) : Option Byte :=
  if off < 0x2000 then
    match s.block (State.blockKey core (off / 2048)) with
    | some b => (b.tile (off / 32 % 64)).bytes[off % 32]?
    | none => some (Sparse.get 0#8 (s.core core).spare (0x800000 + off))
  else if 0x4000 ≤ off ∧ off < 0x5000 then
    let o := off - 0x4000
    match s.block (State.blockKey core (o / 1024)) with
    | some b => (b.barrier (o / 64 % 16)).bytes[o % 64]?
    | none => some (Sparse.get 0#8 (s.core core).spare (0x800000 + off))
  else if 0x8000 ≤ off ∧ off < 0x8800 then
    match (s.core core).locks.find ((off - 0x8000) / 32) with
    | some l => l.bytes[off % 32]?
    | none => some 0#8
  else if 0x9000 ≤ off ∧ off < 0x9800 then (logControlBytes s core)[off - 0x9000]?
  else if 0x9800 ≤ off ∧ off < 0x9A00 then (teamContextBytes s (16 * core + (off - 0x9800) / 32))[off % 32]?
  else if 0x9A00 ≤ off ∧ off < 0x9C00 then
    (((s.team (16 * core + (off - 0x9A00) / 32)).map (·.monitor)).getD Monitor.clear).bytes[off % 32]?
  else if 0x9C00 ≤ off ∧ off < 0xA000 then (debugBytes (s.core core))[off - 0x9C00]?
  else none

/-- The register element a register-file offset holds: team key and element key (R127, R221). -/
def regfileElement (s : State) (core off : Nat) : Option (Nat × Nat) :=
  (s.teams.find? fun kt =>
    coreOfTeam kt.1 == core && decide (kt.2.tbase ≤ off)
      && decide (off < kt.2.tbase + 128 * kt.2.words * ((s.blockOf kt.2).map (·.vregs)).getD 0)).map fun kt =>
    let i := (off - kt.2.tbase) / 4
    (kt.1, 1024 * (i / (32 * kt.2.words)) + i % (32 * kt.2.words))

/-- The accumulator element a byte of the accumulator window lies in: 128 × row + column (R127). -/
def accIndex (off : Nat) : Nat := off / 8

/-- A byte of a core's window and its poison; none where reserved or carved (R127, R132). -/
def apertureByte (s : State) (core off : Nat) : Option (Byte × Bool) :=
  let c := s.core core
  if off < 0x100000 then
    if c.carveFrom ≤ off then none else some (Sparse.get 0#8 c.scratch off, Sparse.get false c.scratchPoison (off / 4))
  else if 0x400000 ≤ off ∧ off < 0x480000 then
    match regfileElement s core (off - 0x400000) with
    | some (k, e) =>
      match s.team k with
      | some t => some (((Sparse.get 0#32 t.regs.v e) >>> (8 * (off % 4))).setWidth 8, Sparse.get false t.regs.vPoison e)
      | none => some (0#8, false)
    | none => some (Sparse.get 0#8 c.spare off, false)
  else if 0x600000 ≤ off ∧ off < 0x680000 then
    let i := accIndex (off - 0x600000)
    some (((Sparse.get 0#64 c.acc i) >>> (8 * (off % 8))).setWidth 8, Sparse.get false c.accPoison i)
  else if 0x800000 ≤ off ∧ off < 0x80A000 then (controlByte s core (off - 0x800000)).map fun b => (b, false)
  else none

/-- A team has an `MDRN` or `MRST` outstanding. -/
def Team.saving (t : Team) : Bool := t.ops.any fun o => o.area.isSome

/-- The save area of an outstanding `MDRN` or `MRST` that holds a byte of a scratchpad: its team's block, its offset, the bytes that
`MDRN` found there (R369). -/
def openArea (s : State) (core off : Nat) : Option (Nat × Nat × List Byte) :=
  s.teams.findSome? fun kt => kt.2.ops.findSome? fun o =>
    match o.area with
    | some (c, base, old) => if c = core ∧ base ≤ off ∧ off < base + areaSize then some (kt.2.block, base, old) else none
    | none => none

/-- The other value of a byte whose register or accumulator element an engine copy wrote in a phase not completed (R128, R295), or that
an `MDRN` not completed wrote to its area (R369). -/
def otherByte (s : State) (core off : Nat) : Option Byte :=
  if off < 0x100000 then (openArea s core off).bind fun a => a.2.2[off - a.2.1]?
  else if 0x400000 ≤ off ∧ off < 0x480000 then
    match regfileElement s core (off - 0x400000) with
    | none => none
    | some (k, e) =>
      (s.team k).bind fun t =>
        (t.ops.findSome? fun o => if o.till.isSome then o.vDest.find? fun x => x.1 == e else none).map
          fun (x : Nat × Word × Bool) => (x.2.1 >>> (8 * (off % 4))).setWidth 8
  else if 0x600000 ≤ off ∧ off < 0x680000 then
    ((s.core core).accOpen.find? fun x => x.1 == accIndex (off - 0x600000)).map
      fun (x : Nat × BitVec 64 × Nat × Nat) => (x.2.1 >>> (8 * (off % 8))).setWidth 8
  else none

/-- A byte of a core's window as a team reads it: of an open 4-byte element, the old value or the new (R128). -/
def apertureSeen (s : State) (core off : Nat) : Option (Byte × Bool) :=
  (apertureByte s core off).map fun x =>
    match otherByte s core off with
    | some o => if Config.pickNew s.tick (0x1000000 * core + off / 4) then x else (o, x.2)
    | none => x

/-- Bytes of a scratchpad as a team reads them (R369). -/
def scratchSeen (s : State) (core off n : Nat) : List Byte × Bool :=
  if s.teams.any fun kt => kt.2.saving then
    let bs := (List.range n).map fun i => (apertureSeen s core (off + i)).getD (0#8, false)
    (bs.map (·.1), bs.any (·.2))
  else scratchBytes s core off n

/-- An `MRST` not completed may read a byte that is stored to its area: a slot it filled holds it then (R369). -/
def restoreByte (s : State) (core bk at' : Nat) (b : Byte) : State :=
  if 64 ≤ at' ∧ at' < 64 + 2 * slotBytes then
    let i := (at' - 64) / slotBytes
    s.modCluster (clusterOf core) fun c =>
      { c with slots := c.slots.update (2 * bk + i) fun w => { w with bytes := Sparse.set 0#8 w.bytes ((at' - 64) % slotBytes) b } }
  else s

/-- A team's store of part of one 4-byte element of a scratchpad: in the area of an `MDRN` or `MRST` not completed, whether the area keeps
it and whether the engine reads it is free (R369, log entry 2). -/
def storeElement (s : State) (core off : Nat) (bs : List Byte) : State :=
  let pick := Config.pickNew s.tick (0x40000000 + 0x1000000 * core + off / 4)
  match openArea s core off with
  | none => scratchWrite s core off bs false
  | some (_, _, _ :: _) => if pick then scratchWrite s core off bs false else s
  | some (bk, base, []) =>
    let s := scratchWrite s core off bs false
    if pick then (bs.zipIdx).foldl (fun s x => restoreByte s core bk (off + x.2 - base) x.1) s else s

/-- A team stores bytes to a scratchpad, element by element while an `MDRN` or `MRST` is outstanding (R369). -/
def scratchStore (s : State) (core off : Nat) (bs : List Byte) : State :=
  if s.teams.any fun kt => kt.2.saving then
    (List.range ((off + bs.length + 3) / 4 - off / 4)).foldl
      (fun s j =>
        let lo := max off (4 * (off / 4 + j))
        let hi := min (off + bs.length) (4 * (off / 4 + j) + 4)
        storeElement s core lo ((bs.drop (lo - off)).take (hi - lo))) s
  else scratchWrite s core off bs false

/-- An engine reaches an offset of a core's window: scratchpad outside the carve-out, register file, accumulators (R127, R132). -/
def engineReaches (s : State) (core off : Nat) : Bool := decide (off < 0x800000) && (apertureByte s core off).isSome

/-- A byte in place `i` of a wider number. -/
def putByteAt {n : Nat} (w : BitVec n) (i : Nat) (b : Byte) : BitVec n :=
  (w &&& ~~~((BitVec.ofNat n 0xFF) <<< (8 * i))) ||| ((b.setWidth n) <<< (8 * i))

/-- Replace element `i` of a list of bytes. -/
def setByte (bs : List Byte) (i : Nat) (b : Byte) : List Byte := bs.set i b

/-- Write a byte of the control region as H does (R127, R145, R216): tiles, barriers, log control, debug block. -/
def controlWrite (s : State) (core off : Nat) (b : Byte) : State :=
  let free := s.modCore core fun c => { c with spare := Sparse.set 0#8 c.spare (0x800000 + off) b }
  if off < 0x2000 then
    let key := State.blockKey core (off / 2048)
    if (s.block key).isNone then free
    else s.modBlock key fun x =>
      let n := off / 32 % 64
      x.setTile n (Tile.ofBytes (setByte (x.tile n).bytes (off % 32) b))
  else if 0x4000 ≤ off ∧ off < 0x5000 then
    let o := off - 0x4000
    let key := State.blockKey core (o / 1024)
    if (s.block key).isNone then free
    else s.modBlock key fun x =>
      let n := o / 64 % 16
      x.setBarrier n (Barrier.ofBytes (x.barrier n) (setByte (x.barrier n).bytes (o % 64) b))
  else if 0x9000 ≤ off ∧ off < 0x9400 then
    let o := off - 0x9000
    let c := s.core core
    let r := (c.ctxLogs.find (o / 256)).getD ⟨0, 0, 0, 0⟩
    let i := o % 256
    let put := fun (w base : Nat) => (putByteAt (BitVec.ofNat 64 w) (i - base) b).toNat
    let r' :=
      if i < 4 then { r with tail := put r.tail 0 % 2 ^ 32 }
      else if i < 8 then { r with pubPos := put r.pubPos 4 % 2 ^ 32 }
      else if 16 ≤ i ∧ i < 24 then { r with ovfBase := putByteAt r.ovfBase (i - 16) b }
      else if 24 ≤ i ∧ i < 26 then { r with ctx := put r.ctx 24 % 2 ^ 16 }
      else r
    s.setCore core { c with ctxLogs := c.ctxLogs.put (o / 256) r' }
  else if 0x9400 ≤ off ∧ off < 0x9406 then
    s.modCore core fun c => { c with counter := (putByteAt (BitVec.ofNat 48 c.counter) (off - 0x9400) b).toNat }
  else if 0x9C00 ≤ off ∧ off < 0x9C40 then
    if off % 4 = 0 then s.modCore core fun c => { c with steps := Sparse.set false c.steps ((off - 0x9C00) / 4) (b.getLsbD 0) }
    else s
  else if 0x9C40 ≤ off ∧ off < 0x9CC0 then
    let w := (off - 0x9C40) / 32
    let i := off % 32
    s.modCore core fun c =>
      let x := (c.watches.find w).getD ⟨0, 0, 0, 0⟩
      let x' :=
        if i < 7 then { x with base := putByteAt x.base i b }
        else if 8 ≤ i ∧ i < 12 then { x with len := putByteAt x.len (i - 8) b }
        else if i = 16 then { x with kind := b &&& 3#8 }
        else if 18 ≤ i ∧ i < 20 then { x with asid := putByteAt x.asid (i - 18) b }
        else x
      { c with watches := c.watches.put w x' }
  else s

/-- Write a byte of a core's window (R127). -/
def apertureWriteByte (s : State) (core off : Nat) (b : Byte) (pois : Bool) : State :=
  if off < 0x100000 then scratchWrite s core off [b] pois
  else if 0x400000 ≤ off ∧ off < 0x480000 then
    match regfileElement s core (off - 0x400000) with
    | some (k, e) =>
      s.modTeam k fun t =>
        { t with regs := { t.regs with
            v := Sparse.set 0#32 t.regs.v e (putByteAt (Sparse.get 0#32 t.regs.v e) (off % 4) b)
            vPoison := Sparse.set false t.regs.vPoison e pois } }
    | none => s.modCore core fun c => { c with spare := Sparse.set 0#8 c.spare off b }
  else if 0x600000 ≤ off ∧ off < 0x680000 then
    let i := accIndex (off - 0x600000)
    s.modCore core fun c =>
      { c with acc := Sparse.set 0#64 c.acc i (putByteAt (Sparse.get 0#64 c.acc i) (off % 8) b)
               accPoison := if pois then Sparse.set false c.accPoison i true else c.accPoison }
  else if 0x800000 ≤ off ∧ off < 0x80A000 then controlWrite s core (off - 0x800000) b
  else s

/-- Write bytes of a core's window; an accumulator element written whole loses its poison (R272). -/
def apertureWrite (s : State) (core off : Nat) (bs : List Byte) (pois : Bool) : State :=
  let s := (bs.zipIdx).foldl (fun s bi => apertureWriteByte s core (off + bi.2) bi.1 pois) s
  if 0x600000 ≤ off ∧ off < 0x680000 ∧ pois = false then
    let lo := (off - 0x600000 + 7) / 8
    let hi := (off - 0x600000 + bs.length) / 8
    s.modCore core fun c =>
      { c with accPoison := ((List.range (hi - lo)).map (lo + ·)).foldl (fun m i => Sparse.set false m i false) c.accPoison }
  else s

/-- A team stores bytes to a core's window (R127, R369). -/
def apertureStore (s : State) (core off : Nat) (bs : List Byte) : State :=
  if off < 0x100000 then scratchStore s core off bs else apertureWrite s core off bs false

/-- A block or a team leaves: the bytes that it showed in the window stay there (R127). -/
def Core.keepBytes (c : Core) (at0 : Nat) (bs : List Byte) : Core :=
  { c with spare := (bs.zipIdx).foldl (fun m x => Sparse.set 0#8 m (at0 + x.2) x.1) c.spare }

/-- The offsets of a stretch of the window that a block or a team gives a meaning again. -/
def Core.takeBytes (c : Core) (at0 n : Nat) : Core :=
  { c with spare := c.spare.filter fun x => !decide (at0 ≤ x.1 ∧ x.1 < at0 + n) }

/-- The vector elements that a team holds in the register file: offset in the window, value (R221). -/
def Team.fileElements (t : Team) (vregs : Nat) : List (Nat × Word) :=
  t.regs.v.filterMap fun x =>
    let r := x.1 / 1024
    let l := x.1 % 1024
    if r < vregs ∧ l < 32 * t.words then some (0x400000 + t.tbase + 4 * (32 * t.words * r + l), x.2) else none

/-- What a leaving block and its teams showed in the window (R127). -/
def keepBlock (s : State) (key : Nat) : State :=
  match s.block key with
  | none => s
  | some b =>
    let s := s.modCore b.core fun c =>
      let c := b.tiles.foldl (fun c x => c.keepBytes (0x800000 + 2048 * b.slot + 32 * x.1) x.2.bytes) c
      (List.range 16).foldl (fun c n => c.keepBytes (0x804000 + 1024 * b.slot + 64 * n) (b.barrier n).bytes) c
    (s.teamsOfBlock key).foldl
      (fun s kt => s.modCore b.core fun c =>
        (kt.2.fileElements b.vregs).foldl (fun c x => c.keepBytes x.1 (leBytes 4 x.2.toNat)) c) s

/-- A placed block and its teams take their stretches of the window. -/
def takeBlock (s : State) (key : Nat) : State :=
  match s.block key with
  | none => s
  | some b =>
    let s := s.modCore b.core fun c => (c.takeBytes (0x800000 + 2048 * b.slot) 2048).takeBytes (0x804000 + 1024 * b.slot) 1024
    (s.teamsOfBlock key).foldl
      (fun s kt => s.modCore b.core fun c => c.takeBytes (0x400000 + kt.2.tbase) (128 * kt.2.words * b.vregs)) s

/-- May a team in a mode read, or write, an offset of a core's window (R127, R132, R216)? -/
def apertureAllows (s : State) (mode : Mode) (core off : Nat) (write : Bool) : Bool :=
  if mode = .u then false
  else if (apertureByte s core off).isNone then false
  else if off < 0x800000 then true
  else if !write then true
  else if mode ≠ .h then false
  else if 0x809C00 ≤ off then true
  else if 0x808000 ≤ off ∧ off < 0x808800 then false
  else if 0x809800 ≤ off then false
  else
    -- the control region is H's to write only while no team of the owning block is resident (R127)
    let owner :=
      if off < 0x802000 then s.block (State.blockKey core ((off - 0x800000) / 2048))
      else if 0x804000 ≤ off ∧ off < 0x805000 then s.block (State.blockKey core ((off - 0x804000) / 1024))
      else (s.blocksOfCore core).head?.map (·.2)
    owner.isNone

end Sys2Proof.Machine
end

