-- ==== Sys2Proof/Machine/Float.lean ====
section
/-! DEFINITION. Binary floating point to the bit (R104–R109, R111, R120, R123): a format's patterns are read into exact
values, the arithmetic is exact on integers and powers of two, and one rounding narrows the result. -/

namespace Sys2Proof.Machine

/-- A binary format by exponent and fraction widths (R104). -/
structure FpFmt where
  expBits  : Nat
  fracBits : Nat
  deriving DecidableEq, Repr

/-- FP32 (R104). -/
def FpFmt.f32 : FpFmt := ⟨8, 23⟩
/-- BF16 (R104). -/
def FpFmt.bf16 : FpFmt := ⟨8, 7⟩
/-- FP16 (R104). -/
def FpFmt.fp16 : FpFmt := ⟨5, 10⟩

/-- The exponent bias (R104). -/
def FpFmt.bias (f : FpFmt) : Nat := 2 ^ (f.expBits - 1) - 1
/-- The position of the sign bit. -/
def FpFmt.signBit (f : FpFmt) : Nat := f.expBits + f.fracBits
/-- The exponent of the smallest normal value (R104). -/
def FpFmt.emin (f : FpFmt) : Int := 1 - (f.bias : Int)

/-- An exact value: `fin n m e` is (−1)^n × m × 2^e. -/
inductive Fp where
  | nan (signalling : Bool)
  | inf (neg : Bool)
  | fin (neg : Bool) (m : Nat) (e : Int)
  deriving DecidableEq, Repr

/-- Rounding modes of R106. -/
inductive Rounding where
  | rne | rtz | rup | rdn | rto
  deriving DecidableEq, Repr

/-- The sticky flags an operation raises (R88: invalid 0, divide-by-zero 1, overflow 2, underflow 3, inexact 4). -/
abbrev FpFlags := BitVec 5

def flagInvalid : FpFlags := 1#5
def flagDivZero : FpFlags := 2#5
def flagOverflow : FpFlags := 4#5
def flagUnderflow : FpFlags := 8#5
def flagInexact : FpFlags := 16#5

/-- A flag if a condition holds. -/
def flagIf (b : Bool) (f : FpFlags) : FpFlags := if b then f else 0#5

/-- Read a pattern (R104). Only the format's low bits of `w` count. -/
def FpFmt.read (f : FpFmt) (w : Nat) : Fp :=
  let frac := w % 2 ^ f.fracBits
  let ex := w / 2 ^ f.fracBits % 2 ^ f.expBits
  let neg := w / 2 ^ f.signBit % 2 == 1
  if ex = 2 ^ f.expBits - 1 then
    if frac = 0 then .inf neg else .nan (frac / 2 ^ (f.fracBits - 1) == 0)
  else if ex = 0 then .fin neg frac (f.emin - f.fracBits)
  else .fin neg (2 ^ f.fracBits + frac) ((ex : Int) - f.bias - f.fracBits)

/-- The canonical NaN (R104, R107). -/
def FpFmt.canonical (f : FpFmt) : Nat := (2 ^ f.expBits - 1) * 2 ^ f.fracBits + 2 ^ (f.fracBits - 1)
/-- An infinity's pattern. -/
def FpFmt.infinity (f : FpFmt) (neg : Bool) : Nat :=
  (if neg then 2 ^ f.signBit else 0) + (2 ^ f.expBits - 1) * 2 ^ f.fracBits
/-- The largest finite pattern (R104). -/
def FpFmt.largest (f : FpFmt) (neg : Bool) : Nat := f.infinity neg - 1
/-- A zero's pattern. -/
def FpFmt.zero (f : FpFmt) (neg : Bool) : Nat := if neg then 2 ^ f.signBit else 0

/-- Does a discarded part round the magnitude up? `rem` of `2 ^ sh` was cut off the integer `q`. -/
def roundsUp (mode : Rounding) (neg : Bool) (q rem sh : Nat) : Bool :=
  match mode with
  | .rne => decide (2 ^ sh < 2 * rem) || (decide (2 * rem = 2 ^ sh) && q % 2 == 1)
  | .rtz => false
  | .rup => !neg && rem != 0
  | .rdn => neg && rem != 0
  | .rto => rem != 0 && q % 2 == 0

/-- m × 2^e rounded to a multiple of 2^qe: the multiple, and whether it differs from the exact value. -/
def roundAt (mode : Rounding) (neg : Bool) (m : Nat) (e qe : Int) : Nat × Bool :=
  if qe ≤ e then (m * 2 ^ (e - qe).toNat, false)
  else
    let sh := (qe - e).toNat
    let q := m / 2 ^ sh
    let rem := m % 2 ^ sh
    (if roundsUp mode neg q rem sh then q + 1 else q, rem != 0)

/-- The exponent of the leading bit of m × 2^e, for m > 0. -/
def leadExp (m : Nat) (e : Int) : Int := (Nat.log2 m : Int) + e

/-- The pattern of q × 2^qe when it is representable: normal when q has its full width, else subnormal. -/
def FpFmt.pack (f : FpFmt) (neg : Bool) (q : Nat) (qe : Int) : Nat :=
  let s := f.zero neg
  if q = 0 then s
  else
    let up := f.fracBits - Nat.log2 q
    let q' := if qe - up < f.emin - f.fracBits then q * 2 ^ (qe - (f.emin - f.fracBits)).toNat else q * 2 ^ up
    let qe' := if qe - up < f.emin - f.fracBits then f.emin - f.fracBits else qe - up
    if q' < 2 ^ f.fracBits then s + q'
    else s + ((qe' - (f.emin - f.fracBits)).toNat * 2 ^ f.fracBits) + q'

/-- What R106 gives for an overflow. -/
def FpFmt.overflowed (f : FpFmt) (mode : Rounding) (neg : Bool) : Nat :=
  match mode with
  | .rne => f.infinity neg
  | .rtz => f.largest neg
  | .rup => if neg then f.largest neg else f.infinity neg
  | .rdn => if neg then f.infinity neg else f.largest neg
  | .rto => f.largest neg

/-- One rounding of the exact value (−1)^neg × m × 2^e (R106) with its flags (R109). -/
def FpFmt.round (f : FpFmt) (mode : Rounding) (neg : Bool) (m : Nat) (e : Int) : Nat × FpFlags :=
  if m = 0 then (f.zero neg, 0#5)
  else
    let ex := leadExp m e
    let free := roundAt mode neg m e (ex - f.fracBits)
    let qe := if ex < f.emin then f.emin - f.fracBits else ex - f.fracBits
    let r := roundAt mode neg m e qe
    -- rounding may carry into the next binade
    let carried := r.1 == 2 ^ (f.fracBits + 1)
    let q := if carried then r.1 / 2 else r.1
    let qe' := if carried then qe + 1 else qe
    if (f.bias : Int) < qe' + f.fracBits ∧ 2 ^ f.fracBits ≤ q then
      (f.overflowed mode neg, flagOverflow ||| flagInexact)
    else
      let tiny := decide (ex < f.emin) && !(decide (ex + 1 = f.emin) && free.1 == 2 ^ (f.fracBits + 1))
      (f.pack neg q qe', flagIf (r.2 && tiny) flagUnderflow ||| flagIf r.2 flagInexact)

/-- A signed integer times a power of two, rounded; `zeroNeg` is the sign of an exact zero. -/
def FpFmt.roundInt (f : FpFmt) (mode : Rounding) (zeroNeg : Bool) (z : Int) (e : Int) : Nat × FpFlags :=
  if z = 0 then (f.zero zeroNeg, 0#5) else f.round mode (decide (z < 0)) z.natAbs e

/-- A value is a signalling NaN. -/
def Fp.signalling : Fp → Bool
  | .nan s => s
  | _ => false

/-- A value is a NaN. -/
def Fp.isNan : Fp → Bool
  | .nan _ => true
  | _ => false

/-- Flip the sign of a value that is no NaN. -/
def Fp.negate : Fp → Fp
  | .nan s => .nan s
  | .inf n => .inf (!n)
  | .fin n m e => .fin (!n) m e

/-- m with its sign. -/
def signedMant (neg : Bool) (m : Nat) : Int := if neg then -(m : Int) else m

/-- The exact sum of two finite values as an integer times 2^e, with e the lesser exponent. -/
def exactSum (n1 : Bool) (m1 : Nat) (e1 : Int) (n2 : Bool) (m2 : Nat) (e2 : Int) : Int × Int :=
  let e := min e1 e2
  (signedMant n1 (m1 * 2 ^ (e1 - e).toNat) + signedMant n2 (m2 * 2 ^ (e2 - e).toNat), e)

/-- The sign of a zero sum (R106). -/
def zeroSumNeg (mode : Rounding) (n1 n2 : Bool) : Bool :=
  if n1 = n2 then n1 else decide (mode = .rdn)

/-- a + b, rounded once (R106, R107). -/
def FpFmt.add (f : FpFmt) (mode : Rounding) (a b : Fp) : Nat × FpFlags :=
  match a, b with
  | .nan s, y => (f.canonical, flagIf (s || y.signalling) flagInvalid)
  | x, .nan s => (f.canonical, flagIf (s || x.signalling) flagInvalid)
  | .inf n1, .inf n2 => if n1 = n2 then (f.infinity n1, 0#5) else (f.canonical, flagInvalid)
  | .inf n, _ => (f.infinity n, 0#5)
  | _, .inf n => (f.infinity n, 0#5)
  | .fin n1 m1 e1, .fin n2 m2 e2 =>
    let r := exactSum n1 m1 e1 n2 m2 e2
    f.roundInt mode (zeroSumNeg mode n1 n2) r.1 r.2

/-- The exact product; `none` where it is invalid (0 × ∞). -/
def Fp.mul (a b : Fp) : Option Fp :=
  match a, b with
  | .nan s, y => some (.nan (s || y.signalling))
  | x, .nan s => some (.nan (s || x.signalling))
  | .inf n1, .inf n2 => some (.inf (n1 != n2))
  | .inf n1, .fin n2 m _ => if m = 0 then none else some (.inf (n1 != n2))
  | .fin n1 m _, .inf n2 => if m = 0 then none else some (.inf (n1 != n2))
  | .fin n1 m1 e1, .fin n2 m2 e2 => some (.fin (n1 != n2) (m1 * m2) (e1 + e2))

/-- a × b, rounded once. -/
def FpFmt.mul (f : FpFmt) (a b : Fp) : Nat × FpFlags :=
  match Fp.mul a b with
  | none => (f.canonical, flagInvalid)
  | some (.nan s) => (f.canonical, flagIf s flagInvalid)
  | some (.inf n) => (f.infinity n, 0#5)
  | some (.fin n m e) => f.round .rne n m e

/-- a × b + c, rounded once; 0 × ∞ is invalid even under a quiet NaN addend (R107). -/
def FpFmt.fma (f : FpFmt) (a b c : Fp) : Nat × FpFlags :=
  match Fp.mul a b with
  | none => (f.canonical, flagInvalid)
  | some p => f.add .rne p c

/-- key32 of R123 over an FP32 pattern. -/
def key32 (b : Word) : Word :=
  if (FpFmt.f32.read b.toNat).isNan then 0xFFFFFFFF#32
  else if b.getLsbD 31 then ~~~b else b ^^^ 0x80000000#32

/-- key64 of R123. -/
def key64 (b index : Word) : BitVec 64 := key32 b ++ (0xFFFFFFFF#32 - index)

/-- Exact order of two values that are no NaN, ±0 equal: is a < b, and is a = b. -/
def Fp.lt : Fp → Fp → Bool
  | .nan _, _ => false
  | _, .nan _ => false
  | .inf n1, .inf n2 => n1 && !n2
  | .inf n1, .fin _ _ _ => n1
  | .fin _ _ _, .inf n2 => !n2
  | .fin n1 m1 e1, .fin n2 m2 e2 => decide ((exactSum n1 m1 e1 (!n2) m2 e2).1 < 0)

/-- Equality of values (quiet, ±0 equal). -/
def Fp.eq : Fp → Fp → Bool
  | .nan _, _ => false
  | _, .nan _ => false
  | .inf n1, .inf n2 => n1 == n2
  | .inf _, .fin _ _ _ => false
  | .fin _ _ _, .inf _ => false
  | .fin n1 m1 e1, .fin n2 m2 e2 => decide ((exactSum n1 m1 e1 (!n2) m2 e2).1 = 0)

/-- The sign of a value that is no NaN. -/
def Fp.neg : Fp → Bool
  | .nan _ => false
  | .inf n => n
  | .fin n _ _ => n

/-- Strictly below in the order of `FMIN` and `FMAX`, where −0 lies below +0 (R107). -/
def Fp.below (a b : Fp) : Bool := Fp.lt a b || (Fp.eq a b && a.neg && !b.neg)

/-- `FMIN` (`wantMax = false`) and `FMAX` of two patterns (R107); with `other` the forms `FMINN`, `FMAXN`. -/
def FpFmt.minmax (f : FpFmt) (wantMax other : Bool) (x y : Nat) : Nat × FpFlags :=
  let a := f.read x
  let b := f.read y
  let fl := flagIf (a.signalling || b.signalling) flagInvalid
  if a.isNan && b.isNan then (f.canonical, fl)
  else if a.isNan then (if other then y else f.canonical, fl)
  else if b.isNan then (if other then x else f.canonical, fl)
  else if wantMax then (if Fp.below a b then y else x, fl)
  else (if Fp.below b a then y else x, fl)

/-- Truncate a format's pattern to its own width. -/
def FpFmt.clip (f : FpFmt) (w : Nat) : Nat := w % 2 ^ (f.signBit + 1)

/-- A pattern of one format as a pattern of another, rounded under a mode; a NaN gives the canonical NaN (R107, R108).
`sat` turns a finite overflow into the largest finite value. -/
def FpFmt.convert (src dst : FpFmt) (mode : Rounding) (sat : Bool) (w : Nat) : Nat × FpFlags :=
  match src.read w with
  | .nan s => (dst.canonical, flagIf s flagInvalid)
  | .inf n => (dst.infinity n, 0#5)
  | .fin n m e =>
    let r := dst.round mode n m e
    if sat && (r.2 &&& flagOverflow != 0#5) then (dst.largest n, r.2) else r

/-- FP32 operations on words. -/
def f32Add (mode : Rounding) (a b : Word) : Word × FpFlags :=
  let r := FpFmt.f32.add mode (FpFmt.f32.read a.toNat) (FpFmt.f32.read b.toNat)
  (BitVec.ofNat 32 r.1, r.2)

/-- RN(a + b) without flags. -/
def rnAdd (a b : Word) : Word := (f32Add .rne a b).1
/-- Flip the sign bit (R107: the payload is kept). -/
def f32Neg (a : Word) : Word := a ^^^ 0x80000000#32
/-- RN(a − b) without flags. -/
def rnSub (a b : Word) : Word := rnAdd a (f32Neg b)
/-- RN(a × b) with flags. -/
def f32Mul (a b : Word) : Word × FpFlags :=
  let r := FpFmt.f32.mul (FpFmt.f32.read a.toNat) (FpFmt.f32.read b.toNat)
  (BitVec.ofNat 32 r.1, r.2)
/-- RN(a × b + c) with flags. -/
def f32Fma (a b c : Word) : Word × FpFlags :=
  let r := FpFmt.f32.fma (FpFmt.f32.read a.toNat) (FpFmt.f32.read b.toNat) (FpFmt.f32.read c.toNat)
  (BitVec.ofNat 32 r.1, r.2)

/-- A pattern is an infinity or a NaN. -/
def notFinite (w : Word) : Bool := (w >>> 23) &&& 0xFF#32 == 0xFF#32

/-- Is a pattern a NaN. -/
def isNan32 (w : Word) : Bool := notFinite w && (w &&& 0x7FFFFF#32 != 0#32)

/-- The exact error of a two-sum: hi + d − t, which is an FP32 value (R111). -/
def sumError (hi d t : Word) : Word :=
  match FpFmt.f32.read hi.toNat, FpFmt.f32.read d.toNat, FpFmt.f32.read t.toNat with
  | .fin n1 m1 e1, .fin n2 m2 e2, .fin n3 m3 e3 =>
    let a := exactSum n1 m1 e1 n2 m2 e2
    let b := exactSum (decide (a.1 < 0)) a.1.natAbs a.2 (!n3) m3 e3
    BitVec.ofNat 32 (FpFmt.f32.roundInt .rne false b.1 b.2).1
  | _, _, _ => 0#32

/-- Fold an FP32 addend into a DF32 element (hi, lo) (R111). -/
def df32Fold (hi lo d : Word) : Word × Word :=
  let t := rnAdd hi d
  if notFinite t then (t, 0#32)
  else
    let e := sumError hi d t
    let l := rnAdd lo e
    let s := rnAdd t l
    (s, rnSub l (rnSub s t))

/-- A DF32 pair converted to FP32 in a mode (R111, R323): a `hi` that is infinite or NaN is the result itself. -/
def df32Round (mode : Rounding) (hi lo : Word) : Word × FpFlags :=
  if notFinite hi then (hi, flagIf (FpFmt.f32.read hi.toNat).signalling flagInvalid)
  else f32Add mode hi lo

/-! ### The seed functions (R120) -/

/-- The integer square root by bits, the highest first. -/
def isqrtBits (n : Nat) : Nat → Nat → Nat
  | 0, acc => acc
  | b + 1, acc => isqrtBits n b (if (acc + 2 ^ b) * (acc + 2 ^ b) ≤ n then acc + 2 ^ b else acc)

/-- ⌊√n⌋. -/
def isqrt (n : Nat) : Nat := isqrtBits n (Nat.log2 n / 2 + 1) 0

/-- RN12 (R120) of m × 2^e, where m carries a sticky bit in its lowest place and far more than 13 bits. -/
def rn12 (neg : Bool) (m : Nat) (e : Int) (inexact : Bool) : Word × FpFlags :=
  let ex := leadExp m e
  let qe := if ex < -126 then -138 else ex - 12
  let r := roundAt .rne neg m e qe
  let top := leadExp r.1 qe
  if 128 ≤ top then (BitVec.ofNat 32 (FpFmt.f32.infinity neg), flagOverflow ||| flagInexact)
  else
    let differs := r.2 || inexact
    (BitVec.ofNat 32 (FpFmt.f32.pack neg r.1 qe),
      flagIf (differs && decide (top < -126)) flagUnderflow ||| flagIf differs flagInexact)

/-- `RCPS` (R120). -/
def rcpSeed (w : Word) : Word × FpFlags :=
  match FpFmt.f32.read w.toNat with
  | .nan s => (0x7FC00000#32, flagIf s flagInvalid)
  | .inf n => (BitVec.ofNat 32 (FpFmt.f32.zero n), 0#5)
  | .fin n m e =>
    if m = 0 then (BitVec.ofNat 32 (FpFmt.f32.infinity n), flagDivZero)
    else
      let q := 2 ^ 64 / m
      let rem := 2 ^ 64 % m
      rn12 n (2 * q + (if rem = 0 then 0 else 1)) (-65 - e) (rem != 0)

/-- `RSQS` (R120). -/
def rsqSeed (w : Word) : Word × FpFlags :=
  match FpFmt.f32.read w.toNat with
  | .nan s => (0x7FC00000#32, flagIf s flagInvalid)
  | .inf n => if n then (0x7FC00000#32, flagInvalid) else (0#32, 0#5)
  | .fin n m e =>
    if m = 0 then (BitVec.ofNat 32 (FpFmt.f32.infinity n), flagDivZero)
    else if n then (0x7FC00000#32, flagInvalid)
    else
      let odd := e % 2 != 0
      let m' := if odd then 2 * m else m
      let e' := if odd then e - 1 else e
      let q := isqrt (2 ^ 128 / m')
      let exact := q * q * m' == 2 ^ 128
      rn12 false (2 * q + (if exact then 0 else 1)) (-65 - e' / 2) (!exact)

end Sys2Proof.Machine
end

