-- ==== Sys2Proof/Machine/Registers.lean ====
section
/-! DEFINITION. The registers of a team: banks (R88–R90), the values a chain reads (R62), pending results (R67), poison
(R273), lanes that act (R41, R55, R98), completion flags (R65). -/

namespace Sys2Proof.Machine

/-- LANES of R57. -/
def Team.lanes (t : Team) : Nat := 32 * t.words

/-- The lanes of a team as a mask. -/
def laneMask (n : Nat) : Mask := BitVec.ofNat 1024 (2 ^ n - 1)

/-- The lanes of a mask below `n`, ascending. -/
def lanesOf (m : Mask) (n : Nat) : List Nat := (List.range n).filter fun i => m.getLsbD i

/-- A mask of a list of lanes. -/
def maskOf (ls : List Nat) : Mask := ls.foldl (fun m i => m ||| (1#1024 <<< i)) 0#1024

/-- One bit of a mask. -/
def bitMask (i : Nat) : Mask := 1#1024 <<< i

/-! ### Where a register lies -/

/-- The key of lane `lane` of vector field `r` in a mode: 112–119 name the mode's bank (R89). -/
def vKey (m : Mode) (r lane : Nat) : Nat :=
  1024 * (if 112 ≤ r ∧ r < 120 ∧ m ≠ .u then r + 8 + 8 * m.code else r) + lane

/-- The key of a scalar register in a mode (R88). -/
def sKey (m : Mode) (r : Nat) : Nat := if 56 ≤ r then 8 + r + 8 * m.code else r

/-- The key of a mask register in a mode (R88). -/
def kKey (m : Mode) (r : Nat) : Nat := if 14 ≤ r then 2 + r + 2 * m.code else r

/-! ### Reading -/

/-- The register values an instruction reads: those at the start of its chain (R62). -/
def Team.view (t : Team) : Regs := t.snap.getD t.regs

/-- The operations whose results an instruction may read before they complete: those outstanding at the start of its chain (R62, R67). -/
def Team.readOps (t : Team) : List Op := if t.snap.isSome then t.snapOps else t.ops

/-- The result an outstanding operation will write to a vector element (R67). -/
def Team.pendingV (t : Team) (key : Nat) : Option Word :=
  t.readOps.findSome? fun o => (o.vDest.find? fun d => d.1 == key).map fun d => d.2.1

/-- The result an outstanding operation will write to a scalar (R67). -/
def Team.pendingS (t : Team) (key : Nat) : Option Word :=
  t.readOps.findSome? fun o => (o.sDest.find? fun d => d.1 == key).map fun d => d.2.1

/-- A vector element as an instruction reads it; while its operation is outstanding the old or the new value, which of
the two being free (R67, log entry 2). `n` is the free-value counter. -/
def Team.readV (t : Team) (n r lane : Nat) : Word :=
  let key := vKey t.mode r lane
  let old := Sparse.get 0#32 t.view.v key
  match t.pendingV key with
  | none => old
  | some new => if Config.pickNew n key then new else old

/-- A scalar register; `s0` reads zero (R88). -/
def Team.readS (t : Team) (n r : Nat) : Word :=
  if r = 0 then 0#32
  else
    let key := sKey t.mode r
    let old := Sparse.get 0#32 t.view.s key
    match t.pendingS key with
    | none => old
    | some new => if Config.pickNew n key then new else old

/-- A scalar pair as one 64-bit value (R4). -/
def Team.readPair (t : Team) (n r : Nat) : BitVec 64 := pair64 (t.readS n r) (t.readS n (r + 1))

/-- A vector pair of a lane as one 64-bit value. -/
def Team.readVPair (t : Team) (n r lane : Nat) : BitVec 64 := pair64 (t.readV n r lane) (t.readV n (r + 1) lane)

/-- A mask register. -/
def Team.readK (t : Team) (r : Nat) : Mask := Sparse.get 0#1024 t.view.k (kKey t.mode r)

/-- The active mask. -/
def Team.k0 (t : Team) : Mask := t.readK 0

/-- A vector element is poisoned (R273). -/
def Team.poisonV (t : Team) (r lane : Nat) : Bool := Sparse.get false t.view.vPoison (vKey t.mode r lane)

/-- A scalar register is poisoned (R273). -/
def Team.poisonS (t : Team) (r : Nat) : Bool := r != 0 && Sparse.get false t.view.sPoison (sKey t.mode r)

/-! ### Writing -/

/-- Change the registers. -/
def Team.modRegs (t : Team) (f : Regs → Regs) : Team := { t with regs := f t.regs }

/-- Note that the program wrote an element an operation will write too (R67). -/
def Team.dirtyKeys (t : Team) (keys : List Nat) : Team :=
  if t.ops.isEmpty then t
  else { t with ops := t.ops.map fun o => { o with dirty := keys ++ o.dirty } }

/-- Write vector elements given by lane (one instruction's whole destination). -/
def Team.writeV (t : Team) (r : Nat) (ls : List Nat) (f : Nat → Word) : Team :=
  let t := t.dirtyKeys (ls.map (vKey t.mode r))
  t.modRegs fun g =>
    { g with
      v := Sparse.setAll 0#32 g.v (vKey t.mode r) f ls
      vPoison := if g.vPoison.isEmpty then g.vPoison else Sparse.setAll false g.vPoison (vKey t.mode r) (fun _ => false) ls }

/-- Write a scalar register; a write to `s0` is discarded (R85). Scalar keys are told from vector keys by 2^20. -/
def Team.writeS (t : Team) (r : Nat) (w : Word) : Team :=
  if r = 0 then t
  else
    let t := t.dirtyKeys [1048576 + sKey t.mode r]
    t.modRegs fun g =>
      { g with s := Sparse.set 0#32 g.s (sKey t.mode r) w, sPoison := Sparse.set false g.sPoison (sKey t.mode r) false }

/-- Write a scalar pair. -/
def Team.writePair (t : Team) (r : Nat) (w : BitVec 64) : Team :=
  (t.writeS r (w.setWidth 32)).writeS (r + 1) ((w >>> 32).setWidth 32)

/-- Write a mask register, primary and shadow alike (R271). -/
def Team.writeK (t : Team) (r : Nat) (m : Mask) : Team :=
  t.modRegs fun g =>
    { g with k := Sparse.set 0#1024 g.k (kKey t.mode r) m, kDiff := Sparse.set 0#1024 g.kDiff (kKey t.mode r) 0#1024 }

/-- Primary XOR shadow of a mask (R271). -/
def Team.kDiff (t : Team) (r : Nat) : Mask := Sparse.get 0#1024 t.view.kDiff (kKey t.mode r)

/-- Write the bits `m` of a mask register, primary and shadow alike; every other bit is kept. -/
def Team.writeBits (t : Team) (r : Nat) (m bits : Mask) : Team :=
  t.modRegs fun g =>
    { g with
      k := Sparse.set 0#1024 g.k (kKey t.mode r) ((Sparse.get 0#1024 g.k (kKey t.mode r) &&& ~~~m) ||| (bits &&& m))
      kDiff := Sparse.set 0#1024 g.kDiff (kKey t.mode r) (Sparse.get 0#1024 g.kDiff (kKey t.mode r) &&& ~~~m) }

/-- Write `k0` with the shadow difference it inherits (R279). -/
def Team.writeK0 (t : Team) (m diff : Mask) : Team :=
  t.modRegs fun g => { g with k := Sparse.set 0#1024 g.k 0 m, kDiff := Sparse.set 0#1024 g.kDiff 0 diff }

/-- Primary XOR shadow of `k0` (R279). -/
def Team.k0Diff (t : Team) : Mask := Sparse.get 0#1024 t.view.kDiff 0

/-- OR sticky flags in (R109). -/
def Team.raiseFlags (t : Team) (f : FpFlags) : Team :=
  if f = 0#5 then t else t.modRegs fun g => { g with fflags := g.fflags ||| f }

/-! ### Lanes -/

/-- Lanes held for the rest of the run: those that trapped or consumed poison in it (R98, R273). -/
def Run.held (r : Run) : Mask :=
  (r.traps ++ r.consumed).foldl (fun m (x : LaneTrap) => m ||| x.lanes) 0#1024

/-- Held lanes of a team. -/
def Team.held (t : Team) : Mask := (t.run.map Run.held).getD 0#1024

/-- The active lanes that act: `k0` less the held lanes. -/
def Team.acting (t : Team) : Mask := t.k0 &&& ~~~t.held

/-- The lanes of quads that hold a lane of `m`. -/
def quadFill (m : Mask) : Mask :=
  let q := m ||| (m >>> 1) ||| (m >>> 2) ||| (m >>> 3)
  let base := q &&& BitVec.ofNat 1024 ((2 ^ 1024 - 1) / 15)
  base ||| (base <<< 1) ||| (base <<< 2) ||| (base <<< 3)

/-- The helper lanes (R55). DESIGN CHOICE (log entry 49): an exited lane, and a lane place of a formed team that no lane fills, is one
like any other lane that is not active. -/
def Team.helpers (t : Team) : Mask :=
  match t.run with
  | some r => if r.helper then quadFill t.k0 &&& ~~~t.k0 &&& laneMask t.lanes else 0#1024
  | none => 0#1024

/-- The lanes a V, X or M instruction computes in. -/
def Team.computing (t : Team) : Mask := t.acting ||| t.helpers

/-- The acting lanes, ascending. -/
def Team.actingLanes (t : Team) : List Nat := lanesOf t.acting t.lanes

/-- A cause that a team owes before its next run from outside its instructions (R171, R189, R208, R214, R238): it names no lanes, and so
takes every active lane. -/
def LaneTrap.owed (cause : Nat) (detail : Word) (addr : Nat) (inH : Bool) : LaneTrap :=
  ⟨0, cause, detail, addr, 32, false, false, inH, 0⟩

/-- A cause of the code address a team goes to (R59). -/
def LaneTrap.ofTarget (lanes : Mask) (cause : Nat) (detail : Word) (addr : Nat) : LaneTrap :=
  ⟨lanes, cause, detail, addr, 64, false, false, false, 0⟩

/-- The cause comes from outside the team's own instructions (R276). -/
def LaneTrap.outside (x : LaneTrap) : Bool := x.index == 32

/-- The lanes not exited (R98). -/
def Team.living (t : Team) : Mask := laneMask t.lanes &&& ~~~t.exited

/-- No lane remains (R50, R329): every lane has exited, and no handler of a parked access holds one as active (R212). -/
def Team.gone (t : Team) : Bool :=
  t.living == 0#1024 && t.k0 == 0#1024 && t.stack.all fun e => e.saved == 0#1024 && e.other == 0#1024

/-- T of a team-wide cause: every active lane, or every lane not exited when none is active (R98). -/
def Team.trapSet (t : Team) : Mask := if t.k0 = 0#1024 then t.living else t.acting

/-- A lane writes field `r`: an active lane any, a helper only a run temporary (R55). -/
def Team.writers (t : Team) (r : Nat) : List Nat :=
  if 120 ≤ r then lanesOf t.computing t.lanes else t.actingLanes

/-! ### Completion flags (R65, R89) -/

/-- The flag of the current depth (R89). -/
def Team.flag (t : Team) (f : Nat) : Nat := Sparse.get 0 t.flags (16 * t.depth + f)

/-- Add to a flag of a depth. -/
def Team.bumpFlag (t : Team) (depth f : Nat) : Team :=
  { t with flags := Sparse.set 0 t.flags (16 * depth + f) (Sparse.get 0 t.flags (16 * depth + f) + 1) }

/-- Decrement a flag of a depth. -/
def Team.dropFlag (t : Team) (depth f : Nat) : Team :=
  { t with flags := Sparse.set 0 t.flags (16 * depth + f) (Sparse.get 0 t.flags (16 * depth + f) - 1) }

/-- The flag SETA or SETB of the run in progress names; none for 15 (R63). -/
def Team.countsOn (t : Team) (classA : Bool) : Option Nat :=
  match t.run with
  | some r =>
    let f := if classA then r.setA else r.setB
    if f = 15 then none else some f
  | none => none

/-- The flag an operation of a class would count on stands at 63 (R65). -/
def Team.flagFull (t : Team) (classA : Bool) : Bool :=
  match t.countsOn classA with
  | some f => decide (63 ≤ t.flag f)
  | none => false

end Sys2Proof.Machine
end

