-- ==== Sys2Proof/Machine/Journal.lean ====
section
/-! DEFINITION. The command journal (R258, R259) and the completion ring in host memory (R18, R20). -/

namespace Sys2Proof.Machine

/-- Results of a journal entry (R259). -/
inductive Result where
  | accepted | done | refused | badcmd | aborted | forced | note
  deriving DecidableEq, Repr

/-- The result's code (R259). -/
def Result.code : Result → Nat
  | .accepted => 1
  | .done => 2
  | .refused => 3
  | .badcmd => 4
  | .aborted => 5
  | .forced => 6
  | .note => 16

/-- Reasons of R259. -/
def reasonNone : Nat := 0
def reasonShape : Nat := 1
def reasonNofit : Nat := 2
def reasonDictBad : Nat := 3
def reasonGraph : Nat := 4
def reasonBusy : Nat := 5
def reasonConflict : Nat := 6
def reasonSignature : Nat := 7
def reasonArgs : Nat := 8
def noteTrip : Nat := 32
def noteParity : Nat := 33
def noteDouble : Nat := 34
def noteRecovery : Nat := 35

/-- What an entry reports. -/
structure JournalInfo where
  htag   : Nat
  ref    : Nat
  code   : Nat
  result : Result
  reason : Nat
  inst   : Nat
  arg    : List Byte

/-- The 64 bytes of an entry (R259). -/
def journalBytes (seq time : Nat) (i : JournalInfo) : List Byte :=
  let body := leBytes 8 seq ++ leBytes 8 time ++ leBytes 8 i.htag ++ leBytes 8 i.ref ++ leBytes 1 i.code
    ++ leBytes 1 i.result.code ++ leBytes 2 i.reason ++ leBytes 2 i.inst ++ zeroBytes 2 ++ bytesAt i.arg 0 20
  body ++ leBytes 4 (crc32c body).toNat

/-- Write the next entry; its sequence comes back (R259). -/
def journal (s : State) (i : JournalInfo) : State × Nat :=
  let n := s.journal.next
  ({ s with journal := ⟨n + 1, s.journal.entries.put (n % 4194304) (journalBytes n s.time i)⟩ }, n)

/-- A firmware note (R258). -/
def journalNote (s : State) (reason : Nat) : State :=
  (journal s { htag := 0, ref := 0, code := 0, result := .note, reason := reason, inst := 0, arg := [] }).1

/-- Write bytes to host memory. -/
def hostWrite (s : State) (addr : Nat) (bs : List Byte) : State :=
  s.modModule fun m => { m with hostMem := (bs.zipIdx).foldl (fun h bi => Sparse.set 0#8 h (addr + bi.2) bi.1) m.hostMem }

/-- Bytes of host memory as the module reads them. -/
def hostBytes (s : State) (addr n : Nat) : List Byte := (List.range n).map fun i => Sparse.get 0#8 s.module.hostMem (addr + i)

/-- A completion entry (R20) at the next place of the ring, its PHASE inverted on each pass. -/
def postCompletion (s : State) (i : JournalInfo) (seq value : Nat) : State :=
  let m := s.module
  let bytes := leBytes 8 i.htag ++ leBytes 8 seq ++ leBytes 1 i.code ++ leBytes 1 i.result.code ++ leBytes 2 i.reason
    ++ leBytes 4 value ++ zeroBytes 7 ++ leBytes 1 (if m.cqPhase then 1 else 0)
  let s := hostWrite s (m.cqBase.toNat + 32 * m.cqTail) bytes
  let next := (m.cqTail + 1) % m.cqSize
  s.modModule fun m => { m with cqTail := next, cqPhase := if next = 0 then !m.cqPhase else m.cqPhase }

/-- Journal a command's entry and post it (R20, R258). -/
def report (s : State) (i : JournalInfo) (value : Nat) : State × Nat :=
  let r := journal s i
  (postCompletion r.1 i r.2 value, r.2)

/-! ### Command records (R19) -/

/-- Fields of a command record. -/
def cmdCode (r : List Byte) : Nat := fieldAt r 0 1
def cmdInstance (r : List Byte) : Nat := fieldAt r 2 2
def cmdTag (r : List Byte) : Nat := fieldAt r 8 8

/-- What the journal and the ring say of a command. -/
def cmdInfo (r : List Byte) (result : Result) (reason ref : Nat) (arg : List Byte) : JournalInfo :=
  { htag := cmdTag r, ref := ref, code := cmdCode r, result := result, reason := reason, inst := cmdInstance r, arg := arg }

/-- A pending command completes (R20, R258). -/
def completeCommand (s : State) (seq : Nat) (result : Result) (arg : List Byte) (value : Nat) : State :=
  match s.module.pending.find? fun p => p.seq == seq with
  | none => s
  | some p =>
    let s := s.modModule fun m => { m with pending := m.pending.filter fun p => p.seq != seq }
    (report s (cmdInfo p.bytes result reasonNone seq arg) value).1

end Sys2Proof.Machine
end

