-- ==== Sys2Proof/Machine/Recording.lean ====
section
/-! DEFINITION. The event recorder: its intake, the event ring and its header (R246, R249–R252). -/

namespace Sys2Proof.Machine

/-- Slots of the event ring, and units of the capture region after its header (R250, R269). -/
def ringSlots : Nat := 796917632
def captureUnits : Nat := 134217664

/-- Records that the intake buffer holds (R252). -/
def intakeSize : Nat := 32768

/-- The threshold of a class, in hundredths of the intake; none for the classes that are never discarded (R252). -/
def threshold (cls : Nat) : Option Nat :=
  match cls with
  | 7 => some 50
  | 5 => some 60
  | 3 => some 70
  | 2 => some 80
  | 4 => some 90
  | 6 => some 95
  | _ => none

/-- A class is being discarded at an occupancy. -/
def discards (cls used : Nat) : Bool := (threshold cls).any fun t => decide (t * intakeSize ≤ 100 * used)

/-- Fill in the EPOCH field of a record (R246). -/
def stampEpoch (bs : List Byte) (epoch : Nat) : List Byte :=
  bs.set 9 (BitVec.ofNat 8 ((bs.getD 9 0#8).toNat % 4 + 4 * (epoch % 64)))

/-- Write a record into the next slot (R250). -/
def Recorder.store (r : Recorder) (x : Record) : Recorder :=
  let next := (r.head + 1) % ringSlots
  { r with slots := r.slots.put r.head (stampEpoch x.bytes r.epoch), head := next, epoch := if next = 0 then r.epoch + 1 else r.epoch }

/-- The classes that were discarded and are no longer (R252). -/
def Recorder.reopened (r : Recorder) : List Nat :=
  (List.range 8).filter fun c => Sparse.get false r.shut c && !discards c r.intake.length

/-- A DROPS record for each class that is no longer discarded: it goes straight to the intake (R252). -/
def noteDrops (s : State) : State :=
  s.recorder.reopened.foldl
    (fun s c =>
      let n := (s.recorder.dropsSince.find c).getD 0
      let s := emit s unitRecorder 0 0x605 0 (c + 256 * (n % 2 ^ 56))
      s.modRecorder fun r => { r with
        transit := r.transit.dropLast, intake := r.intake ++ r.transit.getLast?.toList
        shut := Sparse.set false r.shut c false, dropsSince := r.dropsSince.put c 0 })
    s

/-- A record reaches the intake: kept, or discarded by its class and counted (R252). One of class 0 or 1 waits while the intake is
full. -/
def takeRecord (s : State) : State :=
  match s.recorder.transit with
  | [] => s
  | x :: rest =>
    let used := s.recorder.intake.length
    if discards x.cls used then
      s.modRecorder fun r => { r with
        transit := rest, drops := r.drops.put x.cls (((r.drops.find x.cls).getD 0) + 1)
        dropsSince := r.dropsSince.put x.cls (((r.dropsSince.find x.cls).getD 0) + 1), shut := Sparse.set false r.shut x.cls true }
    else if intakeSize ≤ used then s
    else s.modRecorder fun r => { r with transit := rest, intake := r.intake ++ [x] }

/-- The recorder writes the oldest held record. -/
def writeRecord (s : State) : State :=
  match s.recorder.intake with
  | [] => s
  | x :: rest => s.modRecorder fun r => { r.store x with intake := rest }

/-- The 4,096 bytes of the header (R250). -/
def Recorder.headerBytes (r : Recorder) : List Byte :=
  let body := leBytes 4 0x45565201 ++ zeroBytes 4 ++ leBytes 8 ringSlots ++ leBytes 8 r.head ++ leBytes 8 r.epoch ++ zeroBytes 32
    ++ (List.range 8).flatMap (fun c => leBytes 8 ((r.drops.find c).getD 0)) ++ zeroBytes 3964
  body ++ leBytes 4 (crc32c body).toNat

/-- The recorder rewrites the header. -/
def writeHeader (s : State) : State := s.modRecorder fun r => { r with header := r.headerBytes }

/-- Before a warm reset the recorder writes every record it holds, then the header (R250). -/
def flushRecords (s : State) : State :=
  writeHeader (s.modRecorder fun r => { (r.intake ++ r.transit).foldl Recorder.store r with intake := [], transit := [] })

/-- The header's CRC holds. -/
def headerOk (h : List Byte) : Bool := h.length == 4096 && (crc32c (bytesAt h 0 4092)).toNat == fieldAt h 4092 4

/-- The true tail: slots are scanned from HEAD on until one's EPOCH differs from the pass expected (R250). -/
def scanTail (slots : Table (List Byte)) : Nat → Nat → Nat → Nat × Nat
  | 0, head, epoch => (head, epoch)
  | fuel + 1, head, epoch =>
    match slots.find head with
    | none => (head, epoch)
    | some bs =>
      if (bs.getD 9 0#8).toNat / 4 ≠ epoch % 64 then (head, epoch)
      else
        let next := (head + 1) % ringSlots
        scanTail slots fuel next (if next = 0 then epoch + 1 else epoch)

/-- The recorder at start-up: the ring's tail is found, or, where a cold start finds the header's CRC bad, a new ring starts (R250). -/
def startRecorder (s : State) (cold : Bool) : State :=
  let r := s.recorder
  if cold && !headerOk r.header then s.modRecorder fun _ => Recorder.fresh
  else
    let t := scanTail r.slots (r.slots.length + 1) (fieldAt r.header 16 8) (fieldAt r.header 24 8)
    s.modRecorder fun r => { r with head := t.1, epoch := t.2 }

end Sys2Proof.Machine
end

