-- ==== Sys2Proof/Machine/Riser.lean ====
section
/-! DEFINITION. Riser parity over the HBM stacks (R283–R285): where a byte lies, the parity of a stripe, and the writes of sectors that
leave L2. -/

namespace Sys2Proof.Machine

/-! ### Lines, stripes and stacks (R283) -/

/-- The riser line of a physical address, its stripe and its position in the stripe. -/
def riserLine (pa : Nat) : Nat := pa / 1024
def stripeOf (line : Nat) : Nat := line / 7
def positionOf (line : Nat) : Nat := line % 7

/-- The stack that holds a stripe's parity line. -/
def parityStack (stripe : Nat) : Nat := stripe % 8

/-- The stack that holds the line at a position of a stripe. -/
def hbmStackAt (stripe position : Nat) : Nat := if position < parityStack stripe then position else position + 1

/-- The stack that holds a data line. -/
def dataStack (line : Nat) : Nat := hbmStackAt (stripeOf line) (positionOf line)

/-- The byte of its stack at which a physical address lies. -/
def stackOffset (pa : Nat) : Nat := stripeOf (riserLine pa) * 1024 + pa % 1024

/-- The physical address at a byte of a stack; none where the byte is of a parity line. -/
def addressAt (stack off : Nat) : Option Nat :=
  let s := off / 1024
  if stack = parityStack s then none
  else some ((7 * s + if stack < parityStack s then stack else stack - 1) * 1024 + off % 1024)

/-- The addresses of the seven data lines at a byte of a stripe. -/
def stripeAddresses (stripe o : Nat) : List Nat := (List.range 7).map fun p => (7 * stripe + p) * 1024 + o

/-- A byte of a stripe's parity line: the XOR of the seven data lines (R283). -/
def Home.parityByte (h : Home) (stripe o : Nat) : Byte := (stripeAddresses stripe o).foldl (fun x a => x ^^^ h.byte a) 0#8

/-- A byte of a line on the lost stack, as a read rebuilds it: the XOR of the six surviving data lines and the parity line (R285). -/
def Home.rebuilt (h : Home) (pa : Nat) : Byte :=
  let stripe := stripeOf (riserLine pa)
  ((stripeAddresses stripe (pa % 1024)).filter (· != pa)).foldl (fun x a => x ^^^ h.byte a) (h.parityByte stripe (pa % 1024))

/-! ### Errors of a stack (R271, R285) -/

/-- The granules that an uncorrectable error in a granule of a stack leaves unreadable. In normal mode the line is rebuilt; in degraded mode
it is not, nor is the lost line of its stripe, which needs it. -/
def badGranules (h : Home) (stack granule : Nat) : List Nat :=
  let off := 32 * granule
  match h.lost with
  | [] => []
  | lost :: _ =>
    if stack = lost then []
    else (([addressAt stack off, addressAt lost off].filterMap id).filter fun pa => decide (pa < hbmTop)).map chunkOf

/-- A granule cannot be read from HBM: it is poisoned, or will be when L2 no longer holds its sector. -/
def Home.spoil (h : Home) (granule : Nat) : Home :=
  if (h.l2.find (granule / 4)).isSome then { h with under := Sparse.set false h.under granule true }
  else { h with poison := Sparse.set false h.poison granule true }

/-! ### Sectors that leave L2 (R151, R271, R284) -/

/-- A sector's granules. -/
def granulesOf (sector : Nat) : List Nat := (List.range 4).map (4 * sector + ·)

/-- The write of a sector to HBM may begin: no other write of its stripe holds the stripe lock, and its parity stack's controller has a free
intent among 256 (R284). -/
def mayWriteBack (h : Home) (sector : Nat) : Bool :=
  let stripe := fun (x : Nat) => stripeOf (riserLine (128 * x))
  !h.intents.any (fun x => stripe x == stripe sector)
    && decide ((h.intents.filter fun x => parityStack (stripe x) == parityStack (stripe sector)).length < 256)

/-- The bytes of a sector lose their fold tags: a refill restores (0, 0) (R151). -/
def Home.untag (h : Home) (sector : Nat) : Home :=
  { h with fold := h.fold.filter fun x => !decide (128 * sector ≤ x.1 ∧ x.1 < 128 * sector + 128) }

/-- A sector has been written back, data and parity: its intent is cleared, and L2 gives it up (R284). -/
def Home.writtenBack (h : Home) (sector : Nat) : Home :=
  { h.untag sector with
    intents := h.intents.filter (· != sector), l2 := h.l2.drop sector
    under := (granulesOf sector).foldl (fun m g => Sparse.set false m g false) h.under }

/-- A clean sector leaves L2: what HBM cannot give is poisoned from then on. -/
def Home.dropClean (h : Home) (sector : Nat) : Home :=
  let bad := (granulesOf sector).filter fun g => Sparse.get false h.under g
  { h.untag sector with
    l2 := h.l2.drop sector
    under := bad.foldl (fun m g => Sparse.set false m g false) h.under
    poison := bad.foldl (fun m g => Sparse.set false m g true) h.poison }

/-- The classes of R141 in the order of their replacement. -/
def replaceRank (keep : Nat) : Nat := if keep = 1 then 0 else if keep = 2 then 2 else 1

/-- A sector is among those to be replaced first (R141; log entry 15). -/
def replacedNext (h : Home) (x : L2Line) : Bool := h.l2.all fun kv => decide (replaceRank x.keep ≤ replaceRank kv.2.keep)

/-- A sector leaves L2. A dirty one takes its stripe lock, records its intent and is written with its parity; its next turn clears the intent
and lets it go (R284). -/
def leaveL2 (h : Home) (sector : Nat) : Home :=
  match h.l2.find sector with
  | none => h
  | some x =>
    if h.intents.contains sector then h.writtenBack sector
    else if !replacedNext h x then h
    else if !x.dirty then h.dropClean sector
    else if mayWriteBack h sector then { h with intents := h.intents ++ [sector] } else h

/-- The intents in flight are completed when a stack is lost (R285). -/
def completeIntents (h : Home) : Home := h.intents.foldl Home.writtenBack h

end Sys2Proof.Machine
end

