-- ==== Sys2Proof/Machine/Restart.lean ====
section
/-! DEFINITION. Warm reset, start-up and loss of power (R17, R27–R29, R35, R250, R285). -/

namespace Sys2Proof.Machine

/-- Bytes of the signature of an image (R26). -/
def signatureSize : Nat := 16224

/-- The bytes that a signature covers, and the signature. -/
def signedPart (img : List Byte) : List Byte := img.take (img.length - signatureSize)
def signaturePart (img : List Byte) : List Byte := img.drop (img.length - signatureSize)

/-- MEASi := SHA-256(MEASi || d) (R35). -/
def measurement (s : State) (i : Nat) : List Byte := (s.module.meas.find i).getD (zeroBytes 32)
def extendMeasurement (s : State) (i : Nat) (d : List Byte) : State :=
  s.modModule fun m => { m with meas := m.meas.put i (sha256 (((m.meas.find i).getD (zeroBytes 32)) ++ d)) }

/-- Every command not complete is journaled ABORTED and reported (R17). -/
def abortCommands (s : State) : State := s.module.pending.foldl (fun s p => completeCommand s p.seq .aborted [] 0) s

/-- The compute dies, the hub and HBM as a reset leaves them; what the manual does not say of the management window's other fields:
log entry 43. The stacks that were lost stay so until the restart has trained them. -/
def resetDevice (s : State) : State :=
  { State.reset with
    home := { Home.fresh with lost := s.home.lost }, recorder := s.recorder, capture := s.capture, journal := s.journal
    time := s.time, frac := s.frac, cycles := s.cycles, agenda := s.agenda, tick := s.tick
    module := { Module.fresh with
      hostMem := s.module.hostMem, peers := s.module.peers, saved := s.module.saved, firmware := s.module.firmware
      powerLimit := s.module.powerLimit, cqBase := s.module.cqBase, cqSize := s.module.cqSize, temps := s.module.temps
      rails := s.module.rails, power := s.module.power } }

/-- A warm reset for a cause (R28, R250): it ends every launch, discards every store log, and leaves the channel closed until
`COLD_START` has repeated the steps of R27 (log entry 43). -/
def warmReset (s : State) (cause : Nat) : State :=
  let s := flushRecords (emit (abortCommands s) unitFirmware 0 0x008 0 cause)
  let r := s.recorder
  let s := resetDevice s
  { s with
    recorder := { Recorder.fresh with slots := r.slots, head := r.head, epoch := r.epoch, header := r.header, drops := r.drops }
    module := { s.module with resetting := true } }

/-- The firmware image: what the management window last took in recovery, else what the module was shipped with (R29). -/
def firmwareImage (s : State) : List Byte := if s.module.firmware.isEmpty then Config.shippedFirmware else s.module.firmware

/-- The firmware image passes the checks of step 2 (R27, R34). -/
def firmwareOk (s : State) : Bool :=
  let f := firmwareImage s
  Config.slhVerify Config.firmwareKey (signedPart f) (signaturePart f) && Config.rollbackOk f

/-- Step 3 reads the process monitors, which set each die's voltage for the arithmetic clock (R31). -/
def readProcess (s : State) : State :=
  let ps := (List.range 64).map (Config.processReading s.tick)
  s.modModule fun m => { m with process := ps, volts := [Config.dieVoltage 0 (ps.take 32), Config.dieVoltage 1 (ps.drop 32)] }

/-- Firmware declares a stack lost (R285): degraded mode, or, for a second one, compute freezes. -/
def loseStack (s : State) (n : Nat) : State :=
  if s.home.lost.contains n then s
  else
    let first := s.home.lost.isEmpty
    let s := journalNote (s.modHome fun h => { completeIntents h with lost := h.lost ++ [n] }) noteParity
    if first then emit s unitFirmware 0 0x603 0 n else s.modModule fun m => { m with tripped := true }

/-- The start-up of R27, cold or warm; firmware that fails its checks puts the module into recovery (R29). DESIGN CHOICE (log entry 43):
MEAS2, MEAS3 and the process monitors are the work of firmware at step 3, and are left as they are when it failed. Every stack is trained
at step 5, and one that fails is lost (R285). -/
def startUp (s : State) : State :=
  let cold := !s.module.resetting
  let ok := firmwareOk s
  let s := extendMeasurement (extendMeasurement s 0 (Config.bootDigest 0)) 1 (sha256 (firmwareImage s))
  let s := if ok then readProcess (extendMeasurement (extendMeasurement s 2 (Config.bootDigest 2)) 3 (Config.bootDigest 3)) else s
  let s := startRecorder s cold
  let failed := (List.range 8).filter fun n => !Config.stackTrains s.tick n
  let s := failed.foldl loseStack (s.modHome fun _ => Home.fresh)
  let s := s.modModule fun m => { m with channel := true, resetting := false, recovery := !ok }
  if ok then s else journalNote s noteRecovery

/-- Loss of the 54 V input (R29): a loss during a warm reset loses the event store. -/
def losePower (s : State) : State :=
  let store := !s.module.resetting
  let r := s.recorder
  let s' := resetDevice s
  { s' with
    recorder := if store then { Recorder.fresh with slots := r.slots, head := r.head, epoch := r.epoch, header := r.header, drops := r.drops }
      else Recorder.fresh
    capture := if store then s.capture else ⟨[], 0, 0⟩
    journal := if store then s.journal else ⟨1, []⟩ }

end Sys2Proof.Machine
end

