-- ==== Sys2Proof/Machine/Walker.lean ====
section
/-! DEFINITION. The pattern walker's books: images (R77, R194, R195), launches accepted and ended (R196–R199, R204), held
arrivals and barrier phases (R172, R173, R235, R236). -/

namespace Sys2Proof.Machine

/-! ### Images -/

/-- A field of an image in HBM (R77, R194). -/
def imageField (s : State) (dpa off n : Nat) : Nat := homeNat s (dpa + off) n

/-- An image of a handle. -/
def State.image (s : State) (h : Nat) : Option Image := s.hub.images.find h

/-- The loaded text of a kernel or handler: the length of the image whose text base is `base` (R60, R77, R95). -/
def textLength (s : State) (kind base : Nat) : Option Nat :=
  (s.hub.images.find? fun kv => kv.2.kind == kind && kv.2.dpa + imageField s kv.2.dpa 32 4 == base).map fun kv =>
    imageField s kv.2.dpa 36 4

/-- A field of a node of a graph image (R195). -/
def nodeField (s : State) (dpa node off n : Nat) : Nat := imageField s dpa (64 + 64 * node + off) n

/-- NNODES (R194). -/
def graphNodes (s : State) (dpa : Nat) : Nat := imageField s dpa 4 2

/-- The successors of a node (R194, R195). -/
def nodeSuccs (s : State) (dpa node : Nat) : List Nat :=
  let base := 64 + 64 * graphNodes s dpa
  (List.range (nodeField s dpa node 20 2)).map fun i => imageField s dpa (base + 2 * (nodeField s dpa node 22 2 + i)) 2

/-! ### Launches -/

/-- The launch id of a tag, node and instance number (R197). -/
def launchId (tag node inum : Nat) : BitVec 64 := BitVec.ofNat 16 tag ++ BitVec.ofNat 16 node ++ BitVec.ofNat 32 inum

/-- The instance tag and node of a launch (R197). -/
def Launch.tag (l : Launch) : Nat := (l.id >>> 48).toNat
def Launch.node (l : Launch) : Nat := (l.id >>> 32).toNat % 65536

/-- The stage queue a node's slices enter (R195). -/
def nodeQueue (s : State) (dpa node kernel : Nat) : Nat :=
  let st := nodeField s dpa node 13 1
  if st / 128 = 1 then
    let q := imageField s ((s.image kernel).map (·.dpa) |>.getD 0) 15 1
    if q = 255 then 0 else q % 64
  else st % 64

/-- The slice a node gives, before acceptance (R195, R199). `deadline`, `argva` and `handle` are those of a spawned launch
when `origin` is 1. -/
def makeLaunch (s : State) (inst : Instance) (node inum origin : Nat) (deadline argva handle : BitVec 64) : Launch :=
  let dpa := ((s.image inst.graph).map (·.dpa)).getD 0
  let kernel := nodeField s dpa node 0 4
  let kdpa := ((s.image kernel).map (·.dpa)).getD 0
  let attr := imageField s kdpa 9 1
  let ones := 2 ^ 64 - 1
  let dead := nodeField s dpa node 24 8
  let dead := if dead = 0 then imageField s kdpa 24 8 else dead
  let bud := nodeField s dpa node 32 8
  let bud := if bud = 0 then imageField s kdpa 16 8 else bud
  { id := launchId inst.tag node inum, ctx := inst.ctx, kernel := kernel, graph := inst.graph
    nblocks := nodeField s dpa node 4 4, next := 0
    deadline := if origin = 1 then deadline else if dead = ones then BitVec.allOnes 64 else BitVec.ofNat 64 (inst.start + dead)
    budget := BitVec.ofNat 64 bud
    argva := if origin = 1 then argva else BitVec.ofNat 64 (nodeField s dpa node 40 8)
    handle := handle, seed := inst.seed, classMax := nodeField s dpa node 12 1, cls := 0, origin := origin
    queue := nodeQueue s dpa node kernel, place := 0, alloc := nodeField s dpa node 8 2, accRows := nodeField s dpa node 10 2
    grouping := nodeField s dpa node 14 1 % 2 == 1, flagEvt := nodeField s dpa node 14 1 / 2 % 2 == 1
    determ := attr % 2 == 1, cores := attr / 2 % 2 == 1 || attr % 2 == 1
    accepted := 0, readyAt := s.time, ended := false, spent := false, failure := none, gridArr := [], gridEnd := [], gridBound := (0, 0), ls := 0
    nextSeq := 1, ladle := none, regions := [], invalidSeen := false }

/-- A queue's record; one that no graph named keeps its first setting (R202). -/
def State.queue (s : State) (q : Nat) : Queue := (s.hub.queues.find q).getD ⟨4096, none, 0, 0, 0, [], 0, []⟩
def State.setQueue (s : State) (q : Nat) (x : Queue) : State := s.modHub fun h => { h with queues := h.queues.put q x }

/-- The instance of a launch. -/
def State.instanceOf (s : State) (l : Launch) : Option (Nat × Instance) :=
  (s.hub.instances.find? fun ki => ki.2.tag == l.tag && ki.2.graph == l.graph).map fun ki => (ki.1, ki.2)

/-- The block key of a command whose block has gone while packets of it are not acknowledged (R237). -/
def noBlock : Nat := 2 ^ 40

/-- The number of a team in its grid. -/
def gridNumber (block team : Nat) : Nat := 32 * block + team

/-! ### The ring of a queue (R199, R202) -/

/-- A slice record (R199). -/
def Launch.record (l : Launch) : List Byte :=
  leBytes 8 l.id.toNat ++ leBytes 4 l.nblocks ++ leBytes 4 l.next ++ leBytes 8 l.deadline.toNat ++ leBytes 8 l.budget.toNat
    ++ leBytes 8 l.argva.toNat ++ leBytes 8 l.handle.toNat ++ leBytes 8 l.seed.toNat ++ leBytes 1 l.classMax ++ leBytes 1 l.origin
    ++ zeroBytes 6

/-- Write the record of a queued launch, or some bytes of it, to the ring (R202). -/
def writeSlice (s : State) (n off len : Nat) : State :=
  match s.launch n with
  | none => s
  | some l =>
    match (s.queue l.queue).base with
    | some base =>
      if (s.queue l.queue).records.contains n then homeWrite s (base + 64 * l.place + off) (bytesAt l.record off len) false else s
    | none => s

/-- The lowest place of a queue's ring that no record has (log entry 28). -/
def freePlace (s : State) (q : Queue) : Nat :=
  let taken := q.records.map fun n => ((s.launch n).map (·.place)).getD 0
  ((List.range (q.records.length + 1)).find? fun i => !taken.contains i).getD 0

/-! ### Offers (R200, R223) -/

/-- A launch may be placed: its instance has not been stopped (R225). -/
def mayPlace (s : State) (l : Launch) : Bool :=
  !l.ended && match s.instanceOf l with
    | some (_, i) => !i.stopped
    | none => true

/-- A team's wake condition holds while it is evicted. -/
def evictedWakes (s : State) (ek : Nat) (e : Evicted) : Bool :=
  e.ready || e.spurious || e.waits.any fun w =>
    match w.2 with
    | .barrier _ _ woken => woken.isSome
    | .grid => match s.launch e.launch with
      | some l => !l.gridArr.any fun a => a.1 == gridNumber e.index w.1
      | none => false
    | .monitor _ _ _ => (e.monitors.find w.1).any (·.written)
    | .spawn q => !(s.queue q).waiters.any fun x => (s.cmd x.cmd).any fun c => c.block == noBlock + 1 + ek && c.team == w.1
    | .get c => !(s.cmd c).any fun c => c.block == noBlock + 1 + ek
    | .regroup _ _ _ => false

/-- An evicted block is runnable: its record is back in its queue (R223). -/
def evictedRuns (s : State) (ek : Nat) (e : Evicted) : Bool :=
  evictedWakes s ek e && (match s.launch e.launch with
    | some l => mayPlace s l
    | none => false)

/-- The cores of the clusters assigned to a queue, in ascending order. -/
def queueCores (s : State) (q : Nat) : List Nat := (List.range 256).filter fun c => (s.cluster (clusterOf c)).queue == q

/-- Offers for cores arrive, behind those to come (R200). -/
def addOffers (s : State) (cs : List Nat) : State := s.modHub fun h => { h with offers := h.offers ++ cs }

/-- The evicted blocks that have become runnable return to their queues, whose cores are offered work (R200, R210). -/
def raiseRunnable (s : State) : State :=
  s.hub.evicted.foldl
    (fun s ke =>
      let now := evictedRuns s ke.1 ke.2
      if now == ke.2.since.isSome then s
      else
        let s := s.modHub fun h => { h with evicted := h.evicted.update ke.1 fun e => { e with since := if now then some s.time else none } }
        if now then addOffers s (queueCores s (((s.launch ke.2.launch).map (·.queue)).getD 0)) else s) s

/-- An event gives some cores offers (R200). -/
def offerCores (s : State) (cs : List Nat) : State := addOffers (raiseRunnable s) cs

/-! ### Acceptance (R197–R199, R204) -/

/-- Add a launch, not accepted yet; its number comes back. -/
def addLaunch (s : State) (l : Launch) : State × Nat :=
  let n := s.hub.nextLaunch
  ((s.setLaunch n l).modHub fun h => { h with nextLaunch := n + 1 }, n)

/-- The walker writes a launch's slice record into its queue: acceptance (R197, R199). A pass recorded for it gives its
HANDLE (R345). -/
def acceptLaunch (s : State) (n : Nat) : State :=
  match s.launch n with
  | none => s
  | some l =>
    let q := s.queue l.queue
    let h := s.hub.passed.find? fun p => p.1 == l.id
    let handle := match h with
      | some p => if l.handle = 0 then p.2 else l.handle
      | none => l.handle
    let s := s.setLaunch n { l with accepted := n + 1, handle := handle, readyAt := s.time, place := freePlace s q }
    let s := s.setQueue l.queue { q with records := q.records ++ [n] }
    let s := writeSlice s n 0 64
    offerCores (s.modHub fun hub => { hub with passed := hub.passed.filter fun p => p.1 != l.id }) (queueCores s l.queue)

/-- A queue has room (R204). -/
def queueHasRoom (s : State) (q : Nat) : Bool := decide ((s.queue q).records.length < (s.queue q).size)

/-- Work reaches the hub (R198). -/
def toWalker (s : State) (w : WalkWork) : State :=
  s.modHub fun h => { h with walk := h.walk ++ [⟨h.walkSeq, w⟩], walkSeq := h.walkSeq + 1 }

/-- The queue that work is for. -/
def WalkWork.queue (s : State) : WalkWork → Option Nat
  | .ready n => (s.launch n).map (·.queue)
  | .spawn id => (s.cmd id).map (·.dev)
  | .pass _ => none

/-- Places of a queue that its records and the work ahead have taken. -/
def queueTaken (s : State) (q : Nat) : Nat :=
  (s.queue q).records.length + (s.hub.walk.filter fun i => i.work.queue s == some q).length

/-- The `SPAWN` that has waited longest for a queue which has room now. -/
def nextWaiter (s : State) : Option QueueWaiter :=
  s.hub.queues.foldl
    (fun best kq =>
      match kq.2.waiters with
      | [] => best
      | w :: _ =>
        if kq.2.size ≤ kq.2.records.length then best
        else
          match best with
          | none => some w
          | some b => if w.seq < b.seq then some w else best) none

/-- What the walker takes next: the oldest of the work at its head and the waiters whose queue has room; nothing while a readied launch at
its head is held by a full queue (R198, R204). -/
def walkerNext (s : State) : Option WalkWork :=
  let head := match s.hub.walk with
    | [] => none
    | i :: _ =>
      match i.work with
      | .ready n => if ((s.launch n).map fun l => queueHasRoom s l.queue).getD true then some i.work else none
      | w => some w
  match nextWaiter s, s.hub.walk with
  | some w, i :: _ => if w.seq < i.seq then some (.spawn w.cmd) else head
  | some w, [] => some (.spawn w.cmd)
  | none, _ => head

/-- Accept the readied launches whose turn it is (R204); the walker's commands have steps of their own. -/
def pumpReadied : Nat → State → State
  | 0, s => s
  | fuel + 1, s =>
    match walkerNext s with
    | some (.ready n) => pumpReadied fuel (acceptLaunch (s.modHub fun h => { h with walk := h.walk.drop 1 }) n)
    | _ => s

/-- The same, as far as it goes. -/
def pumpWalker (s : State) : State := pumpReadied s.hub.walk.length s

/-- A record leaves its queue (R200, R204). -/
def leaveQueue (s : State) (q n : Nat) : State :=
  let x := s.queue q
  s.setQueue q { x with records := x.records.filter fun r => r != n }

/-- Ready a node of an instance (R196, R198). -/
def readyNode (s : State) (inst : Instance) (node : Nat) : State :=
  let r := addLaunch s (makeLaunch s inst node 0 0 0 0 0)
  toWalker r.1 (.ready r.2)

/-- One successor's count goes down; at 0 it is readied, at 0 already a class-0 event names it (R198). -/
def decrementSucc (tag : Nat) (s : State) (node : Nat) : State :=
  match s.hub.instances.find tag with
  | none => s
  | some inst =>
    let c := (inst.counts.find node).getD 0
    if c = 0 then emit s unitWalker 0 0x004 0 node
    else
      let s := s.modHub fun h =>
        { h with instances := h.instances.put tag { inst with counts := inst.counts.put node (c - 1) } }
      if c = 1 then readyNode s inst node else s

/-- Drop the held arrivals a test selects, each with its ARRIVAL_DROP record (R236, R101). -/
def dropArrivals (s : State) (reason : Nat) (sel : HeldArrival → Bool) : State :=
  let gone := s.hub.arrivals.filter sel
  let s := s.modHub fun h => { h with arrivals := h.arrivals.filter fun a => !sel a }
  gone.foldl (fun s a => emit s unitWalker 0 0x003 a.cid (a.barrier + 16 * reason + 2 ^ 16 * a.block)) s

/-- An instance ends when no slice of it is queued, placed or pending (R196). -/
def checkInstanceEnd (s : State) (tag : Nat) : State :=
  match s.hub.instances.find tag with
  | none => s
  | some inst =>
    let spawns := s.cmds.any fun kc => kc.2.kind == .spawn && !kc.2.localDone && ((s.launch kc.2.launch).map Launch.tag) == some tag
    if !inst.running || spawns || s.launches.any (fun kl => kl.2.tag == tag && !kl.2.ended) then s
    else
      let s := s.modHub fun h => { h with instances := h.instances.put tag { inst with running := false } }
      let s := (report s { htag := 0, ref := 0, code := 0, result := .note, reason := 0, inst := tag, arg := [] } 0).1
      dropArrivals s 1 fun a => (a.launch >>> 48).toNat == tag

/-- A launch ends: by its last block or killed with a failure record; its successors' counts go down (R198). -/
def endLaunch (s : State) (n : Nat) (f : Option Failure) : State :=
  match s.launch n with
  | none => s
  | some l =>
    if l.ended then s
    else
      let s := s.setLaunch n { l with ended := true, failure := f.orElse fun _ => l.failure }
      let s := s.modHub fun h => { h with deliveries := h.deliveries.filter fun d => d.launch != l.id }
      let s := if (f.orElse fun _ => l.failure).isSome then emit s unitWalker 0 0x002 0 l.id.toNat else s
      let s := leaveQueue s l.queue n
      let s := s.modHub fun h => { h with walk := h.walk.filter fun i => i.work != .ready n }
      let s := dropArrivals s 1 fun a => a.launch == l.id && l.accepted != 0
      let dpa := ((s.image l.graph).map (·.dpa)).getD 0
      let s := (nodeSuccs s dpa l.node).foldl (decrementSucc l.tag) s
      checkInstanceEnd (pumpWalker s) l.tag

/-- Take a block off its core at once: its teams, its slots' runs, its commands and its engine state. The core is offered work (R200). -/
def removeBlock (s : State) (bk : Nat) : State :=
  match s.block bk with
  | none => s
  | some b =>
    let s := keepBlock s bk
    let keys := (s.teamsOfBlock bk).map (·.1)
    let gone := fun (x : Option Nat) => match x with
      | some k => if keys.contains k then none else some k
      | none => none
    let s := s.modCore b.core fun c =>
      { c with
        slotA := gone c.slotA, slotB := gone c.slotB, banks := c.banks.filter fun x => !keys.contains x.1
        -- a held extent of the block begins its hold time (R206, R207)
        holds := c.holds.map fun x => if x.2.block = bk ∧ x.2.exitAt.isNone then (x.1, { x.2 with exitAt := some s.time }) else x }
    let s := s.modCluster (clusterOf b.core) fun cl =>
      { cl.without bk with slots := cl.slots.filter fun kv => kv.1 / 2 != bk }
    let locks := (s.cmds.filter fun kc => kc.2.block == bk).flatMap fun kc => kc.2.locks
    let s := s.modCore b.core fun c => { c with locks := locks.foldl (fun t l => t.drop l) c.locks }
    let s := s.modHub fun h => { h with
      loose := (h.loose.filter fun x => !(x.core == b.core && decide (b.base ≤ 4 * x.word ∧ 4 * x.word < b.base + b.size))).map fun x =>
        { x with seen := x.seen.filter fun k => !keys.contains k } }
    let s := { s with
      teams := s.teams.filter fun kt => kt.2.block != bk
      blocks := s.blocks.drop bk
      cmds := (s.cmds.filter fun kc => kc.2.block != bk || kc.2.localDone).map fun kc =>
        if kc.2.block = bk then (kc.1, { kc.2 with block := noBlock }) else kc }
    offerCores s [b.core]

/-- An evicted block is gone: its image, its detached log and its commands (R101, R159, R219). -/
def dropEvicted (s : State) (ek : Nat) : State :=
  match s.hub.evicted.find ek with
  | none => s
  | some e =>
    let s := s.modCore e.core fun c => { c with log := c.log.filter fun x => x.det != some ek }
    let s := s.modHub fun h => { h with evicted := h.evicted.drop ek }
    let s := match (s.launch e.launch).bind s.instanceOf with
      | some ti => s.modHub fun h => { h with instances := h.instances.update ti.1 fun i => { i with spills := i.spills.drop e.offset } }
      | none => s
    { s with cmds := (s.cmds.filter fun kc => kc.2.block != noBlock + 1 + ek || kc.2.localDone).map fun kc =>
        if kc.2.block = noBlock + 1 + ek then (kc.1, { kc.2 with block := noBlock }) else kc }

/-- Kill a launch: its blocks leave, its evicted blocks' images and detached logs go, and it ends (R101, R198, R225). -/
def killLaunch (s : State) (n : Nat) (f : Failure) : State :=
  let s := ((s.blocks.filter fun kb => kb.2.launch == n).map (·.1)).foldl removeBlock s
  endLaunch (((s.hub.evicted.filter fun ke => ke.2.launch == n).map (·.1)).foldl dropEvicted s) n (some f)

/-! ### Barrier phases (R172–R174) -/

/-- Bits set among the low `n`. -/
def popBits {w : Nat} (m : BitVec w) (n : Nat) : Nat := ((List.range n).filter fun i => m.getLsbD i).length

/-- Is the open phase complete (R173)? -/
def Barrier.complete (b : Barrier) : Bool :=
  decide (b.teams ≤ popBits (b.arrt ||| b.exited) 16) && b.pend == 0 && decide (b.ext ≤ 0)

/-- Complete the phase of a barrier register (R173). -/
def Barrier.advance (b : Barrier) (now : Nat) : Barrier :=
  { b with
    phase := b.phase + 1, lfault := b.fault, fault := false, arrt := 0, opened := now
    acqs := b.acqs.put b.phase.toNat b.openAcq, openAcq := (0, 0), lastFlt := if b.fault then b.openFlt else [], openFlt := []
    cmdClk := 0, clks := [] }

/-- Of two acquires made as one, the widest scope and the greatest bound (R174). -/
def joinAcquires (a b : Nat × Nat) : Nat × Nat := (max a.1 b.1, max a.2 b.2)

/-- What an observer of phase `p`'s completion acquires: what that phase owes, and each that has completed since (R174; log entry 18). -/
def Barrier.owedFrom (b : Barrier) (p : BitVec 8) : Nat × Nat :=
  (List.range (b.phase - p).toNat).foldl (fun a i => joinAcquires a ((b.acqs.find (p + BitVec.ofNat 8 i).toNat).getD (0, 0))) (0, 0)

/-! ### The grid barrier (R329, R339, R264) -/

/-- NTEAMS of a launch's kernel (R77). -/
def teamsPerBlock (s : State) (l : Launch) : Nat := imageField s (((s.image l.kernel).map (·.dpa)).getD 0) 12 1

/-- The LDCLKs of the teams of a launch that neither arrived nor ended, resident or evicted (R264). -/
def gridOthers (s : State) (n : Nat) (l : Launch) : List Nat :=
  (s.teams.filterMap fun kt =>
    match s.block kt.2.block with
    | none => none
    | some b =>
      if b.launch = n ∧ ¬ kt.2.ended ∧ ¬ l.gridArr.any (fun a => a.1 == gridNumber b.index kt.2.number) then some kt.2.ldclk else none)

/-- Evaluate the grid barrier of a launch: complete when every team has arrived or ended (R339). One GBAR record goes out and
the bound is fixed; the waiters wake by `TEAM_WAKE`. -/
def evalGrid (s : State) (n : Nat) : State :=
  match s.launch n with
  | none => s
  | some l =>
    if l.gridArr.isEmpty ∨ l.gridArr.length + l.gridEnd.length < l.nblocks * teamsPerBlock s l then s
    else
      let all := l.gridArr ++ l.gridEnd
      let bound := all.foldl (fun b x => max b x.2.1) 0
      let w := 1 + all.foldl (fun b x => max b x.2.2) 0
      let s := s.setLaunch n { l with gridArr := [], gridBound := (bound, w) }
      let s := s.modHub fun h =>
        { h with
          evicted := h.evicted.map fun ke =>
            if ke.2.launch == n && ke.2.waits.any (fun x => x.2 == Wait.grid) then (ke.1, { ke.2 with ready := true }) else ke }
      emit s unitWalker 0 0x101 0 (l.id.toNat % 2 ^ 32)

/-- A team arrives at its launch's grid barrier (R339). -/
def gridArrive (s : State) (n block team stamp ldclk : Nat) : State :=
  evalGrid (s.modLaunch n fun l => { l with gridArr := l.gridArr ++ [(gridNumber block team, stamp, ldclk)] }) n

/-- A team that has ended counts as arrived (R329). -/
def gridEnded (s : State) (n block team stamp ldclk : Nat) : State :=
  evalGrid (s.modLaunch n fun l => { l with gridEnd := l.gridEnd ++ [(gridNumber block team, stamp, ldclk)] }) n

/-- W of R264 over the parties of a barrier's open phase: the teams in ARRT, those ended since among them, the commands counted, and,
while fewer than TEAMS have arrived, every team of `live` that has not: number, LDCLK. -/
def Barrier.clockOver (b : Barrier) (live : List (Nat × Nat)) : Nat :=
  let short := decide (popBits (b.arrt ||| b.exited) 16 < b.teams)
  let arrived := b.clks.foldl (fun w x => if b.arrt.getLsbD x.1 then max w x.2 else w) b.cmdClk
  1 + live.foldl (fun w x => if short && !b.arrt.getLsbD x.1 then max w x.2 else w) arrived

/-- The same for a resident block. -/
def barrierClock (s : State) (bk : Nat) (b : Barrier) : Nat :=
  b.clockOver ((s.teamsOfBlock bk).filterMap fun kt => if kt.2.ended then none else some (kt.2.number, kt.2.ldclk))

/-- Evaluate a resident barrier after an event (R173): on completion a PHASE record goes out, engine writes through the
aperture become defined (R128), and waiters' ladle clocks rise (R264). Their wake is `TEAM_WAKE`. -/
def evalBarrier (s : State) (bk n : Nat) : State :=
  match s.block bk with
  | none => s
  | some blk =>
    let b := blk.barrier n
    if b.complete then
      let w := barrierClock s bk b
      let b' := b.advance s.time
      let woken := (s.teamsOfBlock bk).foldl
        (fun m kt => match kt.2.wait with
          | some (.barrier i ph none) => if i = n && ph != b'.phase then m ||| (1#16 <<< kt.2.number) else m
          | _ => m) 0#16
      let b' := { b' with waiters := b'.waiters &&& ~~~woken }
      let s := s.setBlock bk (blk.setBarrier n b')
      let s := if s.cores.any (fun kc => !kc.2.accOpen.isEmpty) then
          { s with cores := s.cores.map fun kc => (kc.1, { kc.2 with accOpen := kc.2.accOpen.filter fun x => x.2.2 != (bk, n) }) }
        else s
      let s := { s with
        teams := s.teams.map fun kt =>
          let t := if kt.2.ops.any fun o => o.till == some (bk, n) then
              { kt.2 with ops := kt.2.ops.filter fun o => o.till != some (bk, n) }
            else kt.2
          if t.block == bk then
            (kt.1, match t.wait with
              | some (.barrier m ph none) =>
                if m = n && ph != b'.phase then
                  { t with wait := some (.barrier m ph (some (b'.owedFrom ph))), ldclk := max t.ldclk w, due := t.due ++ b'.lastFlt }
                else t
              | _ => t)
          else (kt.1, t) }
      emit s unitCore blk.core 0x100 0 (n + (if b'.lfault then 16 else 0) + 256 * b'.phase.toNat + 2 ^ 16 * blk.index)
    else s

/-- An external arrival on a barrier register (R173): none when EXT is at its floor. The phase that counts it owes a DEVICE acquire (R174);
one that stands as credit counts in the phase that uses it too (R302). -/
def Barrier.external (b : Barrier) : Option Barrier :=
  if -32768 < b.ext then some { b with ext := b.ext - 1, openAcq := joinAcquires b.openAcq (3, 0) } else none

/-- A delivery of a block's register. -/
def Delivery.of (d : Delivery) (id : BitVec 64) (block n : Nat) : Bool := d.launch == id && d.block == block && d.reg == n

/-- More arrivals are expected, in phase `p`: a delivery whose credit they use is counted there (R173, R291). -/
def Delivery.expect (d : Delivery) (v : Int) (p : BitVec 8) : Delivery :=
  match d.credit, d.phase with
  | some c, none => { d with credit := some (c - v), phase := if c ≤ v then some p else none }
  | _, _ => d

/-- The signal of a delivery reaches its register, as it stood before: counted in the open phase when an arrival was expected, else
credit (R173, R291). -/
def countDelivery (s : State) (id : BitVec 64) (block n : Nat) (cid : BitVec 64) (b : Barrier) : State :=
  s.modHub fun h =>
    { h with
      deliveries := (h.deliveries.foldl
        (fun (acc : List Delivery × Bool) d =>
          if !acc.2 && d.of id block n && d.cid == cid && d.credit.isNone then
            (acc.1 ++ [{ d with credit := some (1 - b.ext), phase := if 0 < b.ext then some b.phase else none }], true)
          else (acc.1 ++ [d], acc.2)) ([], false)).1 }

/-- The launch id of a launch number. -/
def State.launchIdOf (s : State) (ln : Nat) : BitVec 64 := ((s.launch ln).map (·.id)).getD 0

/-- A team observes a barrier: the scratchpad stores before it stand for the team (R129, R359). -/
def seeStores (s : State) (k : Nat) : State :=
  if s.hub.loose.isEmpty then s
  else s.modHub fun h => { h with loose := h.loose.map fun x => if x.seen.contains k then x else { x with seen := k :: x.seen } }

/-- A team observes the phases of its block's register from `p` on: the deliveries they count are observed (R291), and the scratchpad stores
before them (R359). -/
def noteSeen (s : State) (k n : Nat) (p : BitVec 8) : State :=
  let s := seeStores s k
  if s.hub.deliveries.isEmpty then s
  else
    match s.team k with
    | none => s
    | some t =>
      match s.block t.block with
      | none => s
      | some b =>
        let x := b.barrier n
        s.modHub fun h =>
          { h with
            deliveries := h.deliveries.map fun d =>
              match d.phase with
              | some ph =>
                if d.of (s.launchIdOf b.launch) b.index n && decide ((ph - p).toNat < (x.phase - p).toNat) && (d.seen.find t.number).isNone then
                  { d with seen := d.seen.put t.number s.tick }
                else d
              | none => d }

/-- An external arrival at a resident block. -/
def externalResident (s : State) (bk n : Nat) (cid : BitVec 64) : State :=
  match s.block bk with
  | none => s
  | some blk =>
    match (blk.barrier n).external with
    | some b =>
      let s := countDelivery s (s.launchIdOf blk.launch) blk.index n cid (blk.barrier n)
      evalBarrier (s.setBlock bk (blk.setBarrier n b)) bk n
    | none => emit s unitCore blk.core 0x003 cid (n + 2 ^ 16 * blk.index)

/-- W of R264 at an evicted block's saved register, as `barrierClock` gives it for a resident one. -/
def Evicted.clock (e : Evicted) (b : Barrier) : Nat :=
  b.clockOver (e.ldclks.filter fun x => !b.exited.getLsbD x.1)

/-- The physical address of an offset of an evicted block's image. -/
def imageAddress (s : State) (e : Evicted) (off : Nat) : Nat :=
  match (s.launch e.launch).bind s.instanceOf with
  | some ti => (physicalOf s e.core e.ctx .s .store (ti.2.spillVa + e.offset + off)).getD (e.image + off)
  | none => e.image + off

/-- A saved register of an evicted block gets a value: the hub's copy and the image's bytes (R220, R224). -/
def saveBarrier (s : State) (ek n : Nat) (b : Barrier) : State :=
  match s.hub.evicted.find ek with
  | none => s
  | some e =>
    (homeWrite s (imageAddress s e (2112 + 64 * n)) b.bytes false).modHub fun h =>
      { h with evicted := h.evicted.update ek fun e => { e with barriers := e.barriers.put n b } }

/-- An evicted block's saved register changes and is evaluated by the hub, as `evalBarrier` does for a resident one (R224); the PHASE
record is the hub's (log entry 27). -/
def evictedBarrier (s : State) (ek : Nat) (e : Evicted) (n : Nat) (b : Barrier) : State :=
  let b' := if b.complete then b.advance s.time else b
  let w := e.clock b
  let woken := e.waits.foldl
    (fun m w => match w.2 with
      | .barrier i ph none => if i = n && ph != b'.phase then m ||| (1#16 <<< w.1) else m
      | _ => m) 0#16
  let b' := { b' with waiters := b'.waiters &&& ~~~woken }
  let waits := e.waits.map fun w =>
    match w.2 with
    | .barrier m ph none => if m = n && ph != b'.phase then (w.1, Wait.barrier m ph (some (b'.owedFrom ph))) else w
    | _ => w
  let dues := (e.waits.filter fun w => match w.2 with
      | .barrier m ph none => m == n && ph != b'.phase
      | _ => false).foldl (fun d w => d.put w.1 (((d.find w.1).getD []) ++ b'.lastFlt)) e.dues
  let ldclks := e.ldclks.map fun x =>
    if (e.waits.find x.1) != (Table.find waits x.1) then (x.1, max x.2 w) else x
  let e' : Evicted := { e with waits := waits, dues := dues, ldclks := ldclks, ready := e.ready || waits != e.waits }
  let s := saveBarrier (s.modHub fun h => { h with evicted := h.evicted.put ek e' }) ek n b'
  if b.complete then emit s unitWalker 0 0x100 0 (n + (if b'.lfault then 16 else 0) + 256 * b'.phase.toNat + 2 ^ 16 * e.index) else s

/-- The saved register of an evicted block. -/
def Evicted.barrier (e : Evicted) (n : Nat) : Barrier := (e.barriers.find n).getD (Barrier.fresh 0)

/-- An external arrival at an evicted block's saved registers, in the hub (R224). -/
def externalEvicted (s : State) (ek : Nat) (e : Evicted) (n : Nat) (cid : BitVec 64) : State :=
  match (e.barrier n).external with
  | none => emit s unitWalker 0 0x003 cid (n + 2 ^ 16 * e.index)
  | some b => evictedBarrier (countDelivery s (s.launchIdOf e.launch) e.index n cid (e.barrier n)) ek e n b

/-- A signal for barrier `n` of block `block` of the launch with an id (R22, R235, R236). While no instance with its tag runs, it is held
for one that will. -/
def deliverArrival (s : State) (id : BitVec 64) (block n : Nat) (cid : BitVec 64) : State :=
  let hold := fun (s : State) =>
    if 4096 ≤ s.hub.arrivals.length then emit s unitWalker 0 0x003 cid (n + 16 * 3 + 2 ^ 16 * (block % 65536))
    else s.modHub fun h => { h with arrivals := h.arrivals ++ [⟨id, block, n, cid⟩] }
  match s.launches.find? fun kl => kl.2.id == id && kl.2.accepted != 0 && !kl.2.ended with
  | some (ln, l) =>
    if l.nblocks ≤ block then emit s unitWalker 0 0x003 cid (n + 16 * 2 + 2 ^ 16 * (block % 65536))
    else
      match s.blocks.find? fun kb => kb.2.launch == ln && kb.2.index == block with
      | some (bk, _) => externalResident s bk n cid
      | none =>
        match s.hub.evicted.find? fun ke => ke.2.launch == ln && ke.2.index == block with
        | some (ek, e) => externalEvicted s ek e n cid
        | none =>
          if block < l.next then emit s unitWalker 0 0x003 cid (n + 16 * 1 + 2 ^ 16 * (block % 65536)) else hold s
  | none =>
    let running := ((s.hub.instances.find (id >>> 48).toNat).map (·.running)).getD false
    if running && s.launches.any fun kl => kl.2.id == id && kl.2.ended then
      emit s unitWalker 0 0x003 cid (n + 16 * 1 + 2 ^ 16 * (block % 65536))
    else hold s

end Sys2Proof.Machine
end

