-- ==== Sys2Proof/Machine/Ops.lean ====
section
/-! DEFINITION. The operations every meaning shares: an instruction begins, stalls and retires (R61, R88, R279); traps and
consumed poison are recorded (R98, R273); counted operations complete (R65); a run ends (R59, R98, R215); a trap is taken
and returned from (R99–R102); a region rolls back (R276). -/

namespace Sys2Proof.Machine

/-- The outcome type of every meaning. -/
abbrev Out := Host.Outcome State Fault Refusal

/-! ### Traps -/

/-- Record a trap of lanes at the instruction now issuing (R98). Lanes already held raise no further trap. -/
def Team.raise (t : Team) (lanes : Mask) (cause : Nat) (detail : Word) (addr : Nat) (inH : Bool) (imm : BitVec 16) : Team :=
  match t.run with
  | none => t
  | some r =>
    let ls := lanes &&& ~~~r.held
    if ls = 0#1024 then t
    else { t with run := some { r with traps := r.traps ++ [⟨ls, cause, detail, addr, r.itemIdx, false, false, inH, imm⟩] } }

/-- The code address of the instruction now issuing (R435). -/
def Team.itemAddr (t : Team) : Nat := (t.run.map (·.item.addr)).getD t.pc
/-- The word of a run's item with its chain bit. -/
def RunItem.full (it : RunItem) : Nat := it.word % 2147483648 + if it.chain then 2147483648 else 0

/-- The word of the instruction at hand with its chain bit (R248). -/
def Team.itemFull (t : Team) : Nat := (t.run.map (·.item.full)).getD 0

/-- Its word with C clear (R434, R435). -/
def Team.itemWord (t : Team) : Word := BitVec.ofNat 32 ((t.run.map (·.item.word)).getD 0 % 2147483648)

/-- A trap of an instruction for its whole team: T is every active lane (R98); `v118:v117` hold the code address (R99). -/
def Team.raiseAll (t : Team) (cause : Nat) (detail : Word) : Team := t.raise t.trapSet cause detail t.itemAddr false 0

/-- `ILLEGAL_OP` found by value, for the whole team (R434). -/
def Team.illegalOp (t : Team) : Team := t.raiseAll 1 t.itemWord

/-- `ILLEGAL_OP` found by value, for some lanes. -/
def Team.illegalLanes (t : Team) (lanes : Mask) : Team := t.raise lanes 1 t.itemWord t.itemAddr false 0

/-- Lanes consume poison at this instruction (R273). -/
def Team.consume (t : Team) (lanes : Mask) : Team :=
  match t.run with
  | none => t
  | some r =>
    let ls := lanes &&& ~~~r.held
    if ls = 0#1024 then t
    else { t with run := some { r with consumed := r.consumed ++ [⟨ls, 12, 0, r.item.addr, r.itemIdx, false, false, false, 0⟩] } }

/-- A signature mismatch counts as a consumption by every active lane (R280). -/
def Team.mismatch (t : Team) (detail : Word) : Team :=
  match t.run with
  | none => t
  | some r =>
    let ls := t.trapSet &&& ~~~r.held
    if ls = 0#1024 then t
    else { t with run := some { r with consumed := r.consumed ++ [⟨ls, 13, detail, r.item.addr, r.itemIdx, false, false, false, 0⟩] } }

/-- Change the run in progress. -/
def Team.modRun (t : Team) (f : Run → Run) : Team := { t with run := t.run.map f }

/-! ### The free value, time -/

/-- A budget of all ones is never decremented; the others lose the cycles that a run in U held its slot (R208). -/
def chargeBudget (s : State) (k : Nat) : State :=
  match s.team k with
  | none => s
  | some t =>
    if t.mode ≠ .u then s
    else
      match s.blockOf t with
      | none => s
      | some b =>
        s.modLaunch b.launch fun l =>
          if l.budget = BitVec.allOnes 64 then l
          else { l with budget := BitVec.ofNat 64 (l.budget.toNat - Config.elapsedCycles s.tick) }

/-- The BUDGET_OUT record of a launch whose budget is spent: one until the budget is given anew (R208, R248). -/
def noteBudgetOut (s : State) (n : Nat) : State :=
  match s.launch n with
  | none => s
  | some l => if l.spent then s else emit (s.setLaunch n { l with spent := true }) unitWalker 0 0x305 0 (l.id.toNat % 2 ^ 32)

/-- Where a team owes `BUDGET`, its launch's budget is recorded as spent. -/
def noteOwedBudget (s : State) (k : Nat) : State :=
  match s.team k with
  | none => s
  | some t =>
    if t.due.any fun x => x.cause == 14 then
      match s.blockOf t with
      | none => s
      | some b => noteBudgetOut s b.launch
    else s

/-- The teams whose runs hold issue slots (R46, R208). -/
def slotHolders (s : State) : List Nat := s.cores.flatMap fun kc => kc.2.slotA.toList ++ kc.2.slotB.toList

/-- One step's passage of time (R2, R91; log entry 3): every run that holds an issue slot meanwhile is charged (R208), while the clock of
the arithmetic runs (R32). -/
def passTime (s : State) : State :=
  let s := if s.module.tripped then s else (slotHolders s).foldl chargeBudget s
  let f := s.frac.toNat + (Config.fraction s.tick).toNat
  { s with
    time := s.time + Config.elapsedNs s.tick + f / 16, frac := BitVec.ofNat 4 f, cycles := s.cycles + Config.elapsedCycles s.tick
    tick := s.tick + 1 }

/-! ### An instruction begins, stalls, retires -/

/-- The word is a `SIGCK` (R280). -/
def isSigck (w : Nat) : Bool := w / 2 ^ 25 % 64 == 1 && w / 2 ^ 20 % 32 == 4

/-- The word is a dictionary word (R71), which is two instructions and none itself. -/
def isDictWord (w : Nat) : Bool := w / 2 ^ 25 % 64 == 63

/-- The next instruction of the run leaves the buffer: it retires into `LCLK` (R88) and `SG` (R279), and a chain that starts
here keeps the register values it reads (R62). A dictionary word leaves the buffer for its two references to take its
place (R435); it does not retire itself. -/
def Team.begin (t : Team) : Team :=
  match t.run with
  | none => t
  | some r =>
    match r.items with
    | [] => t
    | it :: rest =>
      if isDictWord it.word then
        { t with run := some { r with items := rest, item := it, itemIdx := r.index, hold := none, sg0 := t.sg, lclk0 := t.lclk } }
      else
        let snap := if r.inChain then t.snap else if it.chain then some t.regs else none
        let snapOps := if r.inChain then t.snapOps else if it.chain then t.ops else []
        let sg := if t.depth = 0 && !isSigck it.word then sgUpdate t.sg (BitVec.ofNat 32 (it.word % 2147483648)) else t.sg
        { t with
          snap := snap, snapOps := snapOps
          lclk := if t.k0 = 0#1024 then t.lclk else (t.lclk + 1) % 2 ^ 64
          sg := sg
          run := some { r with
            items := rest, item := it, itemIdx := r.index, index := r.index + 1, hold := none
            sgRead := if r.inChain then r.sgRead else t.sg, sg0 := t.sg, lclk0 := t.lclk } }

/-- The instruction has had no effect and is tried again: what retiring it did is given back (R65, R263). -/
def Team.stall (t : Team) : Team :=
  match t.run with
  | none => t
  | some r =>
    { t with
      sg := r.sg0, lclk := r.lclk0
      run := some { r with items := r.item :: r.items, index := r.itemIdx, hold := some .retry } }

/-- Stall the current team's instruction. -/
def stallInstr (s : State) : State := s.modTeam s.cur Team.stall

/-! ### Counted operations (R65–R67) -/

/-- The keys of the run temporaries (R69). -/
def isTempKey (key : Nat) : Bool := decide (1024 * 120 ≤ key ∧ key < 1024 * 128)

/-- What an operation leaves when it completes: its elements, those the program wrote meanwhile keeping either value
(R67), a poisoned one consumed instead of written (R273). Run temporaries of an ended run are not written (R293). -/
def Team.landOp (t : Team) (n : Nat) (o : Op) : Team :=
  let keep := fun (key : Nat) => !(o.dirty.contains key) || Config.pickNew n key
  let vs := o.vDest.filter fun d => !d.2.2 && keep d.1 && !(o.past && isTempKey d.1)
  let ss := o.sDest.filter fun d => !d.2.2 && keep (1048576 + d.1)
  -- an operation still outstanding meets these values as it meets the program's (R67)
  let t := t.dirtyKeys (vs.map (·.1) ++ ss.map fun d => 1048576 + d.1)
  let t := t.modRegs fun g =>
    { g with
      v := vs.foldl (fun m d => Sparse.set 0#32 m d.1 d.2.1) g.v
      s := ss.foldl (fun m d => Sparse.set 0#32 m d.1 d.2.1) g.s
      vPoison := if g.vPoison.isEmpty then g.vPoison else vs.foldl (fun m d => Sparse.set false m d.1 false) g.vPoison
      sPoison := if g.sPoison.isEmpty then g.sPoison else ss.foldl (fun m d => Sparse.set false m d.1 false) g.sPoison }
  let bad := maskOf ((o.vDest.filter fun d => d.2.2).map fun d => d.1 % 1024)
  let bad := if o.sDest.any (fun d => d.2.2) then t.trapSet else bad
  -- a `SETX` of XFFLAGS meanwhile leaves these flags in the final value or out of it (R110)
  let t := t.raiseFlags (if o.dirty.contains 2097152 && !Config.pickNew n 2097152 then 0 else o.fflags)
  if bad = 0#1024 then t
  else
    let x : LaneTrap := ⟨bad, 12, 0, o.pc, o.index, false, false, false, 0⟩
    match t.run with
    | some r => { t with run := some { r with consumed := r.consumed ++ [x] } }
    | none => { t with rolling := t.rolling ++ [x] }

/-- A counted operation completes: its values land, its flag goes down, a run held for it goes on (R65, R66). -/
def Team.finishOp (t : Team) (n num : Nat) : Team :=
  match t.ops.find? fun o => o.num == num with
  | none => t
  | some o =>
    let t := { t with ops := t.ops.filter fun o => o.num != num }
    let t := t.landOp n o
    let t := match o.flag with
      | some f => t.dropFlag o.depth f
      | none => t
    t.modRun fun r => if r.hold = some (.onOp num) then { r with hold := none } else r

/-- The operation the instruction now issuing starts: counted on the flag of its run, if any (R65, R66). -/
def Team.newOp (t : Team) (classA waits : Bool) (vd sd : List (Nat × Word × Bool)) (fl : FpFlags) : Op :=
  { num := t.nextOp, classA := classA, flag := t.countsOn classA, depth := t.depth, vDest := vd, sDest := sd, fflags := fl, dirty := []
    waits := waits, till := none, index := (t.run.map (·.itemIdx)).getD 0, pc := t.itemAddr, past := false, area := none }

/-- An operation issues: it takes a number and counts on its flag (R65). -/
def Team.startOp (t : Team) (classA waits : Bool) (vd sd : List (Nat × Word × Bool)) (fl : FpFlags) : Team × Nat :=
  let o := t.newOp classA waits vd sd fl
  let t := match o.flag with
    | some f => t.bumpFlag t.depth f
    | none => t
  ({ t with ops := t.ops ++ [o], nextOp := t.nextOp + 1 }, o.num)

/-- A SETA operation whose result is known issues: counted, it lands when it completes; with SETA 15 it holds the run, and
so has landed before the next instruction (R66). -/
def Team.issueA (t : Team) (n : Nat) (vd sd : List (Nat × Word × Bool)) (fl : FpFlags) : Team :=
  if (t.countsOn true).isNone then { t with nextOp := t.nextOp + 1 }.landOp n (t.newOp true false vd sd fl)
  else (t.startOp true false vd sd fl).1

/-- A SETB operation that has acted issues: counted until it completes; not counted with SETB 15 (R66). -/
def Team.issueB (t : Team) : Team :=
  if (t.countsOn false).isNone then t else (t.startOp false false [] [] 0).1

/-- Complete every outstanding operation whose effect is known (a wait of R99, R102, R276, R329 lets them end). -/
def Team.drainOps (t : Team) (n : Nat) : Team :=
  (t.ops.filter fun o => !o.waits).foldl (fun t o => t.finishOp n o.num) t

/-- The operation of a parked access. -/
def Team.isParkedOp (t : Team) (num : Nat) : Bool := t.parked.any fun p => p.op == num

/-! ### Frames in memory (R90, R99, R100) -/

/-- Write bytes as CORE-scope stores of a team in a mode, 32 at a time from an aligned address; the cause that stopped it
(R90, R99). -/
def storeBytes (s : State) (k : Nat) (mode : Mode) (va : Nat) : List Byte → Nat → State × Option (Nat × Bool)
  | [], _ => (s, none)
  | _, 0 => (s, none)
  | bs, fuel + 1 =>
    let core := coreOfTeam k
    let ctx := ((s.team k).map s.ctxOf).getD 0
    let n := 32 - va % 32
    let (s, r) := translateNow s core ctx va mode .store
    match r with
    | .error (.cause c st2) => (s, some (c, st2))
    | .error (.absent _) => (s, some (7, false))
    | .ok (pa, attr) =>
      match whereIs pa with
      | .absent => (s, some (7, false))
      | .aperture c off =>
        if apertureAllows s mode c off true then
          storeBytes (apertureStore s c off (bs.take n)) k mode (va + n) (bs.drop n) fuel
        else (s, some (7, false))
      | .hbm =>
        let tag := ((s.core core).tagOf ctx).getD 0
        let (s, left) := appendPieces s core tag 0 ⟨ctxOfTeam k, none, false, none⟩ (mergeBytes pa (bs.take n) false (retention attr 0) [])
        if left.isEmpty then storeBytes s k mode (va + n) (bs.drop n) fuel else (s, some (11, false))

/-- Read bytes as CORE-scope loads of a team in a mode (R90, R102); a cause comes with the address it arose at. -/
def loadBytes (k : Nat) (mode : Mode) : Nat → Nat → State → Nat → List Byte → State × Except (Nat × Bool × Nat) (List Byte)
  | _, 0, s, _, acc => (s, .ok acc)
  | 0, _, s, _, acc => (s, .ok acc)
  | fuel + 1, left, s, va, acc =>
    let core := coreOfTeam k
    let ctx := ((s.team k).map s.ctxOf).getD 0
    let n := min left (64 - va % 64)
    let (s, r) := translateNow s core ctx va mode .load
    match r with
    | .error (.cause c st2) => (s, .error (c, st2, va))
    | .error (.absent _) => (s, .error (7, false, va))
    | .ok (pa, _) =>
      match whereIs pa with
      | .absent => (s, .error (7, false, va))
      | .aperture c off =>
        if apertureAllows s mode c off false then
          loadBytes k mode fuel (left - n) s (va + n)
            (acc ++ (List.range n).map fun i => ((apertureByte s c (off + i)).map (·.1)).getD 0#8)
        else (s, .error (7, false, va))
      | .hbm => loadBytes k mode fuel (left - n) s (va + n) (acc ++ (viewBytes s core ctx true pa n).1)

/-- Read a number of bytes. -/
def loadSpan (s : State) (k : Nat) (mode : Mode) (va n : Nat) : State × Except (Nat × Bool × Nat) (List Byte) :=
  loadBytes k mode (n / 64 + 2) n s va []

/-- Bytes of a mask, 128 of them. -/
def maskBytes (m : Mask) : List Byte := leBytes 128 m.toNat
/-- A mask of 128 bytes at an offset. -/
def maskAt (bs : List Byte) (off : Nat) : Mask := BitVec.ofNat 1024 (fieldAt bs off 128)

/-- The kind's code in a frame (R100). -/
def StackKind.code : StackKind → Nat
  | .ifArm => 0
  | .elseArm => 1
  | .loopBody => 2

/-- A kind from its code. -/
def StackKind.ofCode (n : Nat) : StackKind := if n = 0 then .ifArm else if n = 1 then .elseArm else .loopBody

/-- The 264 bytes of a mask-stack entry (R100). -/
def StackEntry.bytes (e : StackEntry) : List Byte :=
  maskBytes e.saved ++ maskBytes e.other ++ leBytes 1 e.kind.code ++ zeroBytes 7

/-- A mask-stack entry from a frame or an image. -/
def stackEntryAt (bs : List Byte) (off : Nat) : StackEntry :=
  ⟨maskAt bs off, maskAt bs (off + 128), StackKind.ofCode (fieldAt bs (off + 256) 1), 0, 0⟩

/-- The mask-stack area: 32 entries, bottom first (R100). -/
def stackBytes (st : List StackEntry) : List Byte :=
  st.reverse.flatMap StackEntry.bytes ++ zeroBytes (264 * (32 - st.length))

/-- A stack of `n` entries read back, the top first. -/
def stackAt (bs : List Byte) (off n : Nat) : List StackEntry :=
  ((List.range n).map fun i => stackEntryAt bs (off + 264 * i)).reverse

/-- A mode's bank as a frame or an image holds it: scalars, masks, then eight registers of each lane (R100). -/
def bankBytes (t : Team) (m : Mode) : List Byte :=
  (List.range 8).flatMap (fun i => leBytes 4 (Sparse.get 0#32 t.regs.s (sKey m (56 + i))).toNat) ++ zeroBytes 32
    ++ (List.range 2).flatMap (fun i => maskBytes (Sparse.get 0#1024 t.regs.k (kKey m (14 + i))))
    ++ (List.range t.lanes).flatMap fun l =>
      (List.range 8).flatMap fun j => leBytes 4 (Sparse.get 0#32 t.regs.v (vKey m (112 + j) l)).toNat

/-- Restore a mode's bank from bytes at an offset (R102, R222). -/
def bankAt (t : Team) (m : Mode) (bs : List Byte) (off : Nat) : Team :=
  t.modRegs fun g =>
    { g with
      s := (List.range 8).foldl
        (fun x i => Sparse.set 0#32 x (sKey m (56 + i)) (BitVec.ofNat 32 (fieldAt bs (off + 4 * i) 4))) g.s
      k := (List.range 2).foldl (fun x i => Sparse.set 0#1024 x (kKey m (14 + i)) (maskAt bs (off + 64 + 128 * i))) g.k
      v := (List.range t.lanes).foldl
        (fun x l => (List.range 8).foldl
          (fun x j => Sparse.set 0#32 x (vKey m (112 + j) l) (BitVec.ofNat 32 (fieldAt bs (off + 320 + 32 * l + 4 * j) 4))) x) g.v }

/-- The eight registers of a bank as its bank area holds them (R90). -/
def bankAreaBytes (t : Team) (m : Mode) : List Byte :=
  (List.range 8).flatMap fun j =>
    (List.range t.lanes).flatMap fun l => leBytes 4 (Sparse.get 0#32 t.regs.v (vKey m (112 + j) l)).toNat

/-- A bank read back from its area. -/
def bankFromArea (t : Team) (m : Mode) (bs : List Byte) : Team :=
  t.modRegs fun g =>
    { g with
      v := (List.range 8).foldl
        (fun x j => (List.range t.lanes).foldl
          (fun x l => Sparse.set 0#32 x (vKey m (112 + j) l) (BitVec.ofNat 32 (fieldAt bs (4 * (t.lanes * j + l)) 4))) x) g.v }

/-- The lowest faulted lane of a parked access: lane, address, cause (R212). -/
def Parked.lowest (p : Parked) : Option (Nat × Nat × Nat) :=
  p.faulted.foldl
    (fun best f =>
      match best with
      | none => some (f.1, f.2.1, f.2.2.1)
      | some b => if f.1 < b.1 then some (f.1, f.2.1, f.2.2.1) else best) none

/-- A parked access as a frame lists it (R212): STATUS is the cause of the lane that VA belongs to. -/
def Parked.bytes (p : Parked) : List Byte :=
  let words := (List.range 32).filter fun w =>
    p.pending.any (fun x => x.1 / 32 == w) || p.faulted.any (fun x => x.1 / 32 == w)
  leBytes 4 (p.word % 2 ^ 31) ++ leBytes 1 ((p.lowest.map (·.2.2)).getD p.status) ++ leBytes 1 (p.flag.getD 15 + 16 * p.depth)
    ++ leBytes 1 p.slot ++ zeroBytes 1 ++ leBytes 8 ((p.lowest.map (·.2.1)).getD 0) ++ leBytes 4 p.pc
    ++ leBytes 4 (words.foldl (fun n w => n + 2 ^ w) 0) ++ leBytes 8 p.lclk ++ zeroBytes 32

/-! ### Trap entry (R99–R101) -/

/-- The lanes a due trap takes: those it names, or every active lane when it names none (R214). -/
def Team.dueLanes (t : Team) (x : LaneTrap) : Mask := if x.lanes = 0#1024 then t.trapSet else x.lanes

/-- The traps of faulted parked accesses, one for each faulted lane (R212). -/
def Team.parkedTraps (t : Team) : List LaneTrap :=
  t.parked.flatMap fun p =>
    if p.framed then []
    else p.faulted.map fun f => ⟨bitMask f.1, f.2.2.1, f.2.2.2.1, f.2.1, p.index, false, true, f.2.2.2.2, 0⟩

/-- The cause each lane takes: the first recorded for it (R215). -/
def laneTrapOf (xs : List (Mask × LaneTrap)) (l : Nat) : Option LaneTrap :=
  (xs.find? fun x => x.1.getLsbD l).map (·.2)

/-- A lane has accesses parked in the operand log (R99). -/
def Team.laneParked (t : Team) (l : Nat) : Bool :=
  t.parked.any fun p => p.pending.any (fun x => x.1 == l) || p.faulted.any (fun x => x.1 == l)

/-- `v116` of a lane (R99). -/
def trapStatus (t : Team) (x : LaneTrap) (l : Nat) : Word :=
  BitVec.ofNat 32 (x.index % 32 + 256 * x.cause + (if x.fetch then 2 ^ 16 else 0) + (if t.laneParked l then 2 ^ 17 else 0))

/-- Write `v116`–`v119` of the lanes of T in the bank of the mode the team is now in (R99). `detail` gives `v119`. -/
def Team.writeTrapRegs (t : Team) (xs : List (Mask × LaneTrap)) (tset : Mask) (old : Team) (detail : LaneTrap → Word) : Team :=
  let ls := lanesOf tset t.lanes
  let at' := fun (f : LaneTrap → Nat → Word) (l : Nat) =>
    match laneTrapOf xs l with
    | some x => f x l
    | none => 0#32
  let t := t.writeV 119 ls (at' fun x _ => detail x)
  let t := t.writeV 118 ls (at' fun x _ => BitVec.ofNat 32 (x.addr / 2 ^ 32))
  let t := t.writeV 117 ls (at' fun x _ => BitVec.ofNat 32 x.addr)
  t.writeV 116 ls (at' fun x l => trapStatus old x l)

/-- A `DOUBLE` in H ends every launch of the context (R101), and what the context has evicted with them; where firmware is configured
for it, it is a warm reset instead (R28, R218). -/
def endContext (s : State) (ctx cause : Nat) : State :=
  if Config.doubleResets then warmReset s 2
  else
    let ls := (s.launches.filter fun kl => kl.2.ctx == ctx && !kl.2.ended && kl.2.accepted != 0)
    let s := ls.foldl
      (fun s kl =>
        let s := emit s unitFirmware 0 0x001 0 (cause + 2 ^ 32 * (kl.2.id.toNat % 2 ^ 32))
        killLaunch s kl.1 (.doubleFault cause)) s
    journalNote s noteDouble

/-- Base of a team's trap-stack stride in a mode (R90, R94). -/
def strideBase (s : State) (t : Team) (m : Mode) : Nat :=
  match s.blockOf t with
  | none => 0
  | some b =>
    let cx := s.context (s.ctxOf t)
    let base := if m = .h then cx.xhtsbase else cx.xtsbase
    base.toNat + 196608 * (b.index * b.nteams + t.number)

/-- Bytes of a team's bank (R90). -/
def bankSize (t : Team) : Nat := 32 * t.lanes

/-- Write a resident bank back to its area (R90). -/
def writeBackBank (s : State) (k : Nat) (h : Bool) : State × Option (Nat × Bool) :=
  match s.team k with
  | none => (s, none)
  | some t =>
    let m : Mode := if h then .h else .s
    let bs := bankAreaBytes t m
    let (s, f) := storeBytes s k m (strideBase s t m) bs (bs.length / 32 + 2)
    match f with
    | some c => (s, some c)
    | none =>
      let s := s.modTeam k fun t => if h then { t with bankH := .inMemory } else { t with bankS := .inMemory }
      (s.modCore (coreOfTeam k) fun c => { c with banks := c.banks.filter fun x => x != (k, h) }, none)

/-- Bytes of the trap-bank buffer in use (R90). -/
def bankBytesUsed (s : State) (core : Nat) : Nat :=
  (s.core core).banks.foldl (fun n x => n + ((s.team x.1).map bankSize).getD 0) 0

/-- A bank in use: its team is in that mode, and a run of it is in progress or a result is on its way. -/
def bankBusy (s : State) (x : Nat × Bool) : Bool :=
  match s.team x.1 with
  | none => false
  | some t => t.mode == (if x.2 then .h else .s) && (t.run.isSome || !t.ops.isEmpty)

/-- Write the oldest banks not in use back until `need` bytes are free (R90). -/
def freeBankRoom (core need : Nat) : Nat → State → State × Option (Nat × Bool)
  | 0, s => (s, none)
  | fuel + 1, s =>
    if bankBytesUsed s core + need ≤ 65536 then (s, none)
    else
      match (s.core core).banks.find? fun x => !bankBusy s x with
      | none => (s, none)
      | some x =>
        let (s, f) := writeBackBank s x.1 x.2
        match f with
        | some c => (s, some c)
        | none => freeBankRoom core need fuel s

/-- The banks in use leave no room for a team's bank of mode M, so that what needs it waits (log entry 12). -/
def bankWaits (s : State) (k : Nat) (m : Mode) : Bool :=
  match s.team k with
  | none => false
  | some t =>
    let busy := (s.core (coreOfTeam k)).banks.filter (bankBusy s)
    m != .u && (if m = .h then t.bankH else t.bankS) != .resident
      && decide (65536 < bankSize t + busy.foldl (fun n x => n + ((s.team x.1).map bankSize).getD 0) 0)

/-- Make a team's bank of mode M resident (R90). -/
def residentBank (s : State) (k : Nat) (m : Mode) : State × Option (Nat × Bool) :=
  match s.team k with
  | none => (s, none)
  | some t =>
    let h := m = .h
    let place := if h then t.bankH else t.bankS
    if m = .u ∨ place = .resident then (s, none)
    else
      let (s, f) := freeBankRoom (coreOfTeam k) (bankSize t) ((s.core (coreOfTeam k)).banks.length) s
      match f with
      | some c => (s, some c)
      | none =>
        let mark := fun (t : Team) => if h then { t with bankH := .resident } else { t with bankS := .resident }
        let note := fun (s : State) => s.modCore (coreOfTeam k) fun c => { c with banks := c.banks ++ [(k, decide h)] }
        if place = .unwritten then (note (s.modTeam k mark), none)
        else
          let (s, r) := loadSpan s k m (strideBase s t m) (bankSize t)
          match r with
          | .error c => (s, some (c.1, c.2.1))
          | .ok bs => (note (s.modTeam k fun t => mark (bankFromArea t m bs)), none)

/-- `DOUBLE` (R101): from U or S no frame is pushed and the team goes to H, with H's bank resident and every region closed (R275); in H, or
where H's handler or its bank cannot be reached, the context's launches end. -/
def enterDouble (s : State) (k : Nat) (xs : List (Mask × LaneTrap)) (tset : Mask) (resume cause : Nat) : State :=
  match s.team k with
  | none => s
  | some t =>
    let ctx := s.ctxOf t
    let vect := (s.context ctx).xhvect.toNat
    if t.mode = .h || (textLength s 3 vect).isNone then endContext s ctx cause
    else
      let (s, f) := residentBank s k .h
      match f, s.team k with
      | none, some t' =>
        -- the accesses whose faults could not be taken are taken note of
        let t' := { t' with
          mode := .h, double := some ⟨cause, resume⟩, stack := [], pc := 0, textBase := vect, due := [], region := none, opening := none
          parked := t'.parked.map fun (p : Parked) => if p.depth == t.depth && !p.faulted.isEmpty then { p with framed := true } else p }
        let t' := t'.modRegs fun g => { g with part := 0, fflags := 0 }
        let t' := (t'.writeK 15 tset).writeK0 tset 0#1024
        let t' := t'.writeTrapRegs xs tset t fun _ => BitVec.ofNat 32 cause
        emit (s.setTeam k t') unitCore (coreOfTeam k) 0x000 0
          (23 + 256 * ctxOfTeam k + 4096 * t.depth + 2 ^ 14 * (popBits tset t.lanes) + 2 ^ 32 * resume)
      | _, _ => endContext s ctx cause

/-- The lowest-indexed of the causes that lanes carry; of those of one index, the lowest lane's. -/
def lowestTrap (xs : List LaneTrap) : Option LaneTrap :=
  xs.foldl
    (fun b x =>
      match b with
      | none => some x
      | some y => if x.index < y.index then some x else b) none

/-- XECAUSE (R94, R215), from the causes the lanes of T carry: that of the lowest-indexed trapping instruction, more than one cause,
imm16. -/
def causeWord (xs : List (Mask × LaneTrap)) (tset : Mask) (lanes : Nat) : Word :=
  let held := (lanesOf tset lanes).filterMap (laneTrapOf xs)
  match lowestTrap held with
  | none => 0
  | some b =>
    BitVec.ofNat 32 (b.cause + (if held.any (fun x => x.cause != b.cause) then 256 else 0) + 2 ^ 16 * b.imm.toNat)

/-- The frame of an entry, lowest address first (R100). -/
def frameBytes (t : Team) (xs : List (Mask × LaneTrap)) (tset : Mask) (nested : Bool) (parked : List Parked) : List Byte :=
  leBytes 4 t.pc ++ leBytes 4 (causeWord xs tset t.lanes).toNat ++ leBytes 8 t.textBase ++ leBytes 1 t.mode.code
    ++ leBytes 1 (if nested then 1 else 0) ++ leBytes 1 t.regs.part.toNat ++ leBytes 1 t.regs.fflags.toNat
    ++ leBytes 4 t.stack.length ++ leBytes 4 parked.length ++ zeroBytes 36
    ++ maskBytes t.k0 ++ maskBytes tset ++ stackBytes t.stack
    ++ (if nested then bankBytes t t.mode else [])
    ++ parked.flatMap Parked.bytes

/-- Size of a frame (R100). -/
def frameSize (lanes parked : Nat) (nested : Bool) : Nat := 8768 + (if nested then 320 + 32 * lanes else 0) + 64 * parked

/-- The mode a trap entry is made in (R97, R215). -/
def entryMode (t : Team) (due : List LaneTrap) : Mode := if t.mode = .h ∨ due.any (fun x => x.inH) then .h else .s

/-- Take the traps `due` of a team that stands between runs (R99, R215): into H when some lane's cause goes there or the
team is in H, else into S; saved state in a frame, the team at code address 0 of the handler. -/
def trapEntry (s : State) (k : Nat) (due : List LaneTrap) : State :=
  match s.team k with
  | none => s
  | some t =>
    let xs := due.map fun x => (t.dueLanes x, x)
    let tset := xs.foldl (fun m x => m ||| x.1) 0#1024
    let m := entryMode t due
    let cause := (causeWord xs tset t.lanes).toNat % 256
    let fail := fun (s : State) => enterDouble s k xs tset t.pc cause
    let sp := (if m = .h then t.xhtsp else t.xtsp).toNat
    let cx := s.context (s.ctxOf t)
    let vect := (if m = .h then cx.xhvect else cx.xvect).toNat
    if t.depth = 3 ∨ sp % 64 ≠ 0 then fail s
    else
      let parked := t.parked.filter fun p => p.depth == t.depth && !p.framed
      let nested := decide (m = t.mode)
      let size := frameSize t.lanes parked.length nested
      let sp' := (BitVec.ofNat 64 sp - BitVec.ofNat 64 size)
      let bs := frameBytes t xs tset nested parked
      let (s, f) := storeBytes s k m sp'.toNat bs (bs.length / 32 + 2)
      match f with
      | some _ => fail s
      | none =>
        if (textLength s 3 vect).isNone then fail s
        else
          let (s, f) := residentBank s k m
          match f with
          | some _ => fail s
          | none =>
            match s.team k with
            | none => s
            | some t' =>
              let t' : Team := { t' with
                xtsp := if m = .h then t'.xtsp else sp', xhtsp := if m = .h then sp' else t'.xhtsp
                depth := t.depth + 1, mode := m, stack := [], pc := 0, textBase := vect, due := [], region := none, opening := none
                parked := t'.parked.map fun p => if p.depth == t.depth then { p with framed := true } else p }
              let t' := t'.modRegs fun g => { g with part := 0, fflags := 0 }
              let t' := (t'.writeK 15 tset).writeK0 tset 0#1024
              let t' := t'.writeTrapRegs xs tset t (·.detail)
              emit (s.setTeam k t') unitCore (coreOfTeam k) 0x000 0
                (cause + 256 * ctxOfTeam k + 4096 * (t.depth + 1) + 2 ^ 14 * (popBits tset t.lanes) + 2 ^ 32 * t.pc)

/-- A register-writing operation other than a parked access still runs, which an entry waits for (R99). -/
def Team.awaitsA (t : Team) : Bool := t.ops.any fun o => o.classA && o.waits && o.depth == t.depth && !t.isParkedOp o.num

/-! ### Regions (R274–R277) -/

/-- Take a checkpoint at a run's end (R274, R275). -/
def Team.checkpoint (t : Team) (id : BitVec 20) (tail restart : Nat) : Team :=
  { t with
    region := some
      { id := id, mark := tail, restart := restart, k0 := t.k0, stack := t.stack, s := t.regs.s, sg := t.sg, ldclk := t.ldclk
        rolled := false, leaked := false } }

/-- May a consumption roll the team back (R276, R277)? -/
def Team.mayRoll (t : Team) : Bool :=
  match t.region with
  | some r => !r.leaked && !r.rolled && t.depth == 0
  | none => false

/-- A parked access that stores (R146, R274). -/
def Parked.stores (p : Parked) : Bool := p.word / 2 ^ 25 % 64 == 7 || p.word / 2 ^ 25 % 64 == 0x21

/-- A region opens or advances once every store the team has issued is appended (R274, R275). -/
def settleRegion (s : State) (k : Nat) : State :=
  match s.team k with
  | none => s
  | some t =>
    match t.opening with
    | none => s
    | some id =>
      if t.run.isSome || t.parked.any Parked.stores then s
      else
        let c := s.core (coreOfTeam k)
        s.setTeam k ({ t with opening := none }.checkpoint id (c.tail ((c.tagOf (s.ctxOf t)).getD 0)) t.pc)

/-- Restore the checkpoint of the open region (R276). The traps the team owes that are not its own instructions' stay due. -/
def rollBack (s : State) (k : Nat) : State :=
  match s.team k with
  | none => s
  | some t =>
    match t.region with
    | none => s
    | some r =>
      let xs := t.rolling
      let lanes := xs.foldl (fun m x => m ||| x.lanes) 0#1024
      -- a parked access is dropped: its pending lanes' elements are not written (R213)
      let t := (t.parked.filter fun p => !p.framed).foldl (fun t p => t.finishOp s.tick p.op) t
      let gone := fun (e : StackEntry) => { e with saved := e.saved &&& ~~~t.exited, other := e.other &&& ~~~t.exited }
      let t := { t with
        parked := t.parked.filter fun p => p.framed
        rolling := [], due := t.due.filter LaneTrap.outside
        stack := r.stack.map gone, sg := r.sg, ldclk := r.ldclk, pc := r.restart
        region := some { r with rolled := true } }
      -- s1 to s55 and the banks are what the checkpoint holds
      let t := t.modRegs fun g => { g with s := r.s, sPoison := [] }
      let t := t.writeK0 (r.k0 &&& ~~~t.exited) 0#1024
      let core := coreOfTeam k
      let ctx := s.ctxOf t
      let s := s.modCore core fun c =>
        { c with
          log := c.log.filter fun e => !(e.tctx == ctxOfTeam k && some e.ctx == c.tagOf ctx && decide (r.mark ≤ e.pos) && !e.pub)
          l1 := c.l1.filter fun line => !((List.range 4).any fun i => Sparse.get false c.l1Poison (4 * line.1 + i))
          l1Poison := [] }
      let cause := (xs.head?.map (·.cause)).getD 12
      emit (s.setTeam k t) unitCore core 0x000 0
        (cause + 256 * ctxOfTeam k + 2 ^ 14 * (popBits lanes t.lanes) + 2 ^ 32 * r.restart)

/-- A consumption handled at a run boundary (R273, R276, R277): roll back once every operation has completed, or trap. A checkpoint that
still waits for stores comes first (R274). -/
def settleConsumption (s : State) (k : Nat) : State :=
  let s := settleRegion s k
  match s.team k with
  | none => s
  | some t =>
    if t.rolling.isEmpty ∨ t.run.isSome ∨ (t.opening.isSome ∧ t.parkedTraps.isEmpty) then s
    else if t.mayRoll && t.opening.isNone then
      let t := t.drainOps s.tick
      let s := s.setTeam k t
      if t.ops.any fun o => o.waits && !t.isParkedOp o.num && o.till.isNone then s else rollBack s k
    else s.setTeam k { t with due := t.due ++ t.rolling, rolling := [] }

/-- What a team owes at a run boundary: a team with no lane left owes what its parked accesses met only (R171, R212). -/
def Team.owes (t : Team) : List LaneTrap := (if t.gone then [] else t.due) ++ t.parkedTraps

/-- A team stands between runs, at no blocking point, and owes a trap. -/
def Team.standsOwing (t : Team) : Bool :=
  t.run.isNone && t.wait.isNone && t.rolling.isEmpty && !t.owes.isEmpty && !t.ended

/-- Take what is due, if the team stands between runs at no blocking point, no consumption is to be rolled back, and no operation must
end first (R99, R212, R215, R273). -/
def tryEnter (s : State) (k : Nat) : State :=
  match s.team k with
  | none => s
  | some t =>
    if !t.standsOwing then s
    else
      let s := settleConsumption (s.setTeam k (t.drainOps s.tick)) k
      match s.team k with
      | none => s
      | some t =>
        if !t.standsOwing || t.awaitsA || bankWaits s k (entryMode t t.owes) then s else trapEntry s k t.owes

/-! ### A run ends -/

/-- Lanes leave a team (R50, R328): from `k0`, and from every entry of the mask stack. -/
def Team.exitLanes (t : Team) (m : Mask) : Team :=
  if m = 0#1024 then t
  else
    let cut := fun (e : StackEntry) => { e with saved := e.saved &&& ~~~m, other := e.other &&& ~~~m }
    let t := { t with exited := t.exited ||| m, stack := t.stack.map cut }
    t.writeK0 (t.k0 &&& ~~~m) (t.k0Diff &&& ~~~m)

/-- Clear the run temporaries (R69). -/
def Team.clearTemps (t : Team) : Team :=
  t.modRegs fun g =>
    { g with v := g.v.filter fun kv => !isTempKey kv.1, vPoison := g.vPoison.filter fun kv => !isTempKey kv.1 }

/-- Check the code address a run ends at (R59, R60): a cause for every active lane, or nothing. DESIGN CHOICE (log entry 49): an address that is
no multiple of 12 and lies beyond the text takes `ALIGN`. -/
def codeAddressCause (s : State) (t : Team) (transfer : Bool) (target : Int) : Option Nat :=
  if target % 12 ≠ 0 then some 8
  else
    let kind := if t.mode = .u then 1 else 3
    let len := (textLength s kind t.textBase).getD 0
    if transfer && (decide (target < 0) || decide ((len : Int) ≤ target)) then some 6 else none

/-- Free the issue slot of a team. -/
def freeSlot (s : State) (k : Nat) : State :=
  s.modCore (coreOfTeam k) fun c =>
    { c with slotA := if c.slotA = some k then none else c.slotA, slotB := if c.slotB = some k then none else c.slotB }

/-- The context tag of a team's context in its core's log. -/
def State.tagFor (s : State) (k : Nat) : Nat :=
  match s.team k with
  | some t => ((s.core (coreOfTeam k)).tagOf (s.ctxOf t)).getD 0
  | none => 0

/-- The region at the end of a run that no rollback follows (R274, R275). -/
def Team.moveRegion (t : Team) (r : Run) (closes : Bool) : Team :=
  if closes then { t with region := none, opening := none }
  else
    match r.opens, t.region with
    | some id, _ => { t with opening := some id }
    | none, some g => if r.advances then { t with opening := some g.id } else t
    | none, none => t

/-- What a team owes of itself where a run ends (R59, R208, R216): the code address it goes to, a single step, a spent budget. -/
def boundaryTraps (s : State) (k : Nat) (t : Team) (r : Run) (next : Nat) (held : Mask) : List LaneTrap :=
  let left := t.trapSet &&& ~~~held
  let code : List LaneTrap :=
    match if t.double.isSome && r.newText.isSome then none else codeAddressCause s t r.target.isSome next with
    | some c => if left = 0#1024 then [] else [.ofTarget left c (if c = 6 then 2 else Config.freeWord s.tick 8) next]
    | none => []
  let stepped := r.mode = .u && Sparse.get false (s.core (coreOfTeam k)).steps (ctxOfTeam k)
  let spent := t.depth = 0 && ((s.launchOf t).map fun l => l.budget == 0).getD false
  code ++ (if stepped then [.owed 19 0x80000000#32 next false] else []) ++ if spent then [.owed 14 0 next false] else []

/-- A run ends (R59, R98, R215, R274, R275, R328): lanes exit, a consumption rolls back or traps, the region opens, closes or advances, the
team goes to its target or falls through, its slot frees, and the traps held for it are taken. -/
def closeRun (s : State) (k : Nat) : State :=
  match s.team k with
  | none => s
  | some t =>
    match t.run with
    | none => s
    | some r =>
      -- a team that gave `REGRP` no lane ends once it has returned (R385)
      let t := t.exitLanes (r.exits ||| if t.ends && t.depth == 0 && t.double.isNone then t.living else 0#1024)
      let all := t.gone
      let next : Nat := r.target.getD r.through
      let t := { t with
        pc := next, textBase := r.newText.getD t.textBase, run := none, snap := none, snapOps := []
        yielded := if r.yields then [0, 1] else t.yielded }
      let closes := r.closes || r.blocks.isSome || all
      -- the region as it stands before this end decides (R276), and a rollback discards the traps of the run's own instructions
      let rolls := !r.consumed.isEmpty && t.mayRoll && !closes
      let own := if rolls then [] else r.traps ++ r.consumed
      let t := if rolls then { t with rolling := t.rolling ++ r.consumed } else t.moveRegion r closes
      let t := { t with ops := t.ops.map fun (o : Op) => { o with past := true } }.clearTemps
      let held := own.foldl (fun m x => m ||| x.lanes) 0#1024
      let met := if all then [] else (boundaryTraps s k t r next held).filter fun x => !rolls || x.outside
      let t := { t with due := (t.due.filter fun x => x.cause != 14) ++ own ++ met }
      let t := match r.blocks with
        | some w => { t with wait := some w, waitSince := s.time }
        | none => t
      let s := noteOwedBudget (freeSlot (s.setTeam k t) k) k
      tryEnter (settleConsumption s k) k

/-- After an instruction: the chain goes on or ends, and a run with nothing left ends (R61, R68). An instruction that stalled is still to
come; a run that holds for the operation of its last word ends when that completes (R66). -/
def finishInstr (s : State) : State :=
  match s.team s.cur with
  | none => s
  | some t =>
    match t.run with
    | none => s
    | some r =>
      if r.hold = some .retry then s
      else
        let s := s.setTeam s.cur
          { t with
            snap := if r.item.chain then t.snap else none
            snapOps := if r.item.chain then t.snapOps else []
            run := some { r with
              inChain := r.item.chain
              helper := r.helper || (r.fills && !r.item.chain), fills := r.fills && r.item.chain } }
        if r.items.isEmpty && r.hold.isNone then closeRun s s.cur else s

/-- A run that held for its last word ends (R66, R68). -/
def endHeld (s : State) : State :=
  match (s.team s.cur).bind (·.run) with
  | none => s
  | some r => if r.items.isEmpty && r.hold.isNone then closeRun s s.cur else s

/-- An entry with the window of R71: 8 × w is added to each field at the positions `lows` that names `v0`–`v119`; a sum has the seven
bits of its field, and no other field changes. -/
def windowWord (lows : List Nat) (w word : Nat) : Nat :=
  lows.foldl
    (fun x lo =>
      let f := word / 2 ^ lo % 128
      if f < 120 then x - f * 2 ^ lo + (f + 8 * w) % 128 * 2 ^ lo else x)
    word

/-- Some field of an entry passes a limit under a window: 119 makes it no register (R71), 127 leaves its seven bits. -/
def windowPasses (limit : Nat) (lows : List Nat) (w word : Nat) : Bool :=
  lows.any fun lo => decide (word / 2 ^ lo % 128 < 120 ∧ limit < word / 2 ^ lo % 128 + 8 * w)

/-- Some field of an entry leaves `v0`–`v119` under a window (R71). -/
def windowBreaks (lows : List Nat) (w word : Nat) : Bool := windowPasses 119 lows w word

/-- The fields of a dictionary word: CH, WIN0, IDX0, WIN1, IDX1 (R71). -/
structure DictRef where
  ch   : Bool
  win0 : Nat
  idx0 : Nat
  win1 : Nat
  idx1 : Nat
  deriving DecidableEq, Repr

/-- Read the fields of a dictionary word. -/
def DictRef.ofWord (w : Nat) : DictRef :=
  ⟨w / 2 ^ 24 % 2 == 1, w / 2 ^ 22 % 4, w / 2 ^ 12 % 1024, w / 2 ^ 10 % 4, w % 1024⟩

/-- The two references of a dictionary word in place of it (R71, R435): the first is chained by CH, the second by the word's C.
`lows` gives the positions of the vector register fields of an entry. -/
def expandRef (lows : Nat → List Nat) (dict : List Nat) (addr : Nat) (chain : Bool) (d : DictRef) : List RunItem :=
  let entry := fun (i w : Nat) =>
    let e := dict.getD i 0 % 2147483648
    windowWord (lows e) w e
  [⟨entry d.idx0 d.win0, addr, d.ch⟩, ⟨entry d.idx1 d.win1, addr, chain⟩]

/-- An item of a run, a dictionary word expanded. -/
def expandItem (lows : Nat → List Nat) (dict : List Nat) (it : RunItem) : List RunItem :=
  if isDictWord it.word then expandRef lows dict it.addr it.chain (DictRef.ofWord it.word) else [it]

/-- The items of a list that are chained to what stands before it. -/
def chainedItems : Bool → List RunItem → List RunItem
  | false, _ => []
  | true, [] => []
  | true, it :: rest => it :: chainedItems it.chain rest

/-- The rest of the run is skipped, the closing instruction included; what is chained to this instruction still acts
(R49, R307, R365). -/
def skipRest (lows : Nat → List Nat) (dict : List Nat) (t : Team) (target : Nat) : Team :=
  t.modRun fun r =>
    { r with items := chainedItems r.item.chain (r.items.flatMap (expandItem lows dict)), target := some target }

/-! ### Return (R102) -/

/-- What a `RETT` finds in the top frame; the previous mode is its code. -/
structure Frame where
  resume  : Nat
  text    : Nat
  mode    : Nat
  nested  : Bool
  size    : Nat
  parked  : Nat
  bytes   : List Byte

/-- A mode from its code. -/
def Mode.ofCode (n : Nat) : Mode := if n = 0 then .u else if n = 1 then .s else .h

/-- Read the top frame (R102). -/
def readFrame (s : State) (k : Nat) (t : Team) (sp : Nat) : State × Except (Nat × Bool × Nat) Frame :=
  let (s, r) := loadSpan s k t.mode sp 8768
  match r with
  | .error e => (s, .error e)
  | .ok head =>
    let nested := fieldAt head 17 1 % 2 == 1
    let n := min (fieldAt head 24 4) 8
    let size := frameSize t.lanes n nested
    let (s, r) := loadSpan s k t.mode (sp + 8768) (size - 8768)
    match r with
    | .error e => (s, .error e)
    | .ok rest =>
      (s, .ok ⟨fieldAt head 0 4, fieldAt head 8 8, fieldAt head 16 1, nested, size, n, head ++ rest⟩)

/-- Is the frame's previous mode above a mode (R102)? -/
def Frame.above (f : Frame) (m : Mode) : Bool := decide (m.code < f.mode)

/-- The operations a `RETT` waits for: every counted one of the current set but matrix reservations (R102). -/
def returnWaits (s : State) (k : Nat) (t : Team) : Bool :=
  let reserved := (s.cluster (clusterOf (coreOfTeam k))).table
  t.ops.any fun o => o.depth == t.depth && o.waits && o.flag.isSome && !(reserved.any fun kr => kr.2.team == k && kr.2.op == some o.num)

/-- The state a frame restores (R102, R213), at the end of the run that holds the `RETT`. -/
def restoreFrame (t : Team) (n : Nat) (f : Frame) (sp : Nat) : Team :=
  let t := if f.nested then bankAt t t.mode f.bytes 8768 else t
  let base := 8768 + (if f.nested then 320 + 32 * t.lanes else 0)
  let listed := t.parked.filter fun p => p.framed && p.depth + 1 == t.depth
  let dropped := (listed.zipIdx).filterMap fun pi =>
    if fieldAt f.bytes (base + 64 * pi.2 + 4) 1 = 0xFF ∧ pi.2 < f.parked then some pi.1.op else none
  let cut := fun (e : StackEntry) => { e with saved := e.saved &&& ~~~t.exited, other := e.other &&& ~~~t.exited }
  let sp' := BitVec.ofNat 64 (sp + f.size)
  let old := t.mode
  let t : Team := { t with
    stack := (stackAt f.bytes 320 (min (fieldAt f.bytes 20 4) 32)).map cut
    xtsp := if old = .h then t.xtsp else sp', xhtsp := if old = .h then sp' else t.xhtsp
    depth := t.depth - 1, mode := Mode.ofCode f.mode }
  let t := t.modRegs fun g =>
    { g with part := BitVec.ofNat 3 (fieldAt f.bytes 18 1), fflags := BitVec.ofNat 5 (fieldAt f.bytes 19 1) }
  let t := t.writeK0 (maskAt f.bytes 64 &&& ~~~t.exited) 0#1024
  -- listed accesses are tried again for their pending lanes; a discarded one leaves the destination of its pending lanes
  let t := dropped.foldl (fun (t : Team) op => t.finishOp n op) t
  { t with parked := (t.parked.filter fun p => !dropped.contains p.op).map fun p =>
      if p.framed && p.depth == t.depth then
        { p with framed := false, status := 0, faulted := [], again := true }
      else p }

/-- `DOUBLE` in place of a `RETT` (R101): the cause it could not take is its own, at its own word or at the address of the frame that
could not be read, and the resume point is where the run would have ended. -/
def doubleReturn (s : State) (k : Nat) (t : Team) (cause addr : Nat) : State :=
  let x : LaneTrap := ⟨t.trapSet, cause, 0, addr, (t.run.map (·.itemIdx)).getD 0, false, false, false, 0⟩
  enterDouble (freeSlot (s.modTeam k fun t => { t with run := none, snap := none, snapOps := [] }) k) k [(t.trapSet, x)] t.trapSet
    ((t.run.map (·.through)).getD t.pc) cause

/-- `RETT` (R102). -/
def returnFromTrap (s : State) : State :=
  match s.team s.cur with
  | none => s
  | some t =>
    let k := s.cur
    let priv := fun (s : State) (t : Team) => s.setTeam k (t.raise t.trapSet 5 t.itemWord t.itemAddr false 0)
    if t.k0 ≠ 0#1024 && t.acting = 0#1024 then s
    else if t.mode = .u then priv s t
    else if t.double.isSome then doubleReturn s k t 23 t.itemAddr
    else if t.depth = 0 then s.setTeam k t.illegalOp
    else
      let sp := (if t.mode = .h then t.xhtsp else t.xtsp).toNat
      if sp % 64 ≠ 0 then doubleReturn s k t 8 t.itemAddr
      else
        let (s, r) := readFrame s k t sp
        match r with
        | .error e => doubleReturn s k t e.1 e.2.2
        | .ok f =>
          match s.team k with
          | none => s
          | some t =>
            if f.above t.mode then priv s t
            else
              let t := t.drainOps s.tick
              let s := s.setTeam k t
              if returnWaits s k t then stallInstr s
              else
                let t := restoreFrame t s.tick f sp
                s.setTeam k (t.modRun fun r => { r with target := some f.resume, newText := some f.text })

end Sys2Proof.Machine
end

