-- ==== Sys2Proof/Machine/Turn.lean ====
section
/-! DEFINITION. The pieces of a step around the meaning of an instruction: which team's run moves, the instruction it decodes,
and what the step does by itself when the agenda is empty (log entry 1). -/

namespace Sys2Proof.Machine

/-- The instruction at the head of the current team's run. -/
def headItem (s : State) : Option RunItem :=
  match s.team s.cur with
  | none => none
  | some t =>
    match t.run with
    | none => none
    | some r => r.items.head?

/-- The run of the current team holds for an operation (R66), or compute is frozen (R32). -/
def heldRun (s : State) : Bool :=
  s.module.tripped ||
  match s.team s.cur with
  | none => false
  | some t =>
    match t.run with
    | none => false
    | some r =>
      match r.hold with
      | some (.onOp _) => true
      | _ => false

/-- The events of the compute dies, of placing work on them, and of the Runner ports: none happens once a trip froze them (R32). -/
def frozenEvent : Instr → Bool
  | .runStart _ _ | .teamPromote _ | .operationComplete _ _ | .walkComplete _ _ _ | .trapEntry _ | .regionRollback _ | .ladleGrant _
  | .regrpForm _ | .endrgReturn _ | .teamWake _ | .teamEnd _ | .blockEnd _ | .budgetOut _ | .fold _ | .rebase | .engineCommandIssue _
  | .copyUnit _ _ | .copyComplete _ | .reservationGrant _ | .reservationRetire _ _ | .reservationPromote _ _ | .packetSend _
  | .flitReceive _ _ _ _ _ _ | .linkRetrain _ | .putDataPacket _ _ | .putsDataPacket _ _ | .signalPacket _ _ | .getRequestPacket _ _
  | .getResponsePacket _ _ _ | .collectiveChunk _ _ | .ackPacket _ _ | .nackPacket _ _ _ | .controlPacket _ _ | .retransmit _
  | .coreOffer _ | .carveChange _ | .sliceBoundary _ | .blockEvict _ | .blockResume _ _ | .lanemapApply _ | .sample _ _
  | .l1LineEvict _ _ | .fallback _ _ | .monitorSpuriousWake _ => true
  | _ => false

/-- A turn that names an event: an instruction word is no event, and a frozen event does not happen. -/
def happens (s : State) (i : Instr) : Bool := !i.isWord && !(s.module.tripped && frozenEvent i)

/-- Time passes, and the current team's next instruction leaves the run buffer. -/
def beginInstr (s : State) : State := (passTime s).modTeam s.cur Team.begin

/-- A word of the run buffer that is no instruction: `ILLEGAL_OP` (R434). The fetch checks leave none. -/
def badWord (s : State) : State := s.modTeam s.cur Team.illegalOp

/-- The team in an issue slot of a core. -/
def slotTeam (s : State) (core slot : Nat) : Option Nat := if slot = 0 then (s.core core).slotA else (s.core core).slotB

/-- Records of classes 0 and 1 that a step has sent to the recorder (R252). -/
def newUrgent (s s' : State) : Bool := (s'.recorder.transit.drop s.recorder.transit.length).any fun r => decide (r.cls ≤ 1)

/-- While the intake buffer has no room, an operation whose record of class 0 or 1 would wait does not happen (R252). -/
def roomFor (s : State) (o : Out) : Out :=
  match o with
  | .next s' =>
    if intakeSize ≤ s.recorder.intake.length + s.recorder.transit.length && newUrgent s s' then .next (passTime s) else .next s'
  | o => o

end Sys2Proof.Machine
end

