-- ==== Sys2Proof/Machine/Default.lean ====
section
/-! DEFINITION. A team at its first run, and the placing of one instruction word for the next step (log entry 7). -/

namespace Sys2Proof.Machine

/-- A team at its first run (R88): `k0` holds every lane, `SG` all ones, every other register zero; the restart of the text at `base`. -/
def Team.fresh (block number words tbase base : Nat) : Team :=
  { block := block, number := number, words := words, tbase := tbase
    regs := { Regs.zero with k := Sparse.set 0#1024 [] 0 (laneMask (32 * words)) }
    snap := none, snapOps := [], exited := 0, flags := [], stack := [], sg := 0xFFFFFFFF, lclk := 0, pc := 0, textBase := base, mode := .u, depth := 0
    xtsp := 0, xhtsp := 0, double := none, bankS := .unwritten, bankH := .unwritten, run := none, ops := [], nextOp := 0
    parked := [], due := [], clkLatch := [], xLatch := [], xHold := [], wait := none, waitCause := 0, waitSince := 0
    lastIssue := 0, passed := 0, promoted := false, yielded := [], monitor := Monitor.clear, region := none, ldclk := 0
    phases := 0, wants := false, homes := [], rolling := [], opening := none, ends := false, ended := false }

/-- A run of one word at code address 0. -/
def oneWordRun (w : Nat) : Run :=
  { start := 0, setA := 15, setB := 15, items := [⟨w % 2147483648, 0, chainBit w⟩], index := 0, through := 12, target := none
    newText := none, helper := false, fills := false, traps := [], consumed := [], hold := none, opens := none, closes := false, advances := false
    exits := 0, yields := false, blocks := none, item := ⟨0, 0, false⟩, itemIdx := 0, inChain := false, sgRead := 0, sg0 := 0, lclk0 := 0
    mode := .u, order := 0 }

/-- The kernel image that `placeWord` lays at device address 0x1000: TEXTOFF 256, TEXTLEN 24, and at its text base a run of
the one word `w` and a run of one `NOP`. -/
def oneWordImage (w : Nat) : List (Nat × Byte) :=
  ((leBytes 4 256 ++ leBytes 4 24).zipIdx.map fun bi => (0x1020 + bi.2, bi.1))
    ++ ((leBytes 4 0x1FE0 ++ leBytes 4 w ++ leBytes 4 0x02000000 ++ leBytes 4 0x1FE0 ++ leBytes 4 0x02000000
      ++ leBytes 4 0x02000000).zipIdx.map fun bi => (0x1100 + bi.2, bi.1))

/-- One block of one team of 32 lanes on core 0, and the word `w` as its run, fetched and issuing (log entry 7). -/
def placeWord (s : State) (w : Nat) : State :=
  let img : Image := { kind := 1, dpa := 0x1000, size := 320, ctx := 0, datava := 0 }
  let l : Launch :=
    { id := 0, ctx := 0, kernel := 0, graph := 0, nblocks := 1, next := 1, deadline := BitVec.allOnes 64
      budget := BitVec.allOnes 64, argva := 0, handle := 0, seed := 0, classMax := 0, cls := 0, origin := 0, queue := 0, place := 0
      alloc := 1024, accRows := 0, grouping := false, flagEvt := false, determ := false, cores := false, accepted := 1
      readyAt := 0, ended := false, spent := false, failure := none, gridArr := [], gridEnd := [], gridBound := (0, 0), ls := 0, nextSeq := 1
      ladle := none, regions := [], invalidSeen := false }
  let b : Block :=
    { launch := 0, index := 0, core := 0, slot := 0, base := 0, size := 1048576, accBase := 0, accRows := 0, vregs := 120, lanes := 32
      nteams := 1, dict := [0x02000000, 0x02000000], tiles := [], barriers := [], grouped := false, homes := [], regrouped := false, leaving := false
      exited := 0, firstAcq := none }
  let t : Team := { Team.fresh 0 0 1 0 0x1100 with run := some (oneWordRun w), xtsp := 196608, xhtsp := 196608 }
  let s := { s with
    agenda := [], cur := 0
    home := { s.home with mem := (oneWordImage w).foldl (fun m (c : Nat × Byte) => Sparse.set 0#8 m c.1 c.2) s.home.mem }
    hub := { s.hub with images := s.hub.images.put 0 img, nextLaunch := 1 } }
  let s := s.modCore 0 fun c => { c with slotA := some 0, runs := 1, ctxLogs := c.ctxLogs.put 0 ⟨0, 0, 0, 0⟩ }
  ((s.setLaunch 0 l).setBlock 0 b).setTeam 0 t

end Sys2Proof.Machine
end

