-- ==== Sys2Proof/Machine/Flags.lean ====
section
/-! DEFINITION. What an instruction's result leaves in the status of a team: the sticky flags with the first-invalid event
(R109, R110), and the control-flow tags of the signature (R279). -/

namespace Sys2Proof.Machine

/-- The first invalid of a slice whose template sets the flag-event bit emits FIRST_INVALID (R109, R248): `lane` is the
lowest lane that raised invalid, `addr` the code address of the instruction. -/
def noteInvalidAt (s : State) (k : Nat) (lane : Option Nat) (addr : Nat) : State :=
  match lane, (s.team k).bind s.blockOf with
  | some l, some b =>
    match s.launch b.launch with
    | none => s
    | some x =>
      if x.flagEvt && !x.invalidSeen then
        emit (s.setLaunch b.launch { x with invalidSeen := true }) unitCore (coreOfTeam k) 0x604 0
          (ctxOfTeam k + 16 * l + 2 ^ 32 * addr)
      else s
  | _, _ => s

/-- The same for the instruction now issuing. -/
def noteInvalid (s : State) (k : Nat) (lane : Option Nat) : State := noteInvalidAt s k lane (((s.team k).map Team.itemAddr).getD 0)

/-- The lowest lane of a list whose flags hold invalid. -/
def invalidLane (ls : List Nat) (f : Nat → FpFlags) : Option Nat := ls.find? fun l => (f l).getLsbD 0

/-- The flags that the lanes of a list raise together. -/
def gatherFlags (ls : List Nat) (f : Nat → FpFlags) : FpFlags := ls.foldl (fun g l => g ||| f l) 0#5

/-- The events of R279. -/
inductive SgEvent where
  | push | pop | elseArm | breakOut | loopBack
  deriving DecidableEq, Repr

/-- The event's code (R279). -/
def SgEvent.code : SgEvent → Nat
  | .push => 1
  | .pop => 2
  | .elseArm => 3
  | .breakOut => 4
  | .loopBack => 5

/-- The XOR of the 32 words of a mask (R279). -/
def foldMask (m : Mask) : Word := (List.range 32).foldl (fun w i => w ^^^ (m >>> (32 * i)).setWidth 32) 0#32

/-- At depth 0 a structured control instruction enters its tag and the difference of primary and shadow `k0` into `SG`
(R279). -/
def Team.tagSg (t : Team) (e : SgEvent) : Team :=
  let tagged := sgUpdate t.sg (BitVec.ofNat 32 (e.code * 2 ^ 24 + t.stack.length))
  let both := sgUpdate tagged (foldMask (Sparse.get 0#1024 t.regs.kDiff 0))
  if t.depth = 0 then { t with sg := both } else t

end Sys2Proof.Machine
end

