-- ==== Sys2Proof/Machine/Operands.lean ====
section
/-! DEFINITION. Operand forms: how a scalar, a lanewise, a cross-lane and a mask instruction read their sources and write
their destination, poisoned sources consumed (R41, R42, R55, R98, R273, R293). -/

namespace Sys2Proof.Machine

/-- An instruction that changes only its team. -/
def onTeam (s : State) (f : Team → Team) : Out := .next (s.modTeam s.cur f)

/-- Every active lane is held: an instruction of class S or E has no effect (R98). -/
def Team.mute (t : Team) : Bool := t.k0 != 0#1024 && t.acting == 0#1024

/-- A team-wide instruction consumes poison through a scalar source (R273). -/
def Team.taintS (t : Team) (src : List Nat) : Bool := src.any t.poisonS && t.acting != 0#1024

/-- A team-wide instruction acts (R41): not when every active lane is held, nor when a scalar source is poisoned. -/
def Team.once (t : Team) (src : List Nat) (act : Team → Team) : Team :=
  if t.mute then t else if t.taintS src then t.consume t.acting else act t

/-- A scalar result (R41, R347): `src` are the scalar registers read. -/
def Team.putS (t : Team) (src : List Nat) (d : Nat) (w : Word) : Team := t.once src fun t => t.writeS d w

/-- A scalar pair result. -/
def Team.putPair (t : Team) (src : List Nat) (d : Nat) (w : BitVec 64) : Team := t.once src fun t => t.writePair d w

/-- The SR form (R74): two scalar sources. -/
def scalarSR {n : Nat} (s : State) (d a b : BitVec n) (f : Word → Word → Word) : Out :=
  onTeam s fun t => t.putS [a.toNat, b.toNat] d.toNat (f (t.readS s.tick a.toNat) (t.readS s.tick b.toNat))

/-- The SR form on pairs (R347). -/
def scalarSR64 {n : Nat} (s : State) (d a b : BitVec n) (f : BitVec 64 → BitVec 64 → BitVec 64) : Out :=
  onTeam s fun t =>
    t.putPair [a.toNat, a.toNat + 1, b.toNat, b.toNat + 1] d.toNat (f (t.readPair s.tick a.toNat) (t.readPair s.tick b.toNat))

/-- The SI form: a scalar source and a ten-bit immediate, sign-extended. -/
def scalarSI {n : Nat} (s : State) (d a : BitVec n) (i : BitVec 10) (f : Word → Word → Word) : Out :=
  onTeam s fun t => t.putS [a.toNat] d.toNat (f (t.readS s.tick a.toNat) (i.signExtend 32))

/-! ### Lanewise forms -/

/-- The lanes that consume poison: every active lane when a scalar source is poisoned, else those one of whose vector
elements is (R273). `vs` lists the elements (register, lane) an active lane reads. -/
def Team.taint (t : Team) (vs : Nat → List (Nat × Nat)) (src : List Nat) : Mask :=
  if t.view.vPoison.isEmpty && t.view.sPoison.isEmpty then 0#1024
  else if src.any t.poisonS then t.acting
  else maskOf (t.actingLanes.filter fun l => (vs l).any fun x => t.poisonV x.1 x.2)

/-- A lane reads its own elements of some registers. -/
def ownLane (rs : List Nat) (l : Nat) : List (Nat × Nat) := rs.map fun r => (r, l)

/-- Write a lanewise result to `d`: consuming lanes drop out, helper lanes write run temporaries only (R42, R55, R273). -/
def Team.putLanes (t : Team) (vs : Nat → List (Nat × Nat)) (src : List Nat) (d : Nat) (f : Nat → Word) : Team :=
  let bad := t.taint vs src
  (t.consume bad).writeV d ((t.writers d).filter fun l => !bad.getLsbD l) f

/-- Write a result to `d` for acting lanes only (R301, R350). -/
def Team.putActive (t : Team) (vs : Nat → List (Nat × Nat)) (src : List Nat) (d : Nat) (f : Nat → Word) : Team :=
  let bad := t.taint vs src
  (t.consume bad).writeV d (t.actingLanes.filter fun l => !bad.getLsbD l) f

/-- The active lanes that raise flags: neither held, helper nor consuming (R109). -/
def Team.flagLanes (t : Team) (vs : Nat → List (Nat × Nat)) (src : List Nat) : List Nat :=
  t.actingLanes.filter fun l => !(t.taint vs src).getLsbD l

/-- A floating-point lanewise result with its flags (R110). -/
def Team.putLanesFp (t : Team) (vs : Nat → List (Nat × Nat)) (src : List Nat) (d : Nat) (f : Nat → Word × FpFlags) : Team :=
  (t.putLanes vs src d fun l => (f l).1).raiseFlags (gatherFlags (t.flagLanes vs src) fun l => (f l).2)

/-- The same for a cross-lane form, whose helper lanes write nothing (R350, R383). -/
def Team.putActiveFp (t : Team) (vs : Nat → List (Nat × Nat)) (src : List Nat) (d : Nat) (f : Nat → Word × FpFlags) : Team :=
  (t.putActive vs src d fun l => (f l).1).raiseFlags (gatherFlags (t.flagLanes vs src) fun l => (f l).2)

/-- A cross-lane floating-point instruction. -/
def fpTiles (s : State) (vs : Team → Nat → List (Nat × Nat)) (d : Nat) (f : Team → Nat → Word × FpFlags) : Out :=
  match s.team s.cur with
  | none => .next s
  | some t =>
    .next (noteInvalid (s.setTeam s.cur (t.putActiveFp (vs t) [] d (f t))) s.cur
      (invalidLane (t.flagLanes (vs t) []) fun l => (f t l).2))

/-- A floating-point lanewise instruction: its result, its flags, its first-invalid event. -/
def fpLanes (s : State) (vs : Nat → List (Nat × Nat)) (src : List Nat) (d : Nat) (f : Team → Nat → Word × FpFlags) : Out :=
  match s.team s.cur with
  | none => .next s
  | some t =>
    .next (noteInvalid (s.setTeam s.cur (t.putLanesFp vs src d (f t))) s.cur
      (invalidLane (t.flagLanes vs src) fun l => (f t l).2))

/-- The VR form: two vector sources. -/
def lanesVR {n : Nat} (s : State) (d a b : BitVec n) (f : Word → Word → Word) : Out :=
  onTeam s fun t =>
    t.putLanes (ownLane [a.toNat, b.toNat]) [] d.toNat fun l => f (t.readV s.tick a.toNat l) (t.readV s.tick b.toNat l)

/-- The VR form with one source. -/
def lanesV {n : Nat} (s : State) (d a : BitVec n) (f : Word → Word) : Out :=
  onTeam s fun t => t.putLanes (ownLane [a.toNat]) [] d.toNat fun l => f (t.readV s.tick a.toNat l)

/-- The VI form: a vector source and a nine-bit immediate. -/
def lanesVI {n : Nat} (s : State) (d a : BitVec n) (i : Word) (f : Word → Word → Word) : Out :=
  onTeam s fun t => t.putLanes (ownLane [a.toNat]) [] d.toNat fun l => f (t.readV s.tick a.toNat l) i

/-- The VS form: a vector source and a scalar read once for the team. -/
def lanesVS {n m : Nat} (s : State) (d a : BitVec n) (b : BitVec m) (f : Word → Word → Word) : Out :=
  onTeam s fun t =>
    t.putLanes (ownLane [a.toNat]) [b.toNat] d.toNat fun l => f (t.readV s.tick a.toNat l) (t.readS s.tick b.toNat)

/-- The VR form with flags. -/
def fpVR {n : Nat} (s : State) (d a b : BitVec n) (f : Word → Word → Word × FpFlags) : Out :=
  fpLanes s (ownLane [a.toNat, b.toNat]) [] d.toNat fun t l => f (t.readV s.tick a.toNat l) (t.readV s.tick b.toNat l)

/-- The VR form that reads its destination too, with flags. -/
def fpVRD {n : Nat} (s : State) (d a b : BitVec n) (f : Word → Word → Word → Word × FpFlags) : Out :=
  fpLanes s (ownLane [a.toNat, b.toNat, d.toNat]) [] d.toNat fun t l =>
    f (t.readV s.tick a.toNat l) (t.readV s.tick b.toNat l) (t.readV s.tick d.toNat l)

/-- The VS form with flags. -/
def fpVS {n m : Nat} (s : State) (d a : BitVec n) (b : BitVec m) (f : Word → Word → Word × FpFlags) : Out :=
  fpLanes s (ownLane [a.toNat]) [b.toNat] d.toNat fun t l => f (t.readV s.tick a.toNat l) (t.readS s.tick b.toNat)

/-- Two results of one lanewise instruction, to `d` and `d + 1`, with flags. -/
def fpPair (s : State) (vs : Nat → List (Nat × Nat)) (d : Nat) (f : Team → Nat → Word × Word × FpFlags) : Out :=
  match s.team s.cur with
  | none => .next s
  | some t =>
    let bad := t.taint vs []
    let ls := (t.writers d).filter fun l => !bad.getLsbD l
    let t' := ((t.consume bad).writeV d ls fun l => (f t l).1).writeV (d + 1) ls fun l => (f t l).2.1
    let t' := t'.raiseFlags (gatherFlags (t.flagLanes vs []) fun l => (f t l).2.2)
    .next (noteInvalid (s.setTeam s.cur t') s.cur (invalidLane (t.flagLanes vs []) fun l => (f t l).2.2))

/-! ### Counted lanewise results (R65, R66) -/

/-- The elements a lanewise result goes to when its operation completes. -/
def Team.elements (t : Team) (d : Nat) (ls : List Nat) (f : Nat → Word) : List (Nat × Word × Bool) :=
  ls.map fun l => (vKey t.mode d l, f l, false)

/-- A lanewise instruction counted on SETA (R65): it stalls while its flag stands at 63. -/
def countedLanes (s : State) (a d : Nat) (f : Word → Word × FpFlags) : Out :=
  match s.team s.cur with
  | none => .next s
  | some t =>
    if t.flagFull true then .next (stallInstr s)
    else
      let vs := ownLane [a]
      let bad := t.taint vs []
      let ls := (t.writers d).filter fun l => !bad.getLsbD l
      let r := fun l => f (t.readV s.tick a l)
      let fl := t.flagLanes vs []
      let t' := (t.consume bad).issueA s.tick (t.elements d ls fun l => (r l).1) [] (gatherFlags fl fun l => (r l).2)
      if ls.isEmpty then onTeam s fun t => t.consume bad
      else .next (noteInvalid (s.setTeam s.cur t') s.cur (invalidLane fl fun l => (r l).2))

/-! ### Partition tiles (R54) -/

/-- The size of a team's partition tiles in lanes. -/
def Team.tileSize (t : Team) : Nat :=
  match t.view.part.toNat with
  | 0 => t.lanes
  | 1 => 32
  | 2 => 16
  | 3 => 8
  | 4 => 4
  | _ => 2

/-- The first lane of the tile of lane `l`. -/
def Team.tileBase (t : Team) (l : Nat) : Nat := l / t.tileSize * t.tileSize

/-- The lanes of the tile of lane `l`, ascending. -/
def Team.tileLanes (t : Team) (l : Nat) : List Nat := (List.range t.tileSize).map (t.tileBase l + ·)

/-- The lanes of that tile that act. -/
def Team.tileActing (t : Team) (l : Nat) : List Nat := (t.tileLanes l).filter fun i => t.acting.getLsbD i

/-! ### Mask forms (R350–R353) -/

/-- Write bits of mask `d` for the acting lanes that consume nothing; every other bit is kept (R352). -/
def Team.putMask (t : Team) (vs : Nat → List (Nat × Nat)) (d : Nat) (f : Nat → Bool) : Team :=
  let bad := t.taint vs []
  let ls := t.actingLanes.filter fun l => !bad.getLsbD l
  (t.consume bad).writeBits d (maskOf ls) (maskOf (ls.filter f))

/-- A mask form. -/
def maskForm (s : State) (d : Nat) (f : Team → Nat → Bool) : Out := onTeam s fun t => t.putMask (fun _ => []) d (f t)

end Sys2Proof.Machine
end

