-- ==== Sys2Proof/Machine/Shape.lean ====
section
/-! DEFINITION. What the fetch of a run needs to know of each instruction's form (R68, R69, R71, R62, R78): whether it closes a
run, its vector register fields and pairs, and its destinations. -/

namespace Sys2Proof.Machine

/-- The instruction is legal only as the last of its run (R68). -/
def closes : Instr → Bool
  | .nop _ => false
  | .exit => true
  | .yield => true
  | .brkpt _ _ => false
  | .sigck _ _ => false
  | .evt _ _ => false
  | .rgnb _ _ => false
  | .rgne _ => false
  | .gbar => true
  | .iaddSr _ _ _ _ => false
  | .isubSr _ _ _ _ => false
  | .imulSr _ _ _ _ => false
  | .imulhSr _ _ _ _ => false
  | .imulhUSr _ _ _ _ => false
  | .andSr _ _ _ _ => false
  | .orSr _ _ _ _ => false
  | .xorSr _ _ _ _ => false
  | .andnSr _ _ _ _ => false
  | .shlSr _ _ _ _ => false
  | .shrSr _ _ _ _ => false
  | .sraSr _ _ _ _ => false
  | .iminSr _ _ _ _ => false
  | .imaxSr _ _ _ _ => false
  | .iminUSr _ _ _ _ => false
  | .imaxUSr _ _ _ _ => false
  | .sltSr _ _ _ _ => false
  | .sltUSr _ _ _ _ => false
  | .idivu _ _ _ _ => false
  | .iremu _ _ _ _ => false
  | .iadd64 _ _ _ _ => false
  | .isub64 _ _ _ _ => false
  | .iaddSi _ _ _ _ => false
  | .andSi _ _ _ _ => false
  | .orSi _ _ _ _ => false
  | .xorSi _ _ _ _ => false
  | .shlSi _ _ _ _ => false
  | .shrSi _ _ _ _ => false
  | .sraSi _ _ _ _ => false
  | .sltSi _ _ _ _ => false
  | .lui _ _ _ => false
  | .gets _ _ _ => false
  | .ldScalar _ _ _ _ _ => false
  | .stScalar _ _ _ _ _ => false
  | .iaddVr _ _ _ _ => false
  | .isubVr _ _ _ _ => false
  | .imulVr _ _ _ _ => false
  | .imulhVr _ _ _ _ => false
  | .imulhUVr _ _ _ _ => false
  | .andVr _ _ _ _ => false
  | .orVr _ _ _ _ => false
  | .xorVr _ _ _ _ => false
  | .andnVr _ _ _ _ => false
  | .shlVr _ _ _ _ => false
  | .shrVr _ _ _ _ => false
  | .sraVr _ _ _ _ => false
  | .iminVr _ _ _ _ => false
  | .imaxVr _ _ _ _ => false
  | .iminUVr _ _ _ _ => false
  | .imaxUVr _ _ _ _ => false
  | .iaddVi _ _ _ _ => false
  | .andVi _ _ _ _ => false
  | .shlVi _ _ _ _ => false
  | .shrVi _ _ _ _ => false
  | .iaddP16 _ _ _ _ => false
  | .isubP16 _ _ _ _ => false
  | .iaddsP16 _ _ _ _ => false
  | .isubsP16 _ _ _ _ => false
  | .imaxP16 _ _ _ _ => false
  | .iminP16 _ _ _ _ => false
  | .cmpvGtP16 _ _ _ _ => false
  | .iaddP8 _ _ _ _ => false
  | .isubP8 _ _ _ _ => false
  | .iaddsUP8 _ _ _ _ => false
  | .imaxUP8 _ _ _ _ => false
  | .iminUP8 _ _ _ _ => false
  | .permb _ _ _ _ => false
  | .pack16 _ _ _ _ => false
  | .unpk16Lo _ _ _ _ => false
  | .unpk16Hi _ _ _ _ => false
  | .li _ _ _ => false
  | .sel _ _ _ _ _ => false
  | .bcast _ _ _ => false
  | .iaddVs _ _ _ _ => false
  | .imulVs _ _ _ _ => false
  | .faddVs _ _ _ _ => false
  | .fmulVs _ _ _ _ => false
  | .ffmaVs _ _ _ _ => false
  | .laneid _ _ _ => false
  | .rand _ _ _ => false
  | .samp _ _ _ _ => false
  | .rdlane _ _ _ _ => false
  | .popc _ _ _ => false
  | .clz _ _ _ => false
  | .fadd _ _ _ _ => false
  | .fsub _ _ _ _ => false
  | .fmul _ _ _ _ => false
  | .ffma _ _ _ _ => false
  | .ffms _ _ _ _ => false
  | .fnfma _ _ _ _ => false
  | .fmin _ _ _ _ => false
  | .fmax _ _ _ _ => false
  | .fminn _ _ _ _ => false
  | .fmaxn _ _ _ _ => false
  | .fabs _ _ _ => false
  | .fneg _ _ _ => false
  | .fcps _ _ _ _ => false
  | .twosum _ _ _ _ => false
  | .twoprod _ _ _ _ => false
  | .fclass _ _ _ => false
  | .cmp _ _ _ _ _ _ => false
  | .faddB2 _ _ _ _ => false
  | .fmulB2 _ _ _ _ => false
  | .ffmaB2 _ _ _ _ => false
  | .fmaxB2 _ _ _ _ => false
  | .fminB2 _ _ _ _ => false
  | .faddH2 _ _ _ _ => false
  | .fmulH2 _ _ _ _ => false
  | .ffmaH2 _ _ _ _ => false
  | .fmaxH2 _ _ _ _ => false
  | .fminH2 _ _ _ _ => false
  | .cbx _ _ _ _ => false
  | .cbnear _ _ _ _ => false
  | .cbld _ _ _ => false
  | .cvt _ _ _ _ _ _ => false
  | .rcps _ _ _ => false
  | .rsqs _ _ _ => false
  | .exp2 _ _ _ => false
  | .log2 _ _ _ => false
  | .tanh _ _ _ => false
  | .qswap _ _ _ _ => false
  | .qbc _ _ _ _ => false
  | .qred _ _ _ _ => false
  | .qfill _ => false
  | .shflAt _ _ _ _ => false
  | .shflRot _ _ _ _ => false
  | .shflShift _ _ _ _ => false
  | .shflMirr _ _ _ _ => false
  | .redAddI _ _ _ => false
  | .redAddF _ _ _ => false
  | .redMaxF _ _ _ => false
  | .redMinF _ _ _ => false
  | .redMaxI _ _ _ => false
  | .redMinI _ _ _ => false
  | .redMaxixF _ _ _ _ => false
  | .redMinixF _ _ _ _ => false
  | .scanAddI _ _ _ => false
  | .scanAddF _ _ _ => false
  | .shflVar _ _ _ _ => false
  | .redMaxixH _ _ _ _ => false
  | .ballot _ _ _ => false
  | .kany _ _ _ => false
  | .kall _ _ _ => false
  | .kpop _ _ _ => false
  | .krank _ _ _ => false
  | .kand _ _ _ _ => false
  | .kor _ _ _ _ => false
  | .kxor _ _ _ _ => false
  | .kandn _ _ _ _ => false
  | .knot _ _ _ => false
  | .kmov _ _ _ => false
  | .kset _ _ => false
  | .kclr _ _ => false
  | .kfromv _ _ _ => false
  | .kbit _ _ _ _ => false
  | .ifK _ _ => true
  | .elseK _ => true
  | .endIf _ => false
  | .brkIf _ _ _ => false
  | .loop _ _ => false
  | .endLp _ => true
  | .regrp _ _ => true
  | .endrg => true
  | .bra _ => true
  | .brc _ _ _ => true
  | .call _ => true
  | .callr _ => true
  | .ret => true
  | .jmpr _ => true
  | .ldVector _ _ _ _ _ _ => false
  | .stVector _ _ _ _ _ _ => false
  | .ldl _ _ _ _ _ => false
  | .stl _ _ _ _ _ => false
  | .ldt _ _ _ _ => false
  | .stt _ _ _ _ => false
  | .atom _ _ _ _ _ _ => false
  | .lmon _ _ _ => false
  | .waitm _ _ => true
  | .fence _ _ _ => false
  | .lpub _ _ _ => false
  | .lmark _ _ _ => false
  | .lacq _ _ _ _ => false
  | .binit _ _ _ => false
  | .barr _ _ _ => false
  | .bwait _ _ => true
  | .barw _ _ => true
  | .bphase _ _ _ => false
  | .bexp _ _ _ => false
  | .tdef _ _ _ => false
  | .tacq _ _ => false
  | .trdy _ _ => false
  | .trel _ _ => false
  | .tstat _ _ _ => false
  | .thand _ _ => false
  | .tadopt _ _ => false
  | .cpyG2t _ _ _ _ _ => false
  | .cpyT2g _ _ _ _ _ => false
  | .cpyL2l _ _ _ _ _ => false
  | .cpyG2g _ _ _ _ _ => false
  | .cpyG2l _ _ _ _ _ => false
  | .cpyL2g _ _ _ _ _ => false
  | .gather _ _ _ _ _ => false
  | .mldwTile _ _ _ => false
  | .mldwHandle _ _ _ => false
  | .mma _ _ _ _ _ _ => false
  | .mz _ _ _ => false
  | .mdrn _ _ => false
  | .mrst _ _ => false
  | .mrel _ => false
  | .accrd _ _ _ _ => false
  | .accrdF _ _ _ _ => false
  | .accwr _ _ _ _ => false
  | .accwrF _ _ _ _ => false
  | .put _ _ _ _ _ => false
  | .puts _ _ _ _ _ => false
  | .get _ _ _ _ _ => false
  | .csend _ _ _ _ _ => false
  | .rsig _ _ _ _ _ => false
  | .spawn _ _ _ _ _ => false
  | .hpass _ _ _ _ _ => false
  | .getx _ _ _ => false
  | .setx _ _ _ => false
  | .sysc _ => true
  | .rett => true
  | .hcall _ => true
  | .tlbi _ _ => false
  | .tlbiAll _ => false
  | .dict _ _ _ _ _ _ => false
  | .runStart _ _ => false
  | .teamPromote _ => false
  | .operationComplete _ _ => false
  | .walkComplete _ _ _ => false
  | .trapEntry _ => false
  | .regionRollback _ => false
  | .ladleGrant _ => false
  | .regrpForm _ => false
  | .endrgReturn _ => false
  | .teamWake _ => false
  | .teamEnd _ => false
  | .blockEnd _ => false
  | .budgetOut _ => false
  | .fold _ => false
  | .rebase => false
  | .engineCommandIssue _ => false
  | .copyUnit _ _ => false
  | .copyComplete _ => false
  | .reservationGrant _ => false
  | .reservationRetire _ _ => false
  | .reservationPromote _ _ => false
  | .packetSend _ => false
  | .flitReceive _ _ _ _ _ _ => false
  | .linkRetrain _ => false
  | .putDataPacket _ _ => false
  | .putsDataPacket _ _ => false
  | .signalPacket _ _ => false
  | .getRequestPacket _ _ => false
  | .getResponsePacket _ _ _ => false
  | .collectiveChunk _ _ => false
  | .ackPacket _ _ => false
  | .nackPacket _ _ _ => false
  | .controlPacket _ _ => false
  | .retransmit _ => false
  | .watchdog _ => false
  | .coreOffer _ => false
  | .carveChange _ => false
  | .governorEvaluate => false
  | .sliceBoundary _ => false
  | .classUpdate => false
  | .evictionCheck => false
  | .blockEvict _ => false
  | .blockResume _ _ => false
  | .fallback _ _ => false
  | .spawnAccept => false
  | .passRecord => false
  | .monitorSpuriousWake _ => false
  | .lanemapApply _ => false
  | .stopTimeout _ => false
  | .load _ => false
  | .start => false
  | .signalArrival => false
  | .signalWord => false
  | .stop => false
  | .reset => false
  | .ckpt => false
  | .restore => false
  | .setseed => false
  | .queryIdent => false
  | .queryHealth => false
  | .queryAttest => false
  | .queryEvents => false
  | .queryCapture => false
  | .badcmd => false
  | .cqheadWrite _ => false
  | .registerWrite _ _ _ => false
  | .hostApertureWrite _ _ => false
  | .hostApertureRead _ _ _ => false
  | .debugEnableWrite _ => false
  | .meas7Write _ => false
  | .imageKeyWrite _ _ => false
  | .firmwareImageWrite _ => false
  | .edgeViewPass => false
  | .coldStart => false
  | .warmResetPin => false
  | .powerLoss => false
  | .monitorSample _ _ _ _ _ => false
  | .clockStepUp => false
  | .eccError _ _ _ _ => false
  | .stackLost _ => false
  | .hbmScrub => false
  | .eventRecord => false
  | .ringWrite => false
  | .ringHeaderWrite => false
  | .sample _ _ => false
  | .ckptComplete => false
  | .restoreComplete => false
  | .l2SectorEvict _ => false
  | .l1LineEvict _ _ => false
  | .ptpMessage _ => false

/-- The lowest bit of each field that names a vector register (R69, R71); `ENDRG` names none (log entry 13). -/
def vectorFields : Instr → List Nat
  | .nop _ => []
  | .exit => []
  | .yield => []
  | .brkpt _ _ => []
  | .sigck _ _ => []
  | .evt _ _ => []
  | .rgnb _ _ => []
  | .rgne _ => []
  | .gbar => []
  | .iaddSr _ _ _ _ => []
  | .isubSr _ _ _ _ => []
  | .imulSr _ _ _ _ => []
  | .imulhSr _ _ _ _ => []
  | .imulhUSr _ _ _ _ => []
  | .andSr _ _ _ _ => []
  | .orSr _ _ _ _ => []
  | .xorSr _ _ _ _ => []
  | .andnSr _ _ _ _ => []
  | .shlSr _ _ _ _ => []
  | .shrSr _ _ _ _ => []
  | .sraSr _ _ _ _ => []
  | .iminSr _ _ _ _ => []
  | .imaxSr _ _ _ _ => []
  | .iminUSr _ _ _ _ => []
  | .imaxUSr _ _ _ _ => []
  | .sltSr _ _ _ _ => []
  | .sltUSr _ _ _ _ => []
  | .idivu _ _ _ _ => []
  | .iremu _ _ _ _ => []
  | .iadd64 _ _ _ _ => []
  | .isub64 _ _ _ _ => []
  | .iaddSi _ _ _ _ => []
  | .andSi _ _ _ _ => []
  | .orSi _ _ _ _ => []
  | .xorSi _ _ _ _ => []
  | .shlSi _ _ _ _ => []
  | .shrSi _ _ _ _ => []
  | .sraSi _ _ _ _ => []
  | .sltSi _ _ _ _ => []
  | .lui _ _ _ => []
  | .gets _ _ _ => []
  | .ldScalar _ _ _ _ _ => []
  | .stScalar _ _ _ _ _ => []
  | .iaddVr _ _ _ _ => [18, 11, 4]
  | .isubVr _ _ _ _ => [18, 11, 4]
  | .imulVr _ _ _ _ => [18, 11, 4]
  | .imulhVr _ _ _ _ => [18, 11, 4]
  | .imulhUVr _ _ _ _ => [18, 11, 4]
  | .andVr _ _ _ _ => [18, 11, 4]
  | .orVr _ _ _ _ => [18, 11, 4]
  | .xorVr _ _ _ _ => [18, 11, 4]
  | .andnVr _ _ _ _ => [18, 11, 4]
  | .shlVr _ _ _ _ => [18, 11, 4]
  | .shrVr _ _ _ _ => [18, 11, 4]
  | .sraVr _ _ _ _ => [18, 11, 4]
  | .iminVr _ _ _ _ => [18, 11, 4]
  | .imaxVr _ _ _ _ => [18, 11, 4]
  | .iminUVr _ _ _ _ => [18, 11, 4]
  | .imaxUVr _ _ _ _ => [18, 11, 4]
  | .iaddVi _ _ _ _ => [18, 11]
  | .andVi _ _ _ _ => [18, 11]
  | .shlVi _ _ _ _ => [18, 11]
  | .shrVi _ _ _ _ => [18, 11]
  | .iaddP16 _ _ _ _ => [18, 11, 4]
  | .isubP16 _ _ _ _ => [18, 11, 4]
  | .iaddsP16 _ _ _ _ => [18, 11, 4]
  | .isubsP16 _ _ _ _ => [18, 11, 4]
  | .imaxP16 _ _ _ _ => [18, 11, 4]
  | .iminP16 _ _ _ _ => [18, 11, 4]
  | .cmpvGtP16 _ _ _ _ => [18, 11, 4]
  | .iaddP8 _ _ _ _ => [18, 11, 4]
  | .isubP8 _ _ _ _ => [18, 11, 4]
  | .iaddsUP8 _ _ _ _ => [18, 11, 4]
  | .imaxUP8 _ _ _ _ => [18, 11, 4]
  | .iminUP8 _ _ _ _ => [18, 11, 4]
  | .permb _ _ _ _ => [18, 11, 4]
  | .pack16 _ _ _ _ => [18, 11, 4]
  | .unpk16Lo _ _ _ _ => [18, 11, 4]
  | .unpk16Hi _ _ _ _ => [18, 11, 4]
  | .li _ _ _ => [18]
  | .sel _ _ _ _ _ => [18, 11, 4]
  | .bcast _ _ _ => [18]
  | .iaddVs _ _ _ _ => [18, 11]
  | .imulVs _ _ _ _ => [18, 11]
  | .faddVs _ _ _ _ => [18, 11]
  | .fmulVs _ _ _ _ => [18, 11]
  | .ffmaVs _ _ _ _ => [18, 11]
  | .laneid _ _ _ => [18]
  | .rand _ _ _ => [18]
  | .samp _ _ _ _ => [18, 11]
  | .rdlane _ _ _ _ => [12]
  | .popc _ _ _ => [18, 11]
  | .clz _ _ _ => [18, 11]
  | .fadd _ _ _ _ => [18, 11, 4]
  | .fsub _ _ _ _ => [18, 11, 4]
  | .fmul _ _ _ _ => [18, 11, 4]
  | .ffma _ _ _ _ => [18, 11, 4]
  | .ffms _ _ _ _ => [18, 11, 4]
  | .fnfma _ _ _ _ => [18, 11, 4]
  | .fmin _ _ _ _ => [18, 11, 4]
  | .fmax _ _ _ _ => [18, 11, 4]
  | .fminn _ _ _ _ => [18, 11, 4]
  | .fmaxn _ _ _ _ => [18, 11, 4]
  | .fabs _ _ _ => [18, 11]
  | .fneg _ _ _ => [18, 11]
  | .fcps _ _ _ _ => [18, 11, 4]
  | .twosum _ _ _ _ => [18, 11, 4]
  | .twoprod _ _ _ _ => [18, 11, 4]
  | .fclass _ _ _ => [18, 11]
  | .cmp _ _ _ _ _ _ => [14, 7]
  | .faddB2 _ _ _ _ => [18, 11, 4]
  | .fmulB2 _ _ _ _ => [18, 11, 4]
  | .ffmaB2 _ _ _ _ => [18, 11, 4]
  | .fmaxB2 _ _ _ _ => [18, 11, 4]
  | .fminB2 _ _ _ _ => [18, 11, 4]
  | .faddH2 _ _ _ _ => [18, 11, 4]
  | .fmulH2 _ _ _ _ => [18, 11, 4]
  | .ffmaH2 _ _ _ _ => [18, 11, 4]
  | .fmaxH2 _ _ _ _ => [18, 11, 4]
  | .fminH2 _ _ _ _ => [18, 11, 4]
  | .cbx _ _ _ _ => [18, 11]
  | .cbnear _ _ _ _ => [18, 11]
  | .cbld _ _ _ => [11]
  | .cvt _ _ _ _ _ _ => [18, 11]
  | .rcps _ _ _ => [18, 11]
  | .rsqs _ _ _ => [18, 11]
  | .exp2 _ _ _ => [18, 11]
  | .log2 _ _ _ => [18, 11]
  | .tanh _ _ _ => [18, 11]
  | .qswap _ _ _ _ => [18, 11]
  | .qbc _ _ _ _ => [18, 11]
  | .qred _ _ _ _ => [18, 11]
  | .qfill _ => []
  | .shflAt _ _ _ _ => [18, 11]
  | .shflRot _ _ _ _ => [18, 11]
  | .shflShift _ _ _ _ => [18, 11]
  | .shflMirr _ _ _ _ => [18, 11]
  | .redAddI _ _ _ => [18, 11]
  | .redAddF _ _ _ => [18, 11]
  | .redMaxF _ _ _ => [18, 11]
  | .redMinF _ _ _ => [18, 11]
  | .redMaxI _ _ _ => [18, 11]
  | .redMinI _ _ _ => [18, 11]
  | .redMaxixF _ _ _ _ => [18, 11, 4]
  | .redMinixF _ _ _ _ => [18, 11, 4]
  | .scanAddI _ _ _ => [18, 11]
  | .scanAddF _ _ _ => [18, 11]
  | .shflVar _ _ _ _ => [18, 11, 4]
  | .redMaxixH _ _ _ _ => [18, 11, 4]
  | .ballot _ _ _ => [18]
  | .kany _ _ _ => []
  | .kall _ _ _ => []
  | .kpop _ _ _ => []
  | .krank _ _ _ => [18]
  | .kand _ _ _ _ => []
  | .kor _ _ _ _ => []
  | .kxor _ _ _ _ => []
  | .kandn _ _ _ _ => []
  | .knot _ _ _ => []
  | .kmov _ _ _ => []
  | .kset _ _ => []
  | .kclr _ _ => []
  | .kfromv _ _ _ => [2]
  | .kbit _ _ _ _ => [14]
  | .ifK _ _ => []
  | .elseK _ => []
  | .endIf _ => []
  | .brkIf _ _ _ => []
  | .loop _ _ => []
  | .endLp _ => []
  | .regrp _ _ => [18]
  | .endrg => []
  | .bra _ => []
  | .brc _ _ _ => []
  | .call _ => []
  | .callr _ => []
  | .ret => []
  | .jmpr _ => []
  | .ldVector _ _ _ _ _ _ => [18, 5]
  | .stVector _ _ _ _ _ _ => [18, 5]
  | .ldl _ _ _ _ _ => [18, 5]
  | .stl _ _ _ _ _ => [18, 5]
  | .ldt _ _ _ _ => [18, 5]
  | .stt _ _ _ _ => [18, 5]
  | .atom _ _ _ _ _ _ => [18, 11]
  | .lmon _ _ _ => [14]
  | .waitm _ _ => [14]
  | .fence _ _ _ => []
  | .lpub _ _ _ => []
  | .lmark _ _ _ => []
  | .lacq _ _ _ _ => []
  | .binit _ _ _ => []
  | .barr _ _ _ => []
  | .bwait _ _ => []
  | .barw _ _ => []
  | .bphase _ _ _ => []
  | .bexp _ _ _ => []
  | .tdef _ _ _ => []
  | .tacq _ _ => []
  | .trdy _ _ => []
  | .trel _ _ => []
  | .tstat _ _ _ => []
  | .thand _ _ => []
  | .tadopt _ _ => []
  | .cpyG2t _ _ _ _ _ => []
  | .cpyT2g _ _ _ _ _ => []
  | .cpyL2l _ _ _ _ _ => []
  | .cpyG2g _ _ _ _ _ => []
  | .cpyG2l _ _ _ _ _ => []
  | .cpyL2g _ _ _ _ _ => []
  | .gather _ _ _ _ _ => []
  | .mldwTile _ _ _ => []
  | .mldwHandle _ _ _ => []
  | .mma _ _ _ _ _ _ => []
  | .mz _ _ _ => []
  | .mdrn _ _ => []
  | .mrst _ _ => []
  | .mrel _ => []
  | .accrd _ _ _ _ => [18]
  | .accrdF _ _ _ _ => [18]
  | .accwr _ _ _ _ => [18]
  | .accwrF _ _ _ _ => [18]
  | .put _ _ _ _ _ => []
  | .puts _ _ _ _ _ => []
  | .get _ _ _ _ _ => []
  | .csend _ _ _ _ _ => []
  | .rsig _ _ _ _ _ => []
  | .spawn _ _ _ _ _ => []
  | .hpass _ _ _ _ _ => []
  | .getx _ _ _ => []
  | .setx _ _ _ => []
  | .sysc _ => []
  | .rett => []
  | .hcall _ => []
  | .tlbi _ _ => []
  | .tlbiAll _ => []
  | .dict _ _ _ _ _ _ => []
  | .runStart _ _ => []
  | .teamPromote _ => []
  | .operationComplete _ _ => []
  | .walkComplete _ _ _ => []
  | .trapEntry _ => []
  | .regionRollback _ => []
  | .ladleGrant _ => []
  | .regrpForm _ => []
  | .endrgReturn _ => []
  | .teamWake _ => []
  | .teamEnd _ => []
  | .blockEnd _ => []
  | .budgetOut _ => []
  | .fold _ => []
  | .rebase => []
  | .engineCommandIssue _ => []
  | .copyUnit _ _ => []
  | .copyComplete _ => []
  | .reservationGrant _ => []
  | .reservationRetire _ _ => []
  | .reservationPromote _ _ => []
  | .packetSend _ => []
  | .flitReceive _ _ _ _ _ _ => []
  | .linkRetrain _ => []
  | .putDataPacket _ _ => []
  | .putsDataPacket _ _ => []
  | .signalPacket _ _ => []
  | .getRequestPacket _ _ => []
  | .getResponsePacket _ _ _ => []
  | .collectiveChunk _ _ => []
  | .ackPacket _ _ => []
  | .nackPacket _ _ _ => []
  | .controlPacket _ _ => []
  | .retransmit _ => []
  | .watchdog _ => []
  | .coreOffer _ => []
  | .carveChange _ => []
  | .governorEvaluate => []
  | .sliceBoundary _ => []
  | .classUpdate => []
  | .evictionCheck => []
  | .blockEvict _ => []
  | .blockResume _ _ => []
  | .fallback _ _ => []
  | .spawnAccept => []
  | .passRecord => []
  | .monitorSpuriousWake _ => []
  | .lanemapApply _ => []
  | .stopTimeout _ => []
  | .load _ => []
  | .start => []
  | .signalArrival => []
  | .signalWord => []
  | .stop => []
  | .reset => []
  | .ckpt => []
  | .restore => []
  | .setseed => []
  | .queryIdent => []
  | .queryHealth => []
  | .queryAttest => []
  | .queryEvents => []
  | .queryCapture => []
  | .badcmd => []
  | .cqheadWrite _ => []
  | .registerWrite _ _ _ => []
  | .hostApertureWrite _ _ => []
  | .hostApertureRead _ _ _ => []
  | .debugEnableWrite _ => []
  | .meas7Write _ => []
  | .imageKeyWrite _ _ => []
  | .firmwareImageWrite _ => []
  | .edgeViewPass => []
  | .coldStart => []
  | .warmResetPin => []
  | .powerLoss => []
  | .monitorSample _ _ _ _ _ => []
  | .clockStepUp => []
  | .eccError _ _ _ _ => []
  | .stackLost _ => []
  | .hbmScrub => []
  | .eventRecord => []
  | .ringWrite => []
  | .ringHeaderWrite => []
  | .sample _ _ => []
  | .ckptComplete => []
  | .restoreComplete => []
  | .l2SectorEvict _ => []
  | .l1LineEvict _ _ => []
  | .ptpMessage _ => []

/-- The vector registers that an instruction names: a register and whether the field names a pair (R69, R85). -/
def vectorRegs : Instr → List (Nat × Bool)
  | .nop _ => []
  | .exit => []
  | .yield => []
  | .brkpt _ _ => []
  | .sigck _ _ => []
  | .evt _ _ => []
  | .rgnb _ _ => []
  | .rgne _ => []
  | .gbar => []
  | .iaddSr _ _ _ _ => []
  | .isubSr _ _ _ _ => []
  | .imulSr _ _ _ _ => []
  | .imulhSr _ _ _ _ => []
  | .imulhUSr _ _ _ _ => []
  | .andSr _ _ _ _ => []
  | .orSr _ _ _ _ => []
  | .xorSr _ _ _ _ => []
  | .andnSr _ _ _ _ => []
  | .shlSr _ _ _ _ => []
  | .shrSr _ _ _ _ => []
  | .sraSr _ _ _ _ => []
  | .iminSr _ _ _ _ => []
  | .imaxSr _ _ _ _ => []
  | .iminUSr _ _ _ _ => []
  | .imaxUSr _ _ _ _ => []
  | .sltSr _ _ _ _ => []
  | .sltUSr _ _ _ _ => []
  | .idivu _ _ _ _ => []
  | .iremu _ _ _ _ => []
  | .iadd64 _ _ _ _ => []
  | .isub64 _ _ _ _ => []
  | .iaddSi _ _ _ _ => []
  | .andSi _ _ _ _ => []
  | .orSi _ _ _ _ => []
  | .xorSi _ _ _ _ => []
  | .shlSi _ _ _ _ => []
  | .shrSi _ _ _ _ => []
  | .sraSi _ _ _ _ => []
  | .sltSi _ _ _ _ => []
  | .lui _ _ _ => []
  | .gets _ _ _ => []
  | .ldScalar _ _ _ _ _ => []
  | .stScalar _ _ _ _ _ => []
  | .iaddVr _ d a b => [(d.toNat, false), (a.toNat, false), (b.toNat, false)]
  | .isubVr _ d a b => [(d.toNat, false), (a.toNat, false), (b.toNat, false)]
  | .imulVr _ d a b => [(d.toNat, false), (a.toNat, false), (b.toNat, false)]
  | .imulhVr _ d a b => [(d.toNat, false), (a.toNat, false), (b.toNat, false)]
  | .imulhUVr _ d a b => [(d.toNat, false), (a.toNat, false), (b.toNat, false)]
  | .andVr _ d a b => [(d.toNat, false), (a.toNat, false), (b.toNat, false)]
  | .orVr _ d a b => [(d.toNat, false), (a.toNat, false), (b.toNat, false)]
  | .xorVr _ d a b => [(d.toNat, false), (a.toNat, false), (b.toNat, false)]
  | .andnVr _ d a b => [(d.toNat, false), (a.toNat, false), (b.toNat, false)]
  | .shlVr _ d a b => [(d.toNat, false), (a.toNat, false), (b.toNat, false)]
  | .shrVr _ d a b => [(d.toNat, false), (a.toNat, false), (b.toNat, false)]
  | .sraVr _ d a b => [(d.toNat, false), (a.toNat, false), (b.toNat, false)]
  | .iminVr _ d a b => [(d.toNat, false), (a.toNat, false), (b.toNat, false)]
  | .imaxVr _ d a b => [(d.toNat, false), (a.toNat, false), (b.toNat, false)]
  | .iminUVr _ d a b => [(d.toNat, false), (a.toNat, false), (b.toNat, false)]
  | .imaxUVr _ d a b => [(d.toNat, false), (a.toNat, false), (b.toNat, false)]
  | .iaddVi _ d a _ => [(d.toNat, false), (a.toNat, false)]
  | .andVi _ d a _ => [(d.toNat, false), (a.toNat, false)]
  | .shlVi _ d a _ => [(d.toNat, false), (a.toNat, false)]
  | .shrVi _ d a _ => [(d.toNat, false), (a.toNat, false)]
  | .iaddP16 _ d a b => [(d.toNat, false), (a.toNat, false), (b.toNat, false)]
  | .isubP16 _ d a b => [(d.toNat, false), (a.toNat, false), (b.toNat, false)]
  | .iaddsP16 _ d a b => [(d.toNat, false), (a.toNat, false), (b.toNat, false)]
  | .isubsP16 _ d a b => [(d.toNat, false), (a.toNat, false), (b.toNat, false)]
  | .imaxP16 _ d a b => [(d.toNat, false), (a.toNat, false), (b.toNat, false)]
  | .iminP16 _ d a b => [(d.toNat, false), (a.toNat, false), (b.toNat, false)]
  | .cmpvGtP16 _ d a b => [(d.toNat, false), (a.toNat, false), (b.toNat, false)]
  | .iaddP8 _ d a b => [(d.toNat, false), (a.toNat, false), (b.toNat, false)]
  | .isubP8 _ d a b => [(d.toNat, false), (a.toNat, false), (b.toNat, false)]
  | .iaddsUP8 _ d a b => [(d.toNat, false), (a.toNat, false), (b.toNat, false)]
  | .imaxUP8 _ d a b => [(d.toNat, false), (a.toNat, false), (b.toNat, false)]
  | .iminUP8 _ d a b => [(d.toNat, false), (a.toNat, false), (b.toNat, false)]
  | .permb _ d a b => [(d.toNat, false), (a.toNat, false), (b.toNat, false)]
  | .pack16 _ d a b => [(d.toNat, false), (a.toNat, false), (b.toNat, false)]
  | .unpk16Lo _ d a b => [(d.toNat, false), (a.toNat, false), (b.toNat, false)]
  | .unpk16Hi _ d a b => [(d.toNat, false), (a.toNat, false), (b.toNat, false)]
  | .li _ d _ => [(d.toNat, false)]
  | .sel _ d a b _ => [(d.toNat, false), (a.toNat, false), (b.toNat, false)]
  | .bcast _ d _ => [(d.toNat, false)]
  | .iaddVs _ d a _ => [(d.toNat, false), (a.toNat, false)]
  | .imulVs _ d a _ => [(d.toNat, false), (a.toNat, false)]
  | .faddVs _ d a _ => [(d.toNat, false), (a.toNat, false)]
  | .fmulVs _ d a _ => [(d.toNat, false), (a.toNat, false)]
  | .ffmaVs _ d a _ => [(d.toNat, false), (a.toNat, false)]
  | .laneid _ d _ => [(d.toNat, false)]
  | .rand _ d _ => [(d.toNat, false)]
  | .samp _ d a _ => [(d.toNat, false), (a.toNat, false)]
  | .rdlane _ _ a _ => [(a.toNat, false)]
  | .popc _ d a => [(d.toNat, false), (a.toNat, false)]
  | .clz _ d a => [(d.toNat, false), (a.toNat, false)]
  | .fadd _ d a b => [(d.toNat, false), (a.toNat, false), (b.toNat, false)]
  | .fsub _ d a b => [(d.toNat, false), (a.toNat, false), (b.toNat, false)]
  | .fmul _ d a b => [(d.toNat, false), (a.toNat, false), (b.toNat, false)]
  | .ffma _ d a b => [(d.toNat, false), (a.toNat, false), (b.toNat, false)]
  | .ffms _ d a b => [(d.toNat, false), (a.toNat, false), (b.toNat, false)]
  | .fnfma _ d a b => [(d.toNat, false), (a.toNat, false), (b.toNat, false)]
  | .fmin _ d a b => [(d.toNat, false), (a.toNat, false), (b.toNat, false)]
  | .fmax _ d a b => [(d.toNat, false), (a.toNat, false), (b.toNat, false)]
  | .fminn _ d a b => [(d.toNat, false), (a.toNat, false), (b.toNat, false)]
  | .fmaxn _ d a b => [(d.toNat, false), (a.toNat, false), (b.toNat, false)]
  | .fabs _ d a => [(d.toNat, false), (a.toNat, false)]
  | .fneg _ d a => [(d.toNat, false), (a.toNat, false)]
  | .fcps _ d a b => [(d.toNat, false), (a.toNat, false), (b.toNat, false)]
  | .twosum _ d a b => [(d.toNat, true), (a.toNat, false), (b.toNat, false)]
  | .twoprod _ d a b => [(d.toNat, true), (a.toNat, false), (b.toNat, false)]
  | .fclass _ d a => [(d.toNat, false), (a.toNat, false)]
  | .cmp _ _ a b _ _ => [(a.toNat, false), (b.toNat, false)]
  | .faddB2 _ d a b => [(d.toNat, false), (a.toNat, false), (b.toNat, false)]
  | .fmulB2 _ d a b => [(d.toNat, false), (a.toNat, false), (b.toNat, false)]
  | .ffmaB2 _ d a b => [(d.toNat, false), (a.toNat, false), (b.toNat, false)]
  | .fmaxB2 _ d a b => [(d.toNat, false), (a.toNat, false), (b.toNat, false)]
  | .fminB2 _ d a b => [(d.toNat, false), (a.toNat, false), (b.toNat, false)]
  | .faddH2 _ d a b => [(d.toNat, false), (a.toNat, false), (b.toNat, false)]
  | .fmulH2 _ d a b => [(d.toNat, false), (a.toNat, false), (b.toNat, false)]
  | .ffmaH2 _ d a b => [(d.toNat, false), (a.toNat, false), (b.toNat, false)]
  | .fmaxH2 _ d a b => [(d.toNat, false), (a.toNat, false), (b.toNat, false)]
  | .fminH2 _ d a b => [(d.toNat, false), (a.toNat, false), (b.toNat, false)]
  | .cbx _ d a _ => [(d.toNat, false), (a.toNat, false)]
  | .cbnear _ d a _ => [(d.toNat, false), (a.toNat, false)]
  | .cbld _ a _ => [(a.toNat, false)]
  | .cvt _ d a o _ _ => [(d.toNat, false), (a.toNat, o == 12#5)]
  | .rcps _ d a => [(d.toNat, false), (a.toNat, false)]
  | .rsqs _ d a => [(d.toNat, false), (a.toNat, false)]
  | .exp2 _ d a => [(d.toNat, false), (a.toNat, false)]
  | .log2 _ d a => [(d.toNat, false), (a.toNat, false)]
  | .tanh _ d a => [(d.toNat, false), (a.toNat, false)]
  | .qswap _ d a _ => [(d.toNat, false), (a.toNat, false)]
  | .qbc _ d a _ => [(d.toNat, false), (a.toNat, false)]
  | .qred _ d a _ => [(d.toNat, false), (a.toNat, false)]
  | .qfill _ => []
  | .shflAt _ d a _ => [(d.toNat, false), (a.toNat, false)]
  | .shflRot _ d a _ => [(d.toNat, false), (a.toNat, false)]
  | .shflShift _ d a _ => [(d.toNat, false), (a.toNat, false)]
  | .shflMirr _ d a _ => [(d.toNat, false), (a.toNat, false)]
  | .redAddI _ d a => [(d.toNat, false), (a.toNat, false)]
  | .redAddF _ d a => [(d.toNat, false), (a.toNat, false)]
  | .redMaxF _ d a => [(d.toNat, false), (a.toNat, false)]
  | .redMinF _ d a => [(d.toNat, false), (a.toNat, false)]
  | .redMaxI _ d a => [(d.toNat, false), (a.toNat, false)]
  | .redMinI _ d a => [(d.toNat, false), (a.toNat, false)]
  | .redMaxixF _ d a b => [(d.toNat, true), (a.toNat, false), (b.toNat, false)]
  | .redMinixF _ d a b => [(d.toNat, true), (a.toNat, false), (b.toNat, false)]
  | .scanAddI _ d a => [(d.toNat, false), (a.toNat, false)]
  | .scanAddF _ d a => [(d.toNat, false), (a.toNat, false)]
  | .shflVar _ d a b => [(d.toNat, false), (a.toNat, false), (b.toNat, false)]
  | .redMaxixH _ d a b => [(d.toNat, true), (a.toNat, false), (b.toNat, false)]
  | .ballot _ d _ => [(d.toNat, false)]
  | .kany _ _ _ => []
  | .kall _ _ _ => []
  | .kpop _ _ _ => []
  | .krank _ d _ => [(d.toNat, false)]
  | .kand _ _ _ _ => []
  | .kor _ _ _ _ => []
  | .kxor _ _ _ _ => []
  | .kandn _ _ _ _ => []
  | .knot _ _ _ => []
  | .kmov _ _ _ => []
  | .kset _ _ => []
  | .kclr _ _ => []
  | .kfromv _ _ v => [(v.toNat, false)]
  | .kbit _ _ a _ => [(a.toNat, false)]
  | .ifK _ _ => []
  | .elseK _ => []
  | .endIf _ => []
  | .brkIf _ _ _ => []
  | .loop _ _ => []
  | .endLp _ => []
  | .regrp v _ => [(8 * v.toNat + 6, false)]
  | .endrg => []
  | .bra _ => []
  | .brc _ _ _ => []
  | .call _ => []
  | .callr _ => []
  | .ret => []
  | .jmpr _ => []
  | .ldVector _ d _ i z _ => [(d.toNat, z == 1#2), (i.toNat, false)]
  | .stVector _ d _ i z _ => [(d.toNat, z == 1#2), (i.toNat, false)]
  | .ldl _ d _ i z => [(d.toNat, z == 1#2), (i.toNat, false)]
  | .stl _ d _ i z => [(d.toNat, z == 1#2), (i.toNat, false)]
  | .ldt _ d _ i => [(d.toNat, false), (i.toNat, false)]
  | .stt _ d _ i => [(d.toNat, false), (i.toNat, false)]
  | .atom _ d a o _ _ => [(d.toNat, o == 1#4 || o == 13#4 || o == 14#4), (a.toNat, true)]
  | .lmon _ a _ => [(a.toNat, true)]
  | .waitm a _ => [(a.toNat, true)]
  | .fence _ _ _ => []
  | .lpub _ _ _ => []
  | .lmark _ _ _ => []
  | .lacq _ _ _ _ => []
  | .binit _ _ _ => []
  | .barr _ _ _ => []
  | .bwait _ _ => []
  | .barw _ _ => []
  | .bphase _ _ _ => []
  | .bexp _ _ _ => []
  | .tdef _ _ _ => []
  | .tacq _ _ => []
  | .trdy _ _ => []
  | .trel _ _ => []
  | .tstat _ _ _ => []
  | .thand _ _ => []
  | .tadopt _ _ => []
  | .cpyG2t _ _ _ _ _ => []
  | .cpyT2g _ _ _ _ _ => []
  | .cpyL2l _ _ _ _ _ => []
  | .cpyG2g _ _ _ _ _ => []
  | .cpyG2l _ _ _ _ _ => []
  | .cpyL2g _ _ _ _ _ => []
  | .gather _ _ _ _ _ => []
  | .mldwTile _ _ _ => []
  | .mldwHandle _ _ _ => []
  | .mma _ _ _ _ _ _ => []
  | .mz _ _ _ => []
  | .mdrn _ _ => []
  | .mrst _ _ => []
  | .mrel _ => []
  | .accrd _ d _ _ => [(d.toNat, true)]
  | .accrdF _ d _ _ => [(d.toNat, false)]
  | .accwr _ d _ _ => [(d.toNat, true)]
  | .accwrF _ d _ _ => [(d.toNat, false)]
  | .put _ _ _ _ _ => []
  | .puts _ _ _ _ _ => []
  | .get _ _ _ _ _ => []
  | .csend _ _ _ _ _ => []
  | .rsig _ _ _ _ _ => []
  | .spawn _ _ _ _ _ => []
  | .hpass _ _ _ _ _ => []
  | .getx _ _ _ => []
  | .setx _ _ _ => []
  | .sysc _ => []
  | .rett => []
  | .hcall _ => []
  | .tlbi _ _ => []
  | .tlbiAll _ => []
  | .dict _ _ _ _ _ _ => []
  | .runStart _ _ => []
  | .teamPromote _ => []
  | .operationComplete _ _ => []
  | .walkComplete _ _ _ => []
  | .trapEntry _ => []
  | .regionRollback _ => []
  | .ladleGrant _ => []
  | .regrpForm _ => []
  | .endrgReturn _ => []
  | .teamWake _ => []
  | .teamEnd _ => []
  | .blockEnd _ => []
  | .budgetOut _ => []
  | .fold _ => []
  | .rebase => []
  | .engineCommandIssue _ => []
  | .copyUnit _ _ => []
  | .copyComplete _ => []
  | .reservationGrant _ => []
  | .reservationRetire _ _ => []
  | .reservationPromote _ _ => []
  | .packetSend _ => []
  | .flitReceive _ _ _ _ _ _ => []
  | .linkRetrain _ => []
  | .putDataPacket _ _ => []
  | .putsDataPacket _ _ => []
  | .signalPacket _ _ => []
  | .getRequestPacket _ _ => []
  | .getResponsePacket _ _ _ => []
  | .collectiveChunk _ _ => []
  | .ackPacket _ _ => []
  | .nackPacket _ _ _ => []
  | .controlPacket _ _ => []
  | .retransmit _ => []
  | .watchdog _ => []
  | .coreOffer _ => []
  | .carveChange _ => []
  | .governorEvaluate => []
  | .sliceBoundary _ => []
  | .classUpdate => []
  | .evictionCheck => []
  | .blockEvict _ => []
  | .blockResume _ _ => []
  | .fallback _ _ => []
  | .spawnAccept => []
  | .passRecord => []
  | .monitorSpuriousWake _ => []
  | .lanemapApply _ => []
  | .stopTimeout _ => []
  | .load _ => []
  | .start => []
  | .signalArrival => []
  | .signalWord => []
  | .stop => []
  | .reset => []
  | .ckpt => []
  | .restore => []
  | .setseed => []
  | .queryIdent => []
  | .queryHealth => []
  | .queryAttest => []
  | .queryEvents => []
  | .queryCapture => []
  | .badcmd => []
  | .cqheadWrite _ => []
  | .registerWrite _ _ _ => []
  | .hostApertureWrite _ _ => []
  | .hostApertureRead _ _ _ => []
  | .debugEnableWrite _ => []
  | .meas7Write _ => []
  | .imageKeyWrite _ _ => []
  | .firmwareImageWrite _ => []
  | .edgeViewPass => []
  | .coldStart => []
  | .warmResetPin => []
  | .powerLoss => []
  | .monitorSample _ _ _ _ _ => []
  | .clockStepUp => []
  | .eccError _ _ _ _ => []
  | .stackLost _ => []
  | .hbmScrub => []
  | .eventRecord => []
  | .ringWrite => []
  | .ringHeaderWrite => []
  | .sample _ _ => []
  | .ckptComplete => []
  | .restoreComplete => []
  | .l2SectorEvict _ => []
  | .l1LineEvict _ _ => []
  | .ptpMessage _ => []

/-- The destinations of an instruction, one number each (R62): vector register r is r, scalar r is 1000 + r, mask r is
2000 + r. -/
def destinations : Instr → List Nat
  | .nop _ => []
  | .exit => []
  | .yield => []
  | .brkpt _ _ => []
  | .sigck _ _ => []
  | .evt _ _ => []
  | .rgnb _ _ => []
  | .rgne _ => []
  | .gbar => []
  | .iaddSr _ d _ _ => [1000 + d.toNat]
  | .isubSr _ d _ _ => [1000 + d.toNat]
  | .imulSr _ d _ _ => [1000 + d.toNat]
  | .imulhSr _ d _ _ => [1000 + d.toNat]
  | .imulhUSr _ d _ _ => [1000 + d.toNat]
  | .andSr _ d _ _ => [1000 + d.toNat]
  | .orSr _ d _ _ => [1000 + d.toNat]
  | .xorSr _ d _ _ => [1000 + d.toNat]
  | .andnSr _ d _ _ => [1000 + d.toNat]
  | .shlSr _ d _ _ => [1000 + d.toNat]
  | .shrSr _ d _ _ => [1000 + d.toNat]
  | .sraSr _ d _ _ => [1000 + d.toNat]
  | .iminSr _ d _ _ => [1000 + d.toNat]
  | .imaxSr _ d _ _ => [1000 + d.toNat]
  | .iminUSr _ d _ _ => [1000 + d.toNat]
  | .imaxUSr _ d _ _ => [1000 + d.toNat]
  | .sltSr _ d _ _ => [1000 + d.toNat]
  | .sltUSr _ d _ _ => [1000 + d.toNat]
  | .idivu _ d _ _ => [1000 + d.toNat]
  | .iremu _ d _ _ => [1000 + d.toNat]
  | .iadd64 _ d _ _ => [1000 + d.toNat, 1001 + d.toNat]
  | .isub64 _ d _ _ => [1000 + d.toNat, 1001 + d.toNat]
  | .iaddSi _ d _ _ => [1000 + d.toNat]
  | .andSi _ d _ _ => [1000 + d.toNat]
  | .orSi _ d _ _ => [1000 + d.toNat]
  | .xorSi _ d _ _ => [1000 + d.toNat]
  | .shlSi _ d _ _ => [1000 + d.toNat]
  | .shrSi _ d _ _ => [1000 + d.toNat]
  | .sraSi _ d _ _ => [1000 + d.toNat]
  | .sltSi _ d _ _ => [1000 + d.toNat]
  | .lui _ d _ => [1000 + d.toNat]
  | .gets _ d _ => [1000 + d.toNat]
  | .ldScalar _ d _ z _ => if z == 1#2 then [1000 + d.toNat, 1001 + d.toNat] else [1000 + d.toNat]
  | .stScalar _ _ _ _ _ => []
  | .iaddVr _ d _ _ => [d.toNat]
  | .isubVr _ d _ _ => [d.toNat]
  | .imulVr _ d _ _ => [d.toNat]
  | .imulhVr _ d _ _ => [d.toNat]
  | .imulhUVr _ d _ _ => [d.toNat]
  | .andVr _ d _ _ => [d.toNat]
  | .orVr _ d _ _ => [d.toNat]
  | .xorVr _ d _ _ => [d.toNat]
  | .andnVr _ d _ _ => [d.toNat]
  | .shlVr _ d _ _ => [d.toNat]
  | .shrVr _ d _ _ => [d.toNat]
  | .sraVr _ d _ _ => [d.toNat]
  | .iminVr _ d _ _ => [d.toNat]
  | .imaxVr _ d _ _ => [d.toNat]
  | .iminUVr _ d _ _ => [d.toNat]
  | .imaxUVr _ d _ _ => [d.toNat]
  | .iaddVi _ d _ _ => [d.toNat]
  | .andVi _ d _ _ => [d.toNat]
  | .shlVi _ d _ _ => [d.toNat]
  | .shrVi _ d _ _ => [d.toNat]
  | .iaddP16 _ d _ _ => [d.toNat]
  | .isubP16 _ d _ _ => [d.toNat]
  | .iaddsP16 _ d _ _ => [d.toNat]
  | .isubsP16 _ d _ _ => [d.toNat]
  | .imaxP16 _ d _ _ => [d.toNat]
  | .iminP16 _ d _ _ => [d.toNat]
  | .cmpvGtP16 _ d _ _ => [d.toNat]
  | .iaddP8 _ d _ _ => [d.toNat]
  | .isubP8 _ d _ _ => [d.toNat]
  | .iaddsUP8 _ d _ _ => [d.toNat]
  | .imaxUP8 _ d _ _ => [d.toNat]
  | .iminUP8 _ d _ _ => [d.toNat]
  | .permb _ d _ _ => [d.toNat]
  | .pack16 _ d _ _ => [d.toNat]
  | .unpk16Lo _ d _ _ => [d.toNat]
  | .unpk16Hi _ d _ _ => [d.toNat]
  | .li _ d _ => [d.toNat]
  | .sel _ d _ _ _ => [d.toNat]
  | .bcast _ d _ => [d.toNat]
  | .iaddVs _ d _ _ => [d.toNat]
  | .imulVs _ d _ _ => [d.toNat]
  | .faddVs _ d _ _ => [d.toNat]
  | .fmulVs _ d _ _ => [d.toNat]
  | .ffmaVs _ d _ _ => [d.toNat]
  | .laneid _ d _ => [d.toNat]
  | .rand _ d _ => [d.toNat]
  | .samp _ d _ _ => [d.toNat]
  | .rdlane _ d _ _ => [1000 + d.toNat]
  | .popc _ d _ => [d.toNat]
  | .clz _ d _ => [d.toNat]
  | .fadd _ d _ _ => [d.toNat]
  | .fsub _ d _ _ => [d.toNat]
  | .fmul _ d _ _ => [d.toNat]
  | .ffma _ d _ _ => [d.toNat]
  | .ffms _ d _ _ => [d.toNat]
  | .fnfma _ d _ _ => [d.toNat]
  | .fmin _ d _ _ => [d.toNat]
  | .fmax _ d _ _ => [d.toNat]
  | .fminn _ d _ _ => [d.toNat]
  | .fmaxn _ d _ _ => [d.toNat]
  | .fabs _ d _ => [d.toNat]
  | .fneg _ d _ => [d.toNat]
  | .fcps _ d _ _ => [d.toNat]
  | .twosum _ d _ _ => [d.toNat, d.toNat + 1]
  | .twoprod _ d _ _ => [d.toNat, d.toNat + 1]
  | .fclass _ d _ => [d.toNat]
  | .cmp _ k _ _ _ _ => [2000 + k.toNat]
  | .faddB2 _ d _ _ => [d.toNat]
  | .fmulB2 _ d _ _ => [d.toNat]
  | .ffmaB2 _ d _ _ => [d.toNat]
  | .fmaxB2 _ d _ _ => [d.toNat]
  | .fminB2 _ d _ _ => [d.toNat]
  | .faddH2 _ d _ _ => [d.toNat]
  | .fmulH2 _ d _ _ => [d.toNat]
  | .ffmaH2 _ d _ _ => [d.toNat]
  | .fmaxH2 _ d _ _ => [d.toNat]
  | .fminH2 _ d _ _ => [d.toNat]
  | .cbx _ d _ _ => [d.toNat]
  | .cbnear _ d _ _ => [d.toNat]
  | .cbld _ _ _ => []
  | .cvt _ d _ _ _ _ => [d.toNat]
  | .rcps _ d _ => [d.toNat]
  | .rsqs _ d _ => [d.toNat]
  | .exp2 _ d _ => [d.toNat]
  | .log2 _ d _ => [d.toNat]
  | .tanh _ d _ => [d.toNat]
  | .qswap _ d _ _ => [d.toNat]
  | .qbc _ d _ _ => [d.toNat]
  | .qred _ d _ _ => [d.toNat]
  | .qfill _ => []
  | .shflAt _ d _ _ => [d.toNat]
  | .shflRot _ d _ _ => [d.toNat]
  | .shflShift _ d _ _ => [d.toNat]
  | .shflMirr _ d _ _ => [d.toNat]
  | .redAddI _ d _ => [d.toNat]
  | .redAddF _ d _ => [d.toNat]
  | .redMaxF _ d _ => [d.toNat]
  | .redMinF _ d _ => [d.toNat]
  | .redMaxI _ d _ => [d.toNat]
  | .redMinI _ d _ => [d.toNat]
  | .redMaxixF _ d _ _ => [d.toNat, d.toNat + 1]
  | .redMinixF _ d _ _ => [d.toNat, d.toNat + 1]
  | .scanAddI _ d _ => [d.toNat]
  | .scanAddF _ d _ => [d.toNat]
  | .shflVar _ d _ _ => [d.toNat]
  | .redMaxixH _ d _ _ => [d.toNat, d.toNat + 1]
  | .ballot _ d _ => [d.toNat]
  | .kany _ _ k => [2000 + k.toNat]
  | .kall _ _ k => [2000 + k.toNat]
  | .kpop _ _ k => [2000 + k.toNat]
  | .krank _ d _ => [d.toNat]
  | .kand _ k _ _ => [2000 + k.toNat]
  | .kor _ k _ _ => [2000 + k.toNat]
  | .kxor _ k _ _ => [2000 + k.toNat]
  | .kandn _ k _ _ => [2000 + k.toNat]
  | .knot _ k _ => [2000 + k.toNat]
  | .kmov _ k _ => [2000 + k.toNat]
  | .kset _ k => [2000 + k.toNat]
  | .kclr _ k => [2000 + k.toNat]
  | .kfromv _ k _ => [2000 + k.toNat]
  | .kbit _ k _ _ => [2000 + k.toNat]
  | .ifK _ _ => []
  | .elseK _ => []
  | .endIf _ => []
  | .brkIf _ _ _ => []
  | .loop _ _ => []
  | .endLp _ => []
  | .regrp _ _ => []
  | .endrg => []
  | .bra _ => []
  | .brc _ _ _ => []
  | .call _ => [1001]
  | .callr _ => [1001]
  | .ret => []
  | .jmpr _ => []
  | .ldVector _ d _ _ z _ => if z == 1#2 then [d.toNat, d.toNat + 1] else [d.toNat]
  | .stVector _ _ _ _ _ _ => []
  | .ldl _ d _ _ z => if z == 1#2 then [d.toNat, d.toNat + 1] else [d.toNat]
  | .stl _ _ _ _ _ => []
  | .ldt _ d _ _ => [d.toNat]
  | .stt _ _ _ _ => []
  | .atom _ d _ o _ _ => if o == 1#4 || o == 13#4 || o == 14#4 then [d.toNat, d.toNat + 1] else [d.toNat]
  | .lmon _ _ sb => [1000 + sb.toNat]
  | .waitm _ sb => [1000 + sb.toNat]
  | .fence _ _ _ => []
  | .lpub _ _ _ => []
  | .lmark _ _ x => [1000 + x.toNat]
  | .lacq _ _ _ _ => []
  | .binit _ _ _ => []
  | .barr _ _ sb => [1000 + sb.toNat]
  | .bwait _ _ => []
  | .barw _ sb => [1000 + sb.toNat]
  | .bphase _ _ sb => [1000 + sb.toNat]
  | .bexp _ _ _ => []
  | .tdef _ _ _ => []
  | .tacq _ _ => []
  | .trdy _ _ => []
  | .trel _ _ => []
  | .tstat _ _ sb => [1000 + sb.toNat]
  | .thand _ sb => [1000 + sb.toNat, 1001 + sb.toNat]
  | .tadopt _ _ => []
  | .cpyG2t _ _ _ _ _ => []
  | .cpyT2g _ _ _ _ _ => []
  | .cpyL2l _ _ _ _ _ => []
  | .cpyG2g _ _ _ _ _ => []
  | .cpyG2l _ _ _ _ _ => []
  | .cpyL2g _ _ _ _ _ => []
  | .gather _ _ _ _ _ => []
  | .mldwTile _ _ _ => []
  | .mldwHandle _ _ _ => []
  | .mma _ _ _ _ _ _ => []
  | .mz _ _ _ => []
  | .mdrn _ _ => []
  | .mrst _ _ => []
  | .mrel _ => []
  | .accrd _ d _ _ => [d.toNat, d.toNat + 1]
  | .accrdF _ d _ _ => [d.toNat]
  | .accwr _ _ _ _ => []
  | .accwrF _ _ _ _ => []
  | .put _ _ _ _ _ => []
  | .puts _ _ _ _ _ => []
  | .get _ _ _ _ _ => []
  | .csend _ _ _ _ _ => []
  | .rsig _ _ _ _ _ => []
  | .spawn _ _ _ _ _ => []
  | .hpass _ _ _ _ _ => []
  | .getx _ sb _ => [1000 + sb.toNat]
  | .setx _ _ _ => []
  | .sysc _ => []
  | .rett => []
  | .hcall _ => []
  | .tlbi _ _ => []
  | .tlbiAll _ => []
  | .dict _ _ _ _ _ _ => []
  | .runStart _ _ => []
  | .teamPromote _ => []
  | .operationComplete _ _ => []
  | .walkComplete _ _ _ => []
  | .trapEntry _ => []
  | .regionRollback _ => []
  | .ladleGrant _ => []
  | .regrpForm _ => []
  | .endrgReturn _ => []
  | .teamWake _ => []
  | .teamEnd _ => []
  | .blockEnd _ => []
  | .budgetOut _ => []
  | .fold _ => []
  | .rebase => []
  | .engineCommandIssue _ => []
  | .copyUnit _ _ => []
  | .copyComplete _ => []
  | .reservationGrant _ => []
  | .reservationRetire _ _ => []
  | .reservationPromote _ _ => []
  | .packetSend _ => []
  | .flitReceive _ _ _ _ _ _ => []
  | .linkRetrain _ => []
  | .putDataPacket _ _ => []
  | .putsDataPacket _ _ => []
  | .signalPacket _ _ => []
  | .getRequestPacket _ _ => []
  | .getResponsePacket _ _ _ => []
  | .collectiveChunk _ _ => []
  | .ackPacket _ _ => []
  | .nackPacket _ _ _ => []
  | .controlPacket _ _ => []
  | .retransmit _ => []
  | .watchdog _ => []
  | .coreOffer _ => []
  | .carveChange _ => []
  | .governorEvaluate => []
  | .sliceBoundary _ => []
  | .classUpdate => []
  | .evictionCheck => []
  | .blockEvict _ => []
  | .blockResume _ _ => []
  | .fallback _ _ => []
  | .spawnAccept => []
  | .passRecord => []
  | .monitorSpuriousWake _ => []
  | .lanemapApply _ => []
  | .stopTimeout _ => []
  | .load _ => []
  | .start => []
  | .signalArrival => []
  | .signalWord => []
  | .stop => []
  | .reset => []
  | .ckpt => []
  | .restore => []
  | .setseed => []
  | .queryIdent => []
  | .queryHealth => []
  | .queryAttest => []
  | .queryEvents => []
  | .queryCapture => []
  | .badcmd => []
  | .cqheadWrite _ => []
  | .registerWrite _ _ _ => []
  | .hostApertureWrite _ _ => []
  | .hostApertureRead _ _ _ => []
  | .debugEnableWrite _ => []
  | .meas7Write _ => []
  | .imageKeyWrite _ _ => []
  | .firmwareImageWrite _ => []
  | .edgeViewPass => []
  | .coldStart => []
  | .warmResetPin => []
  | .powerLoss => []
  | .monitorSample _ _ _ _ _ => []
  | .clockStepUp => []
  | .eccError _ _ _ _ => []
  | .stackLost _ => []
  | .hbmScrub => []
  | .eventRecord => []
  | .ringWrite => []
  | .ringHeaderWrite => []
  | .sample _ _ => []
  | .ckptComplete => []
  | .restoreComplete => []
  | .l2SectorEvict _ => []
  | .l1LineEvict _ _ => []
  | .ptpMessage _ => []

/-- The pipe classes of R78. -/
inductive Pipe where
  | s | v | x | m | e
  deriving DecidableEq, Repr

/-- The pipe class of a word's major (R78). -/
def pipeOf (w : Nat) : Pipe :=
  let j := majorOf w
  if j ≤ 7 then .s
  else if j = 0x15 then .x
  else if j ≤ 0x1C then .v
  else if j ≤ 0x1E then .s
  else if j ≤ 0x29 then .m
  else if j ≤ 0x30 then .e
  else .s

/-- The vector register fields of a word's entry (R71); none for a word that is no instruction. -/
def vectorLows (w : Nat) : List Nat :=
  match decodeWord w with
  | .ok i => vectorFields i
  | .error _ => []

end Sys2Proof.Machine
end

