-- ==== Sys2Proof/Machine/Ladle.lean ====
section
/-! DEFINITION. Deterministic launches (R260–R269): the ladle's turns, the publications of a team, sequence numbers, open
regions, captured progress; and the releases a team makes (R148). -/

namespace Sys2Proof.Machine

/-- The launch number of a team. -/
def State.launchNo (s : State) (t : Team) : Option Nat := (s.blockOf t).map (·.launch)

/-- A gated instruction (R263): in a deterministic launch it acts only while its team holds the ladle, and its turn ends when
it has acted; without the ladle it stalls and wants it. -/
def gated (s : State) (act : State → Out) : Out :=
  match s.team s.cur with
  | none => act s
  | some t =>
    if !s.deterministic t then act s
    else
      match s.launchNo t with
      | none => act s
      | some n =>
        match s.launch n with
        | none => act s
        | some l =>
          if l.ladle = some s.cur ∧ !t.parked.any (·.turn) then
            act ((s.setLaunch n { l with ladle := none }).modTeam s.cur fun t => { t with wants := false })
          else .next (stallInstr (s.modTeam s.cur fun t => { t with wants := true }))

/-- The team's turn goes on: a lane of its instruction is parked (R263). -/
def keepTurn (s : State) (k op : Nat) : State :=
  match (s.team k).bind s.launchNo with
  | none => s
  | some n =>
    (s.modLaunch n fun l => { l with ladle := some k }).modTeam k fun t =>
      { t with parked := t.parked.map fun p => if p.op = op then { p with turn := true } else p }

/-- What a release of a team publishes and how it takes its stamp (R148, R266). -/
def publisherOf (s : State) (k : Nat) : Publisher :=
  match s.team k with
  | none => Publisher.all (ctxOfTeam k)
  | some t =>
    if s.deterministic t then ⟨fun e => e.det.isNone && e.tctx == ctxOfTeam k, none, s.launchNo t, ctxOfTeam k⟩
    else Publisher.all (ctxOfTeam k)

/-- The launch and the number in its grid of the team that a log entry of a core is of (R266). -/
def State.ownerOf (s : State) (c : Nat) (e : LogEntry) : Option (Nat × Nat) :=
  match e.det with
  | some ek => (s.hub.evicted.find ek).map fun v => (v.launch, 32 * v.index + e.tctx)
  | none => (s.team (16 * c + e.tctx)).bind fun t => (s.blockOf t).map fun b => (b.launch, 32 * b.index + t.number)

/-- A deterministic launch that has not ended. -/
def State.inOrder (s : State) (n : Nat) : Bool := (s.launch n).any fun l => l.determ && !l.ended

/-- The publisher of a promotion (R154): for the record of a team of a deterministic launch, that team's entries alone, with the
ladle's stamp (R266). -/
def recordPublisher (s : State) (team : Option (Nat × Nat)) (c : Nat) : Publisher :=
  match team with
  | some x => if s.inOrder x.1 then ⟨fun e => s.ownerOf c e == some x, none, some x.1, 16⟩ else Publisher.hub
  | none => Publisher.hub

/-- The publisher of the promotion that an acquiring team's `LACQ` makes (R154): in a deterministic launch the launch's own entries, with
the ladle's stamp (R266). -/
def readerPublisher (s : State) (k c : Nat) : Publisher :=
  match (s.team k).bind s.launchNo with
  | some n => if s.inOrder n then ⟨fun e => (s.ownerOf c e).map (·.1) == some n, none, some n, 16⟩ else Publisher.hub
  | none => Publisher.hub

/-- A team's release at CLUSTER scope or wider up to TAIL (R148): the state and the stamp. -/
def releaseTeam (s : State) (k scope : Nat) : State × Nat :=
  let core := coreOfTeam k
  let tag := s.tagFor k
  publish s core tag ((s.core core).tail tag) scope (publisherOf s k)

/-- A reserved stamp of a gated engine command (R266): taken by the ladle's rule. -/
def reserveStamp (s : State) (k : Nat) : State × Nat :=
  match s.team k with
  | none => (s, 0)
  | some t =>
    let c := s.core (coreOfTeam k)
    if s.deterministic t then
      let n := (s.launchNo t).getD 0
      let ls := ((s.launch n).map (·.ls)).getD 0
      let x := max c.counter ls + 1
      ((s.setCore (coreOfTeam k) { c with counter := x }).modLaunch n fun l => { l with ls := x }, x)
    else (s.setCore (coreOfTeam k) { c with counter := c.counter + 1 }, c.counter + 1)

/-- The sequence number of a sequenced reduction (R267). -/
def takeSequence (s : State) (k : Nat) : State × Nat :=
  match (s.team k).bind s.launchNo with
  | none => (s, 0)
  | some n =>
    match s.launch n with
    | none => (s, 0)
    | some l => (s.setLaunch n { l with nextSeq := l.nextSeq + 1 }, l.nextSeq)

/-- Open-region entries of the hub in use (R268). -/
def openRegions (s : State) : Nat := s.launches.foldl (fun n kl => n + if kl.2.ended then 0 else kl.2.regions.length) 0

/-- The regions of a list, each once, that a team's launch has not opened yet (R268). -/
def newRegions (s : State) (k : Nat) (rs : List Nat) : List Nat :=
  let have' := (((s.team k).bind s.launchOf).map (·.regions)).getD []
  rs.foldl (fun acc r => if have'.contains r || acc.contains r then acc else acc ++ [r]) []

/-- A deterministic launch opens the 4 KiB regions of a list (R268). -/
def openFor (s : State) (k : Nat) (rs : List Nat) : State :=
  if rs.isEmpty then s else
  match (s.team k).bind s.launchNo with
  | none => s
  | some n => s.modLaunch n fun l => { l with regions := rs.foldl (fun x r => if x.contains r then x else x ++ [r]) l.regions }

/-- A 4 KiB region is open for a deterministic launch (R268). -/
def regionOpen (s : State) (r : Nat) : Bool := s.launches.any fun kl => kl.2.determ && !kl.2.ended && kl.2.regions.contains r

/-- The capture region's units: a record of 64-byte units at HEAD (R269). -/
def capture (s : State) (kind : Nat) (bs : List Byte) : State :=
  let units := (16 + bs.length + 63) / 64
  let whole := leBytes 2 kind ++ leBytes 2 units ++ zeroBytes 4 ++ leBytes 8 s.time ++ bs
  let total := 134217664
  let put := fun (c : Capture) (i : Nat) =>
    let h := (c.head + 1) % total
    { c with units := c.units.put c.head (bytesAt whole (64 * i) 64), head := h, epoch := if h = 0 then c.epoch + 1 else c.epoch }
  { s with capture := (List.range units).foldl put s.capture }

/-- The 4,096 bytes of the capture region's header (R269). -/
def Capture.headerBytes (c : Capture) : List Byte :=
  let body := leBytes 4 0x43505401 ++ zeroBytes 4 ++ leBytes 8 c.head ++ leBytes 8 c.epoch ++ zeroBytes 4068
  body ++ leBytes 4 (crc32c body).toNat

/-- A PROGRESS record of a team of a deterministic launch (R269): `barrier` is 0xFF for `GBAR` or exit; `past` says that the
team continues past a barrier, which counts. -/
def progress (s : State) (k barrier : Nat) (past : Bool) : State :=
  match s.team k with
  | none => s
  | some t =>
    if !s.deterministic t then s
    else
      match s.blockOf t, s.launchOf t with
      | some b, some l =>
        let phases := t.phases + if past then 1 else 0
        let s := s.setTeam k { t with phases := phases }
        capture s 3 (leBytes 8 l.id.toNat ++ leBytes 4 b.index ++ leBytes 1 t.number ++ leBytes 1 barrier ++ zeroBytes 2
          ++ leBytes 4 phases ++ leBytes 4 t.sg.toNat ++ leBytes 8 t.ldclk ++ leBytes 8 l.ls ++ leBytes 8 l.nextSeq)
      | _, _ => s

end Sys2Proof.Machine
end

