-- ==== Sys2Proof/Machine/Barriers.lean ====
section
/-! DEFINITION. Barrier registers as teams use them: `BINIT`, `BARR`, `BWAIT`, `BARW`, `BPHASE`, `BEXP` (R173, R174,
R302–R304). -/

namespace Sys2Proof.Machine

/-- An instruction of pipe E that acts on its block once for the team: not when every active lane is held, nor on a poisoned
scalar (R98, R273); it advances an open region unless it is a blocking point, which closes it (R275). -/
def onBlock (s : State) (src : List Nat) (blocking : Bool) (act : State → Team → Block → Out) : Out :=
  match s.team s.cur with
  | none => .next s
  | some t =>
    match s.blockOf t with
    | none => .next s
    | some b =>
      if t.mute then .next s
      else
        let t := t.modRun fun r => { r with advances := r.advances || !blocking, closes := r.closes || blocking }
        let s := s.setTeam s.cur t
        if t.taintS src then .next (s.modTeam s.cur fun t => t.consume t.acting) else act s t b

/-- The instruction traps `ILLEGAL_OP` for every active lane and changes nothing else (R303). -/
def refuseOp (s : State) : Out := .next (s.modTeam s.cur Team.illegalOp)

/-- A team observes the completion of a phase: the acquire it is owed (R174). -/
def observe (s : State) (k : Nat) (owed : Nat × Nat) : State :=
  if owed.1 < 2 then s else acquire s (coreOfTeam k) owed.1 owed.2

/-- The register's fields allow an arrival of a team (R173). -/
def mayArrive (b : Block) (t : Team) (n : Nat) : Bool :=
  let x := b.barrier n
  decide (0 < x.teams) && !b.regrouped && !x.arrt.getLsbD t.number

/-- A team arrives on a register (R173). -/
def arriveAt (s : State) (k : Nat) (t : Team) (b : Block) (n : Nat) : State :=
  let x := b.barrier n
  let x' := { x with arrt := x.arrt ||| (1#16 <<< t.number), clks := x.clks.put t.number (((s.team k).map (·.ldclk)).getD t.ldclk) }
  evalBarrier (s.setBlock t.block (b.setBarrier n x')) t.block n

/-- A team that awaits phase `p` goes on past a barrier it found complete (R304). -/
def passBarrier (s : State) (k n : Nat) (b : Barrier) (p : BitVec 8) : State :=
  let s := noteSeen (observe s k (b.owedFrom p)) k n p
  progress (s.modTeam k fun t => { t with waitCause := 1, due := t.due ++ b.lastFlt }) k n true

/-- The waiting part of `BWAIT` and `BARW` (R304). -/
def awaitPhase (s : State) (k n : Nat) (phase : BitVec 8) : State :=
  match s.team k with
  | none => s
  | some t =>
    match s.blockOf t with
    | none => s
    | some b =>
      let x := b.barrier n
      if x.phase ≠ phase then passBarrier s k n x phase
      else
        let s := s.setBlock t.block (b.setBarrier n { x with waiters := x.waiters ||| (1#16 <<< t.number) })
        s.modTeam k fun t => t.modRun fun r => { r with blocks := some (.barrier n phase none) }

/-- `BINIT` (R302). -/
def execBinit (b : BitVec 4) (sb : BitVec 6) (s : State) : Out :=
  onBlock s [sb.toNat] false fun s t blk =>
    let x := blk.barrier b.toNat
    let v := (t.readS s.tick sb.toNat).toNat
    if x.arrt ≠ 0#16 ∨ x.pend ≠ 0 ∨ x.ext ≠ 0 ∨ blk.nteams < v then refuseOp s
    else .next (s.setBlock t.block (blk.setBarrier b.toNat { x with teams := v, fault := false, openFlt := [] }))

/-- `BARR` (R302). -/
def execBarr (b : BitVec 4) (sb : BitVec 6) (s : State) : Out :=
  onBlock s [] false fun s t blk =>
    if !mayArrive blk t b.toNat then refuseOp s
    else
      let phase := (blk.barrier b.toNat).phase
      .next (arriveAt (s.modTeam s.cur fun t => t.writeS sb.toNat (phase.setWidth 32)) s.cur t blk b.toNat)

/-- `BWAIT` (R304). -/
def execBwait (b : BitVec 4) (sb : BitVec 6) (s : State) : Out :=
  onBlock s [sb.toNat] true fun s t _ => .next (awaitPhase s s.cur b.toNat ((t.readS s.tick sb.toNat).setWidth 8))

/-- `BARW` (R304). -/
def execBarw (b : BitVec 4) (sb : BitVec 6) (s : State) : Out :=
  onBlock s [] true fun s t blk =>
    if !mayArrive blk t b.toNat then refuseOp s
    else
      let phase := (blk.barrier b.toNat).phase
      let s := arriveAt (s.modTeam s.cur fun t => t.writeS sb.toNat (phase.setWidth 32)) s.cur t blk b.toNat
      .next (awaitPhase s s.cur b.toNat phase)

/-- `BPHASE` (R302): reading the phase observes its completion (R174). -/
def execBphase (b : BitVec 4) (sb : BitVec 6) (s : State) : Out :=
  onBlock s [] false fun s _ blk =>
    let x := blk.barrier b.toNat
    .next ((noteSeen (observe s s.cur (x.owedFrom (x.phase - 1))) s.cur b.toNat (x.phase - 1)).modTeam s.cur fun t =>
      t.writeS sb.toNat (x.phase.setWidth 32 ||| if x.lfault then 0x100#32 else 0#32))

/-- `BEXP` (R302). An early arrival, which stands as credit, then counts in the open phase (R174). -/
def execBexp (b : BitVec 4) (sb : BitVec 6) (s : State) : Out :=
  onBlock s [sb.toNat] false fun s t blk =>
    let x := blk.barrier b.toNat
    let v := (t.readS s.tick sb.toNat).toNat
    if v = 0 ∨ 4095 < v ∨ 32767 < x.ext + v then refuseOp s
    else
      let id := s.launchIdOf blk.launch
      let s := s.modHub fun h =>
        { h with deliveries := h.deliveries.map fun d => if d.of id blk.index b.toNat then d.expect v x.phase else d }
      .next (s.setBlock t.block (blk.setBarrier b.toNat { x with ext := x.ext + v, openAcq := if x.ext < 0 then joinAcquires x.openAcq (3, 0) else x.openAcq }))

end Sys2Proof.Machine
end

