-- ==== Sys2Proof/Machine/Control.lean ====
section
/-! DEFINITION. Control instructions (R49–R53, R274, R280, R306–R310, R324–R328, R338, R348, R365, R370, R384–R388, R416) and the
dictionary word (R71). -/

namespace Sys2Proof.Machine

/-! ### Transfers (R60) -/

/-- The code address a packet offset names (R60). A target below code address 0 stands beyond every text at a multiple of
2^32 above its 32-bit pattern, so that it traps `PAGE`. -/
def packetTarget (start : Nat) (off : Int) : Nat :=
  let x := (start : Int) + 12 * off
  if x < 0 then (x + 3 * 2 ^ 36).toNat else x.toNat

/-- The target of an offset field from the run in progress. -/
def Team.targetOf {n : Nat} (t : Team) (o : BitVec n) : Nat := packetTarget ((t.run.map (·.start)).getD 0) o.toInt

/-- The team continues at a code address at the end of its run. -/
def Team.goto (t : Team) (target : Nat) : Team := t.modRun fun r => { r with target := some target }

/-- The code address after the run (R59). -/
def Team.fallThrough (t : Team) : Nat := (t.run.map (·.through)).getD 0

/-- A transfer acts whatever `k0` holds, held lanes included (R306, R310, R348); a poisoned scalar it reads makes every
active lane a consumer, and it then does not transfer (R273). -/
def Team.transfer (t : Team) (src : List Nat) (act : Team → Team) : Team :=
  if t.taintS src then t.consume t.acting else act t

/-- The dictionary of a team's block: none in S and H (R70, R95). -/
def dictOf (s : State) (t : Team) : List Nat := if t.mode = .u then ((s.blockOf t).map (·.dict)).getD [] else []

/-! ### Plain -/

/-- `NOP` (R370). -/
def execNop (s : State) : Out := .next s

/-- `EXIT` (R328): its active lanes leave at the end of the run. -/
def execExit (s : State) : Out := onTeam s fun t => t.modRun fun r => { r with exits := t.acting }

/-- `YIELD` (R416). -/
def execYield (s : State) : Out :=
  onTeam s fun t => { t.modRun fun r => { r with yields := true } with lastIssue := s.time, passed := 0, promoted := false }

/-- `BRKPT` (R308): `BREAK` for every active lane at the end of the run, which this closes when the word is its last. -/
def execBrkpt (i : BitVec 20) (s : State) : Out :=
  .next (finishInstr (s.modTeam s.cur fun t => t.raise t.trapSet 19 (i.setWidth 32) t.itemAddr false 0))

/-- `SIGCK` (R280, R396). -/
def execSigck (i : BitVec 20) (s : State) : Out :=
  onTeam s fun t =>
    if t.mute then t
    else
      let sg := (t.run.map (·.sgRead)).getD t.sg
      let bits := sg &&& 0xFFFFF#32
      let t := { t with sg := 0xFFFFFFFF#32 }
      if bits = i.setWidth 32 then t else t.mismatch bits

/-- `EVT` (R327): one USER record. -/
def execEvt (i : BitVec 20) (s : State) : Out :=
  match s.team s.cur with
  | none => .next s
  | some t =>
    .next (emit s unitCore (coreOfTeam s.cur) 0x500 0 (i.toNat + 2 ^ 20 * ctxOfTeam s.cur + 2 ^ 32 * t.itemAddr))

/-- The region table of a team's image holds an id (R77, R274). -/
def regionListed (s : State) (t : Team) (id : BitVec 20) : Bool :=
  match s.launchOf t with
  | none => false
  | some l =>
    let dpa := ((s.image l.kernel).map (·.dpa)).getD 0
    (List.range (imageField s dpa 60 4)).any fun n => imageField s dpa (imageField s dpa 56 4 + 4 * n) 4 == id.toNat

/-- `RGNB` (R274, R388): a region opens at the end of the run. -/
def execRgnb (i : BitVec 20) (s : State) : Out :=
  onTeam s fun t =>
    if t.mute then t
    else if t.depth ≠ 0 ∨ ¬ regionListed s t i then t.illegalOp
    else t.modRun fun r => { r with opens := some i, closes := false }

/-- `RGNE` (R274, R388): the open region closes at the end of the run. -/
def execRgne (s : State) : Out :=
  onTeam s fun t => if t.mute then t else t.modRun fun r => { r with opens := none, closes := true }

/-- `GBAR` (R338, R339): release at DEVICE scope, arrival at the grid barrier, and a wait. With every active lane held the
barrier executes again after the trap. -/
def execGbar (s : State) : Out :=
  match s.team s.cur with
  | none => .next s
  | some t =>
    match s.blockOf t, s.launchOf t with
    | some b, some l =>
      if t.mute then onTeam s fun t => t.goto ((t.run.map (·.start)).getD 0)
      else if !l.cores || b.regrouped || t.depth != 0 then .next (s.setTeam s.cur t.illegalOp)
      else
        gated s fun s =>
          let r := releaseTeam s s.cur 3
          let s := r.1.modTeam s.cur fun t => t.modRun fun r => { r with blocks := some .grid }
          .next (gridArrive s b.launch b.index t.number r.2 t.ldclk)
    | _, _ => .next s

/-! ### Structured control (R49, R325) -/

/-- The shadow copy of a mask (R271). -/
def Team.shadowK (t : Team) (r : Nat) : Mask := t.readK r ^^^ t.kDiff r

/-- `MSTACK` for the team, with the depth as its detail (R97). -/
def Team.stackTrap (t : Team) : Team := t.raiseAll 17 (BitVec.ofNat 32 t.stack.length)

/-- `IF` (R49, R325). -/
def execIfK (k : BitVec 4) (o : BitVec 18) (s : State) : Out :=
  onTeam s fun t =>
    if 32 ≤ t.stack.length then t.stackTrap
    else
      let a := t.readK 0
      let c := t.readK k.toNat
      let a' := t.shadowK 0
      let c' := t.shadowK k.toNat
      let e : StackEntry := ⟨a, a &&& ~~~c, .ifArm, a ^^^ a', (a &&& ~~~c) ^^^ (a' &&& ~~~c')⟩
      let t := ({ t with stack := e :: t.stack }.writeK0 (a &&& c) ((a &&& c) ^^^ (a' &&& c'))).tagSg .push
      if a &&& c = 0#1024 then t.goto (t.targetOf o) else t

/-- `ELSE` (R49, R325). -/
def execElseK (o : BitVec 18) (s : State) : Out :=
  onTeam s fun t =>
    match t.stack with
    | [] => t.stackTrap
    | e :: rest =>
      if e.kind ≠ .ifArm then t.stackTrap
      else
        let t := ({ t with stack := { e with kind := .elseArm } :: rest }.writeK0 e.other e.eDiff).tagSg .elseArm
        if e.other = 0#1024 then t.goto (t.targetOf o) else t

/-- `ENDIF` (R49, R325): at issue. -/
def execEndIf (s : State) : Out :=
  onTeam s fun t =>
    match t.stack with
    | [] => t.stackTrap
    | e :: rest =>
      if e.kind = .loopBody then t.stackTrap else ({ t with stack := rest }.writeK0 e.saved e.sDiff).tagSg .pop

/-- `LOOP` (R49, R365). -/
def execLoop (o : BitVec 18) (s : State) : Out :=
  onTeam s fun t =>
    if 32 ≤ t.stack.length then t.stackTrap
    else
      let e : StackEntry := ⟨t.readK 0, 0#1024, .loopBody, t.kDiff 0, 0#1024⟩
      let u := { t with stack := e :: t.stack }.tagSg .push
      if t.readK 0 = 0#1024 then skipRest vectorLows (dictOf s t) u (t.targetOf o) else u

/-- Clear lanes from the entries above the innermost LOOP (R49). -/
def cutAboveLoop (m : Mask) : List StackEntry → List StackEntry
  | [] => []
  | e :: rest =>
    if e.kind = .loopBody then e :: rest
    else { e with saved := e.saved &&& ~~~m, other := e.other &&& ~~~m, sDiff := e.sDiff &&& ~~~m, eDiff := e.eDiff &&& ~~~m }
      :: cutAboveLoop m rest

/-- `BRKIF` (R49, R307). -/
def execBrkIf (k : BitVec 4) (o : BitVec 18) (s : State) : Out :=
  onTeam s fun t =>
    if !t.stack.any fun e => e.kind == .loopBody then t.stackTrap
    else
      let a := t.readK 0
      let m := t.readK k.toNat &&& a
      let left := a &&& ~~~m
      let left' := t.shadowK 0 &&& ~~~(t.shadowK k.toNat &&& t.shadowK 0)
      let u := ({ t with stack := cutAboveLoop m t.stack }.writeK0 left (left ^^^ left')).tagSg .breakOut
      if left = 0#1024 then skipRest vectorLows (dictOf s t) u (t.targetOf o) else u

/-- `ENDLP` (R49, R325). -/
def execEndLp (o : BitVec 18) (s : State) : Out :=
  onTeam s fun t =>
    match t.stack with
    | [] => t.stackTrap
    | e :: rest =>
      if e.kind ≠ .loopBody then t.stackTrap
      else if t.readK 0 = 0#1024 then ({ t with stack := rest }.writeK0 e.saved e.sDiff).tagSg .pop
      else (t.tagSg .loopBack).goto (t.targetOf o)

/-! ### Whole-team transfers (R306, R310, R348, R386) -/

/-- `BRA` (R306). -/
def execBra (o : BitVec 15) (s : State) : Out := onTeam s fun t => t.goto (t.targetOf o)

/-- The test of `BRC` (R306). -/
def branchTest (cond : Nat) (w : Word) : Bool :=
  match cond with
  | 1 => w == 0#32
  | 2 => w != 0#32
  | 3 => decide (w.toInt < 0)
  | 4 => decide (0 ≤ w.toInt)
  | 5 => decide (0 < w.toInt)
  | _ => decide (w.toInt ≤ 0)

/-- `BRC` (R306). -/
def execBrc (k : BitVec 4) (sb : BitVec 6) (o : BitVec 15) (s : State) : Out :=
  onTeam s fun t =>
    t.transfer [sb.toNat] fun t => if branchTest k.toNat (t.readS s.tick sb.toNat) then t.goto (t.targetOf o) else t

/-- `CALL` (R310): the link goes to `s1`. -/
def execCall (o : BitVec 22) (s : State) : Out :=
  onTeam s fun t => (t.writeS 1 (BitVec.ofNat 32 t.fallThrough)).goto (t.targetOf o)

/-- `CALLR` (R310). -/
def execCallr (sb : BitVec 6) (s : State) : Out :=
  onTeam s fun t =>
    t.transfer [sb.toNat] fun t =>
      (t.writeS 1 (BitVec.ofNat 32 t.fallThrough)).goto (t.readS s.tick sb.toNat).toNat

/-- `RET` (R386). -/
def execRet (s : State) : Out := onTeam s fun t => t.transfer [1] fun t => t.goto (t.readS s.tick 1).toNat

/-- `JMPR` (R348). -/
def execJmpr (sb : BitVec 6) (s : State) : Out :=
  onTeam s fun t => t.transfer [sb.toNat] fun t => t.goto (t.readS s.tick sb.toNat).toNat

/-! ### Regrouping (R51, R385) -/

/-- What `REGRP` records of each lane: octal digit 1 + target (R51). -/
def targetDigits (t : Team) (n v : Nat) (part : Mask) : Nat :=
  (lanesOf part t.lanes).foldl (fun x l => x + (1 + (t.readV n v l).toNat % 4) * 8 ^ l) 0

/-- `REGRP` (R51, R385): each active lane selects a target; a lane with bits above bit 1 traps and takes no part, and a held
lane's target still counts (R98). A team that traps whole arrives all the same, with no lane for any target (R385). DESIGN CHOICE (log entry
49): a regrouped team with a non-empty mask stack takes `ILLEGAL_OP`. -/
def execRegrp (v : BitVec 4) (o : BitVec 18) (s : State) : Out :=
  onTeam s fun t =>
    let r := 8 * v.toNat + 6
    let regrouped := ((s.blockOf t).map (·.regrouped)).getD false
    if regrouped then t.illegalOp
    else
      let wait := fun (t : Team) (digits : Nat) =>
        t.modRun fun x => { x with blocks := some (.regroup false (t.targetOf o) digits) }
      if !t.stack.isEmpty then wait t.stackTrap 0
      else
        let bad := maskOf ((lanesOf t.k0 t.lanes).filter fun l => decide (4 ≤ (t.readV s.tick r l).toNat))
        let taint := t.taint (ownLane [r]) []
        wait ((t.consume taint).illegalLanes (bad &&& t.acting &&& ~~~taint))
          (targetDigits t s.tick r (t.k0 &&& ~~~bad &&& ~~~taint))

/-- `ENDRG` (R51, R53, R385): a non-empty mask stack is `MSTACK` for the team, whose lanes return home all the same and take the trap
there (R98). -/
def execEndrg (s : State) : Out :=
  onTeam s fun t =>
    if ((s.blockOf t).map (·.regrouped)).getD false && !t.ends then
      (if t.stack.isEmpty then t else t.stackTrap).modRun fun r => { r with blocks := some (.regroup true r.through 0) }
    else t.illegalOp

/-! ### The dictionary word (R71, R435) -/

/-- A dictionary word: its two references take its place in the run. An index at or beyond the loaded entries is `DICT_BAD`,
a field that leaves `v0`–`v119` under its window `ILLEGAL_OP`; the fetch checks find both before a run starts (R72). -/
def execDict (c h : BitVec 1) (w : BitVec 2) (i : BitVec 10) (x : BitVec 2) (j : BitVec 10) (s : State) : Out :=
  onTeam s fun t =>
    let dict := dictOf s t
    let past := fun (n : Nat) => decide (dict.length ≤ n)
    if past i.toNat then t.raiseAll 4 (i.setWidth 32)
    else if past j.toNat then t.raiseAll 4 (j.setWidth 32)
    else
      let broken := fun (n win : Nat) =>
        let e := dict.getD n 0 % 2147483648
        windowBreaks (vectorLows e) win e
      if broken i.toNat w.toNat || broken j.toNat x.toNat then t.illegalOp
      else
        t.modRun fun r =>
          let two := expandRef vectorLows dict r.item.addr (c == 1#1) ⟨h == 1#1, w.toNat, i.toNat, x.toNat, j.toNat⟩
          { r with items := two ++ r.items, item := { r.item with chain := r.inChain } }

end Sys2Proof.Machine
end

