-- ==== Sys2Proof/Machine/Convert.lean ====
section
/-! DEFINITION. `CVT`, `CMP`, and the codebook instructions (R107, R108, R117, R311–R315, R322, R323). -/

namespace Sys2Proof.Machine

/-! ### Conversion (R108, R323) -/

/-- The rounding field (R79). -/
def Rounding.ofField (r : BitVec 3) : Rounding :=
  match r.toNat with
  | 0 => .rne
  | 1 => .rtz
  | 2 => .rup
  | 3 => .rdn
  | _ => .rto

/-- FP32 narrowed to a 16-bit format (R108, R323). -/
def narrowHalf (dst : FpFmt) (mode : Rounding) (sat : Bool) (w : Word) : BitVec 16 × FpFlags :=
  let r := FpFmt.f32.convert dst mode sat w.toNat
  (BitVec.ofNat 16 r.1, r.2)

/-- A half widened exactly to FP32 (R108): a NaN keeps its payload, shifted into place, and becomes quiet. -/
def widenHalf (src : FpFmt) (h : BitVec 16) : Word × FpFlags :=
  match src.read h.toNat with
  | .nan sig =>
    let frac := h.toNat % 2 ^ src.fracBits * 2 ^ (23 - src.fracBits)
    ((if h.getLsbD 15 then 0x80000000#32 else 0#32) ||| 0x7FC00000#32 ||| BitVec.ofNat 32 frac, flagIf sig flagInvalid)
  | .inf n => (BitVec.ofNat 32 (FpFmt.f32.infinity n), 0#5)
  | .fin n m e => (BitVec.ofNat 32 (FpFmt.f32.round .rne n m e).1, 0#5)

/-- FP32 to an integer in [lo, hi] after scaling by 2^scale (R108): clamped or the indefinite value when out of range. -/
def toInteger (mode : Rounding) (sat : Bool) (scale : Int) (lo hi : Int) (indefinite w : Word) : Word × FpFlags :=
  match FpFmt.f32.read w.toNat with
  | .nan _ => (if sat then 0#32 else indefinite, flagInvalid)
  | .inf n => (if sat then BitVec.ofInt 32 (if n then lo else hi) else indefinite, flagInvalid)
  | .fin n m e =>
    let r := roundAt mode n m (e + scale) 0
    let z := signedMant n r.1
    if lo ≤ z ∧ z ≤ hi then (BitVec.ofInt 32 z, flagIf r.2 flagInexact)
    else (if sat then BitVec.ofInt 32 (if z < lo then lo else hi) else indefinite, flagInvalid)

/-- FP32 to an integral FP32 value (R323, F2F). -/
def toIntegral (mode : Rounding) (w : Word) : Word × FpFlags :=
  match FpFmt.f32.read w.toNat with
  | .nan sig => (0x7FC00000#32, flagIf sig flagInvalid)
  | .inf _ => (w, 0#5)
  | .fin n m e =>
    if 0 ≤ e ∨ m = 0 then (w, 0#5)
    else
      let r := roundAt mode n m e 0
      (BitVec.ofNat 32 (FpFmt.f32.pack n r.1 0), flagIf r.2 flagInexact)

/-- An integer rounded to FP32 (R323). -/
def fromInteger (mode : Rounding) (z : Int) : Word × FpFlags :=
  let r := FpFmt.f32.roundInt mode false z 0
  (BitVec.ofNat 32 r.1, r.2)

/-- The result of `CVT` op `o` on va, va+1 and vd (R323). -/
def convertWord (o : Nat) (mode : Rounding) (sat : Bool) (x x1 y : Word) : Word × FpFlags :=
  let low := fun (r : BitVec 16 × FpFlags) => (r.1.setWidth 32, r.2)
  let high := fun (r : BitVec 16 × FpFlags) => (packHalves r.1 (lowHalf y), r.2)
  match o with
  | 0 => low (narrowHalf .bf16 mode sat x)
  | 1 => high (narrowHalf .bf16 mode sat x)
  | 2 => widenHalf .bf16 (lowHalf x)
  | 3 => widenHalf .bf16 (highHalf x)
  | 4 => low (narrowHalf .fp16 mode sat x)
  | 5 => high (narrowHalf .fp16 mode sat x)
  | 6 => widenHalf .fp16 (lowHalf x)
  | 7 => widenHalf .fp16 (highHalf x)
  | 8 => toInteger mode sat 0 (-2147483648) 2147483647 0x80000000#32 x
  | 9 => toInteger mode sat 0 0 4294967295 0x80000000#32 x
  | 10 => fromInteger mode x.toInt
  | 11 => fromInteger mode x.toNat
  | 12 => df32Round mode x x1
  | 13 => toInteger mode sat 7 (-128) 127 0xFFFFFF80#32 x
  | 14 =>
    let r := FpFmt.f32.roundInt .rne false (x.setWidth 8).toInt (-7)
    (BitVec.ofNat 32 r.1, 0#5)
  | _ => toIntegral mode x

/-- The vector sources of `CVT` op `o`: va, its pair for DF2F, vd for the half-inserting ops. -/
def convertSources (o d a : Nat) : List Nat :=
  if o = 12 then [a, a + 1] else if o = 1 ∨ o = 5 then [a, d] else [a]

/-- `CVT` (R322, R323). -/
def execCvt (d a : BitVec 7) (o : BitVec 5) (r : BitVec 3) (sb : BitVec 1) (s : State) : Out :=
  fpLanes s (ownLane (convertSources o.toNat d.toNat a.toNat)) [] d.toNat fun t l =>
    convertWord o.toNat (Rounding.ofField r) (sb == 1#1) (t.readV s.tick a.toNat l) (t.readV s.tick (a.toNat + 1) l)
      (t.readV s.tick d.toNat l)

/-! ### Comparison (R107, R315) -/

/-- A comparison from less-than, equal and unordered. -/
def compareBit (cond : Nat) (lt eq un : Bool) : Bool :=
  match cond with
  | 0 => eq && !un
  | 1 => !eq || un
  | 2 => lt && !un
  | 3 => (lt || eq) && !un
  | 4 => !(lt || eq) && !un
  | 5 => !lt && !un
  | 6 => un
  | _ => !un

/-- A comparison of two FP32 patterns with its flags: invalid for a signalling operand. -/
def compareFp (cond : Nat) (x y : Word) : Bool × FpFlags :=
  let a := FpFmt.f32.read x.toNat
  let b := FpFmt.f32.read y.toNat
  (compareBit cond (Fp.lt a b) (Fp.eq a b) (a.isNan || b.isNan), flagIf (a.signalling || b.signalling) flagInvalid)

/-- A comparison under a type code (R315). -/
def compareWord (cond type : Nat) (x y : Word) : Bool × FpFlags :=
  match type with
  | 0 => compareFp cond x y
  | 1 => (compareBit cond (x.slt y) (x == y) false, 0#5)
  | 2 => (compareBit cond (x.ult y) (x == y) false, 0#5)
  | _ => compareFp cond (packHalves (lowHalf x) 0#16) (packHalves (lowHalf y) 0#16)

/-- `CMP` (R314, R315): bits of active lanes only. -/
def execCmp (k : BitVec 4) (a b : BitVec 7) (o : BitVec 4) (t : BitVec 3) (s : State) : Out :=
  match s.team s.cur with
  | none => .next s
  | some tm =>
    let vs := ownLane [a.toNat, b.toNat]
    let f := fun l => compareWord o.toNat t.toNat (tm.readV s.tick a.toNat l) (tm.readV s.tick b.toNat l)
    let ls := tm.flagLanes vs []
    let tm' := (tm.putMask vs k.toNat fun l => (f l).1).raiseFlags (gatherFlags ls fun l => (f l).2)
    .next (noteInvalid (s.setTeam s.cur tm') s.cur (invalidLane ls fun l => (f l).2))

/-! ### The codebook (R117, R312) -/

/-- Entry `n` of the team's table. -/
def Regs.codebook (g : Regs) (n : Nat) : BitVec 16 := Sparse.get 0#16 g.cbt n

/-- The exact distance of two values that are no NaN, as an integer times 2^e; none when infinite (R117). -/
def codeDistance (x y : Fp) : Option (Int × Int) :=
  match x, y with
  | .inf a, .inf b => if a = b then some (0, 0) else none
  | .fin n1 m1 e1, .fin n2 m2 e2 =>
    let r := exactSum n1 m1 e1 (!n2) m2 e2
    some (r.1.natAbs, r.2)
  | _, _ => none

/-- Is distance `p` strictly below `q`? An infinite distance is `none`. -/
def nearer (p q : Option (Int × Int)) : Bool :=
  match p, q with
  | none, _ => false
  | some _, none => true
  | some (m1, e1), some (m2, e2) =>
    let e := min e1 e2
    decide (m1 * 2 ^ (e1 - e).toNat < m2 * 2 ^ (e2 - e).toNat)

/-- The index that `CBNEAR` chooses for `x` (R117). -/
def nearestCode (g : Regs) (x : Word) : Nat :=
  match FpFmt.f32.read x.toNat with
  | .nan _ => 15
  | v =>
    let best := (List.range 16).foldl
      (fun (b : Option (Nat × Option (Int × Int))) n =>
        let c := FpFmt.bf16.read (g.codebook n).toNat
        if c.isNan then b
        else
          let dist := codeDistance v c
          match b with
          | none => some (n, dist)
          | some p => if nearer dist p.2 then some (n, dist) else b)
      none
    (best.map (·.1)).getD 15

/-- Replace nibble `i` of a word. -/
def putNibble (w : Word) (i n : Nat) : Word :=
  (w &&& ~~~(0xF#32 <<< (4 * i))) ||| (BitVec.ofNat 32 (n % 16) <<< (4 * i))

/-- `CBX vd, va, p` (R312). -/
def execCbx (d a : BitVec 7) (i : BitVec 9) (s : State) : Out :=
  onTeam s fun t =>
    t.putLanes (ownLane [a.toNat]) [] d.toNat fun l =>
      let w := (t.readV s.tick a.toNat l).toNat / 2 ^ (8 * i.toNat)
      packHalves (t.view.codebook (w / 16 % 16)) (t.view.codebook (w % 16))

/-- `CBNEAR vd, va, i` (R312): invalid for a signalling NaN. -/
def execCbnear (d a : BitVec 7) (i : BitVec 9) (s : State) : Out :=
  fpLanes s (ownLane [a.toNat, d.toNat]) [] d.toNat fun t l =>
    let x := t.readV s.tick a.toNat l
    (putNibble (t.readV s.tick d.toNat l) i.toNat (nearestCode t.view x),
      flagIf (FpFmt.f32.read x.toNat).signalling flagInvalid)

/-- Load the table from eight lanes of a register (R312). -/
def Team.loadCodebook (t : Team) (n a b : Nat) : Team :=
  t.modRegs fun g =>
    { g with
      cbt := (List.range 8).foldl
        (fun m j =>
          let w := t.readV n a (b + j)
          Sparse.set 0#16 (Sparse.set 0#16 m (2 * j) (lowHalf w)) (2 * j + 1) (highHalf w))
        g.cbt }

/-- `CBLD va, b` (R312): once for the team if a lane acts; `ILLEGAL_OP` when lanes b to b + 7 do not all exist. A poisoned
lane of the eight is read for every active lane (R273). -/
def execCbld (a : BitVec 7) (i : BitVec 9) (s : State) : Out :=
  onTeam s fun t =>
    if t.acting = 0#1024 then t
    else if t.lanes ≤ i.toNat + 7 then t.illegalOp
    else if (List.range 8).any fun j => t.poisonV a.toNat (i.toNat + j) then t.consume t.acting
    else t.loadCodebook s.tick a.toNat i.toNat

end Sys2Proof.Machine
end

