-- ==== Sys2Proof/Machine/Packets.lean ====
section
/-! DEFINITION. Packets of the Runner fabric (R228), the replay stores they leave from (R226, R233, R237), the route table
(R227), the ORDERED streams (R234). -/

namespace Sys2Proof.Machine

/-- The fields of a packet's header (R228), and its payload. -/
structure Packet where
  src     : Nat
  dst     : Nat
  cls     : Nat
  vc      : Nat
  kind    : Nat
  efmt    : Nat
  cid     : BitVec 64
  collid  : Nat
  chunk   : Nat
  rank    : Nat
  /-- the entries still to act -/
  route   : List Nat
  fan0    : Nat
  fan1    : Nat
  key     : Nat
  win     : Nat
  sigbar  : Nat
  void    : Bool
  offset  : Nat
  sigblk  : Nat
  nelem   : Nat
  oseq    : Nat
  nsrc    : Nat
  sent    : Nat
  payload : List Byte
  deriving DecidableEq, Repr

/-- Read a packet: 128 bytes of header, then PAYLEN bytes. -/
def Packet.ofBytes (bs : List Byte) : Packet :=
  let f := fieldAt bs
  { src := f 0 2, dst := f 2 2, cls := f 4 1 % 4, vc := f 4 1 / 4 % 4, kind := f 4 1 / 16, efmt := f 5 1 / 16
    cid := BitVec.ofNat 64 (f 8 8), collid := f 16 4, chunk := f 20 2, rank := f 22 2
    route := (List.range (f 5 1 % 16)).map fun i => if i < 8 then f (24 + 2 * i) 2 else 0
    fan0 := f 40 2, fan1 := f 42 2, key := f 44 2, win := f 46 1, sigbar := f 47 1 % 16, void := f 47 1 / 128 == 1
    offset := f 48 5, sigblk := f 56 2, nelem := f 58 2, oseq := f 60 4, nsrc := f 64 4, sent := f 68 8
    payload := bytesAt bs 128 (f 6 2) }

/-- The bytes of a packet: the header, then the payload. -/
def Packet.bytes (p : Packet) : List Byte :=
  leBytes 2 p.src ++ leBytes 2 p.dst ++ leBytes 1 (p.cls + 4 * p.vc + 16 * p.kind) ++ leBytes 1 (p.route.length + 16 * p.efmt)
    ++ leBytes 2 p.payload.length ++ leBytes 8 p.cid.toNat ++ leBytes 4 p.collid ++ leBytes 2 p.chunk ++ leBytes 2 p.rank
    ++ (List.range 8).flatMap (fun i => leBytes 2 (p.route.getD i 0)) ++ leBytes 2 p.fan0 ++ leBytes 2 p.fan1
    ++ leBytes 2 p.key ++ leBytes 1 p.win ++ leBytes 1 (p.sigbar + if p.void then 128 else 0) ++ leBytes 8 p.offset
    ++ leBytes 2 p.sigblk ++ leBytes 2 p.nelem ++ leBytes 4 p.oseq ++ leBytes 4 p.nsrc ++ leBytes 8 p.sent ++ zeroBytes 52
    ++ p.payload

/-- A header that drops its packet: CLASS 3, KIND 8 to 15, or a nonzero zero field (R228). -/
def badHeader (bs : List Byte) : Bool :=
  fieldAt bs 4 1 % 4 == 3 || decide (8 ≤ fieldAt bs 4 1 / 16) || fieldAt bs 47 1 / 16 % 8 != 0 || fieldAt bs 53 3 != 0
    || fieldAt bs 76 52 != 0

/-- A packet with nothing in it but its kind of stream. -/
def Packet.blank (src dst cls vc kind : Nat) (cid : BitVec 64) : Packet :=
  { src := src, dst := dst, cls := cls, vc := vc, kind := kind, efmt := 0, cid := cid, collid := 0, chunk := 0, rank := 0, route := []
    fan0 := 0, fan1 := 0, key := 0, win := 0, sigbar := 0, void := false, offset := 0, sigblk := 0, nelem := 0, oseq := 0, nsrc := 0
    sent := 0, payload := [] }

/-- What tells a packet from another (R234). -/
def Packet.identity (p : Packet) : List Byte :=
  leBytes 2 p.src ++ leBytes 8 p.cid.toNat ++ leBytes 1 p.kind ++ leBytes 8 p.offset ++ leBytes 4 (if p.cls = 0 then p.oseq else 0)
    ++ leBytes 4 (if p.kind = 5 then p.chunk + 65536 * p.rank else 0)

/-- A FAB_ERR record of a drop (R436): 16 stands for no port. -/
def fabErr (s : State) (ucls unit reason port : Nat) (cid : BitVec 64) : State :=
  emit s ucls unit 0x400 cid (reason + 256 * min port 15)

/-! ### Ports and links (R226) -/

/-- The state of a port's link. -/
def State.link (s : State) (p : Nat) : Link := (s.hub.links.find p).getD ⟨0, [], false, [], [], []⟩
def State.setLink (s : State) (p : Nat) (l : Link) : State := s.modHub fun h => { h with links := h.links.put p l }

/-- The flits of a packet: 64 bytes each, the last padded with zeros. -/
def flitsOf (bs : List Byte) : List (List Byte) := (List.range ((bs.length + 63) / 64)).map fun i => bytesAt bs (64 * i) 64

/-- The channel of a packet on a link: its VC, or CONTROL. -/
def channelOf (bs : List Byte) : Nat := if fieldAt bs 4 1 % 4 = 2 then 4 else fieldAt bs 4 1 / 4 % 4

/-- Free credit of a channel in flits; the first credit is the model's (log entry 30). -/
def Link.credit (l : Link) (ch : Nat) : Nat := (l.free.find ch).getD 4096

/-- The next packet that a link may send: the first of a channel with credit for it, and the retry buffer has room. -/
def Link.sendable (l : Link) : Option (List Byte × Option Nat) :=
  (l.queue.foldl
    (fun (acc : List Nat × Option (List Byte × Option Nat)) x =>
      if acc.2.isSome || acc.1.contains (channelOf x.1) then acc
      else if (flitsOf x.1).length ≤ l.credit (channelOf x.1) ∧ l.retry.length + (flitsOf x.1).length ≤ 512 then (acc.1, some x)
      else (channelOf x.1 :: acc.1, none)) ([], none)).2

/-- Device time as SENT of a packet that goes out for the first time (R228). -/
def stampSent (time : Nat) (bs : List Byte) : List Byte := bytesAt bs 0 68 ++ leBytes 8 time ++ bs.drop 76

/-- Packets that wait on a link go out while they may: their flits enter the retry buffer and use credit; the last transmission of a
replay entry is now, and SENT is the time of the first (R226, R228, R237). -/
def sendQueued (port : Nat) : Nat → State → State
  | 0, s => s
  | fuel + 1, s =>
    let l := s.link port
    match l.sendable with
    | none => s
    | some x =>
      let first := (x.2.bind fun n => s.hub.replay.find n).any fun r => r.tries == 0
      let bs := if first then stampSent s.time x.1 else x.1
      let ch := channelOf bs
      let s := s.setLink port { l with
        retry := l.retry ++ flitsOf bs, free := l.free.put ch (l.credit ch - (flitsOf bs).length), queue := l.queue.erase x }
      sendQueued port fuel (match x.2 with
        | some n => s.modHub fun h => { h with replay := h.replay.update n fun r => { r with bytes := bs, sent := s.time } }
        | none => s)

/-- A packet goes out of a port, once its channel has credit for it. -/
def transmit (s : State) (port : Nat) (bs : List Byte) (entry : Option Nat) : State :=
  let l := s.link port
  sendQueued port (l.queue.length + 1) (s.setLink port { l with queue := l.queue ++ [(bs, entry)] })

/-! ### Replay stores (R226, R233, R237) -/

/-- Bytes a packet takes in a replay store: its flits. -/
def storedSize (bs : List Byte) : Nat := 64 * ((bs.length + 63) / 64)

/-- Bytes of a port's replay store in use. -/
def storeUsed (s : State) (port : Nat) : Nat :=
  s.hub.replay.foldl (fun n kr => if kr.2.port = port then n + storedSize kr.2.bytes else n) 0

/-- The port's replay store of 4 MiB has room. -/
def storeRoom (s : State) (port n : Nat) : Bool := decide (storeUsed s port + n ≤ 4194304)

/-- A packet enters a port's replay store and is transmitted. -/
def enterStore (s : State) (port : Nat) (p : Packet) (cmd : Option Nat) (poison : List Nat) : State :=
  let bs := { p with sent := s.time }.bytes
  let n := s.hub.nextReplay
  let s := s.modHub fun h => { h with replay := h.replay.put n ⟨port, bs, cmd, p.cid, s.time, 0, poison⟩, nextReplay := n + 1 }
  if port < 16 then transmit s port bs (some n) else s

/-! ### Routes (R227) -/

/-- The ports of a device's route-table entry: the fixed port, then the alternates. -/
def routePorts (s : State) (dev : Nat) : List Nat :=
  match s.hub.routes.find dev with
  | some r => r.fixed :: r.alts
  | none => []

/-- The port a packet leaves on: the fixed port for an ORDERED one; for an UNORDERED one whichever has the most free credit on its
channel, the lower port on ties. None where the device has no entry. -/
def choosePort (s : State) (dev cls vc : Nat) : Option Nat :=
  let ps := routePorts s dev
  if cls = 0 then ps.head?
  else
    ps.foldl
      (fun best p =>
        match best with
        | none => some p
        | some q =>
          let x := (s.link p).credit vc
          let y := (s.link q).credit vc
          if y < x ∨ (x = y ∧ p < q) then some p else best) none

/-! ### Streams (R234) -/

/-- The key of a stream: the other device and the channel; the collective packets of a link, which go hop by hop, have the link's (R241;
log entry 32). -/
def streamKey (dev vc : Nat) : Nat := 4 * dev + vc
def linkStream (port : Nat) : Nat := 65536 + port

/-- The next OSEQ to send on a stream, and taking some. -/
def nextOseq (s : State) (dev vc : Nat) : Nat := (s.hub.oseqOut.find (streamKey dev vc)).getD 0
def takeOseq (s : State) (dev vc n : Nat) : State :=
  if n = 0 then s
  else s.modHub fun h => { h with oseqOut := h.oseqOut.put (streamKey dev vc) ((nextOseq s dev vc + n) % 2 ^ 32) }

/-- This device. -/
def State.dev (s : State) : Nat := s.hub.device.toNat

end Sys2Proof.Machine
end

