-- ==== Sys2Proof/Machine/Exa.lean ====
section
/-! DEFINITION. EXA cells (R112–R114) and the matrix dot rule with the element formats it reads (R115–R118). -/

namespace Sys2Proof.Machine

/-- An EXA cell apart from its zero bytes (R112): the 320-bit value, the status bits and the count. -/
structure Exa where
  value  : BitVec 320
  posInf : Bool
  negInf : Bool
  nan    : Bool
  count  : Nat
  deriving DecidableEq, Repr

/-- A cleared cell. -/
def Exa.clear : Exa := ⟨0, false, false, false, 0⟩

/-- The greatest count (R112). -/
def Exa.maxCount : Nat := 4294967295

/-- Read the 64 bytes of a cell as one little-endian number (R112). -/
def Exa.ofNat (n : Nat) : Exa :=
  { value := BitVec.ofNat 320 n
    posInf := n / 2 ^ 320 % 2 == 1
    negInf := n / 2 ^ 321 % 2 == 1
    nan := n / 2 ^ 322 % 2 == 1
    count := n / 2 ^ 352 % 2 ^ 32 }

/-- The status byte (R112). -/
def Exa.status (x : Exa) : Nat := (if x.posInf then 1 else 0) + (if x.negInf then 2 else 0) + (if x.nan then 4 else 0)

/-- The 64 bytes of a cell as one little-endian number; the fields between read back as zero (R112). -/
def Exa.toNat (x : Exa) : Nat := x.value.toNat + x.status * 2 ^ 320 + x.count * 2 ^ 352

/-- Fold a value in (R113). -/
def Exa.fold (x : Exa) (f : Fp) : Exa :=
  let x := { x with count := min (x.count + 1) Exa.maxCount }
  match f with
  | .nan _ => { x with nan := true }
  | .inf n => if n then { x with negInf := true } else { x with posInf := true }
  | .fin n m e => { x with value := x.value + BitVec.ofInt 320 (signedMant n (m * 2 ^ (e + 150).toNat)) }

/-- Combine two cells (R113). -/
def Exa.combine (x y : Exa) : Exa :=
  { value := x.value + y.value, posInf := x.posInf || y.posInf, negInf := x.negInf || y.negInf, nan := x.nan || y.nan
    count := min (x.count + y.count) Exa.maxCount }

/-- A cell converted to FP32 (R114). -/
def Exa.round (mode : Rounding) (x : Exa) : Word × FpFlags :=
  if x.nan || (x.posInf && x.negInf) then (0x7FC00000#32, flagIf (x.posInf && x.negInf) flagInvalid)
  else if x.posInf then (0x7F800000#32, 0#5)
  else if x.negInf then (0xFF800000#32, 0#5)
  else
    let r := FpFmt.f32.roundInt mode false x.value.toInt (-150)
    (BitVec.ofNat 32 r.1, r.2)

/-! ### NPI elements (R115, R116) -/

/-- The integer factor of a code read with `p` planes (R116). -/
def npiFactor (p : Nat) (q : BitVec 8) : Int :=
  Int.fdiv q.toInt (2 ^ (8 - p) : Nat) * (2 ^ (8 - p) : Nat) + (if p < 8 then (2 ^ (7 - p) : Nat) else 0)

/-- The code of element `n` from a tile image's plane bytes, the planes beyond `p` reading as zero (R115). -/
def npiCode (byte : Nat → Byte) (p n : Nat) : BitVec 8 :=
  (List.range p).foldl
    (fun q j => if (byte (1024 + 2048 * j + n / 8)).getLsbD (n % 8) then q ||| (0x80#8 >>> j) else q) 0#8

/-- The BF16 scale of element `n` (R115). -/
def npiScale (byte : Nat → Byte) (n : Nat) : Fp :=
  FpFmt.bf16.read ((byte (2 * (n / 32))).toNat + 256 * (byte (2 * (n / 32) + 1)).toNat)

/-- Scale × integer factor, exactly (R116). -/
def npiValue (scale : Fp) (k : Int) : Option Fp := Fp.mul scale (.fin (decide (k < 0)) k.natAbs 0)

/-! ### The dot rule (R118) -/

/-- A NaN or an invalid product. -/
def badProduct : Option Fp → Bool
  | none => true
  | some f => f.isNan

/-- An infinite product of the given sign. -/
def infProduct (neg : Bool) : Option Fp → Bool
  | some (.inf n) => n == neg
  | _ => false

/-- The leading exponent of a nonzero finite product. -/
def productLead : Option Fp → Option Int
  | some (.fin _ m e) => if m = 0 then none else some (leadExp m e)
  | _ => none

/-- u_p: the product in units of 2^(E − 60), truncated toward zero. -/
def productUnits (top : Int) : Option Fp → Int
  | some (.fin n m e) =>
    let sh := e + 60 - top
    signedMant n (if 0 ≤ sh then m * 2 ^ sh.toNat else m / 2 ^ (-sh).toNat)
  | _ => 0

/-- A zero product of negative sign. -/
def negZeroProduct : Option Fp → Bool
  | some (.fin n m _) => n && m == 0
  | _ => false

/-- The result of the dot rule over the products (R118). -/
def dotResult (ps : List (Option Fp)) : Word :=
  if ps.any badProduct || (ps.any (infProduct false) && ps.any (infProduct true)) then 0x7FC00000#32
  else if ps.any (infProduct false) then 0x7F800000#32
  else if ps.any (infProduct true) then 0xFF800000#32
  else
    match ps.filterMap productLead with
    | [] => if ps.all negZeroProduct then 0x80000000#32 else 0#32
    | l :: ls =>
      let top := ls.foldl max l
      BitVec.ofNat 32 (FpFmt.f32.roundInt .rne false ((ps.map (productUnits top)).foldl (· + ·) 0) (top - 60)).1

/-- The product of two NPI groups of 32 elements (R118). -/
def npiGroup (dot : Int) (sa sw : Fp) : Option Fp :=
  match Fp.mul sa sw with
  | none => none
  | some s =>
    if dot = 0 then
      match sa, sw with
      | .fin _ _ _, .fin _ _ _ => some (.fin false 0 0)
      | _, _ => none
    else npiValue s dot

end Sys2Proof.Machine
end

