-- ==== Sys2Proof/Machine/Global.lean ====
section
/-! DEFINITION. A team's accesses to global memory: the checks in their order (R298, R357, R402), parking and its retry
(R211–R213), and what a performed load, store or atomic does (R141, R146, R153, R299, R300). -/

namespace Sys2Proof.Machine

/-- Go on with a further part of a meaning unless the machine has stopped. -/
def Out.andThen (o : Out) (f : State → Out) : Out :=
  match o with
  | .next s => f s
  | .fault e => .fault e
  | .refused e => .refused e

/-- Log a context's tag on a core; 0 when it has none there. -/
def State.tagOn (s : State) (c ctx : Nat) : Nat := ((s.core c).tagOf ctx).getD 0

/-- The bytes of a size code (R79). -/
def sizeBytes (z : Nat) : Nat := [4, 8, 2, 1].getD z 4

/-! ### Checks -/

/-- What is checked of an access: the permission it needs, its kind in a detail (R434), its size, the watch kinds that
match it, whether any range lock or only a destination stops it (R170), whether an open region does (R268). -/
structure Access where
  perm    : AccessKind
  code    : Nat
  bytes   : Nat
  watch   : Nat
  anyLock : Bool
  guarded : Bool
  deriving DecidableEq, Repr

/-- A load of some bytes (R357). -/
def Access.load (n : Nat) : Access := ⟨.load, 0, n, 1, false, false⟩
/-- A store (R402). -/
def Access.store (n : Nat) : Access := ⟨.store, 1, n, 2, true, false⟩
/-- An `ATOM` (R298): its size, whether it needs only read permission, whether an open region stops it. -/
def Access.atom (n : Nat) (rdx guarded : Bool) : Access := ⟨if rdx then .load else .atomic, 3, n, 3, true, guarded⟩
/-- `LMON` matches a watch of either kind (R216). -/
def Access.monitor : Access := ⟨.load, 0, 4, 3, false, false⟩

/-- What the checks find for one address. -/
inductive Fate where
  /-- a cause, its detail, whether it goes to H, and whether the translation found a shared page before it (R263) -/
  | trap (cause : Nat) (detail : Nat) (inH sh : Bool)
  /-- the walk that the access waited for ended so (R212, R263) -/
  | walkFault (cause : Nat) (detail : Nat) (inH : Bool)
  /-- no translation is held -/
  | park
  /-- performed at a physical address, under a page attribute, on a shared page or not -/
  | go (pa attr : Nat) (sh : Bool)
  /-- the tables give an address the machine has not got -/
  | absent (pa : Nat)
  deriving DecidableEq, Repr

/-- The lowest watch that matches (R216, R217). -/
def watchHit (s : State) (c ctx va bytes kinds : Nat) : Option Nat :=
  (List.range 4).find? fun w =>
    match (s.core c).watches.find w with
    | none => false
    | some x =>
      let base := x.base.toNat % 2 ^ 56
      x.len != 0#32 && x.asid == (s.context ctx).xasid && x.kind.toNat &&& kinds != 0
        && decide (va < base + x.len.toNat ∧ base < va + bytes)

/-- The lowest range-lock entry that overlaps an access in granules of 128 bytes (R170). -/
def lockHit (s : State) (c tag : Nat) (isLocal : Bool) (home addr bytes : Nat) (anyLock : Bool) : Option Nat :=
  ((s.core c).locks.find? fun kl =>
    let l := kl.2
    (anyLock || l.dst) && l.isLocal == isLocal && (!isLocal || l.home == home) && l.ctx == tag
      && decide (addr / 128 < l.base / 128 + l.len ∧ l.base / 128 ≤ (addr + bytes - 1) / 128)).map (·.1)

/-- A parked store of the team overlaps a load in 32-byte chunks (R146). -/
def Team.behindStore (t : Team) (va bytes : Nat) : Bool :=
  t.parked.any fun p =>
    (p.word / 2 ^ 25 % 64 == 7 || p.word / 2 ^ 25 % 64 == 0x21)
      && p.pending.any fun x => decide (x.2.1 / 32 ≤ (va + bytes - 1) / 32 ∧ va / 32 ≤ x.2.1 / 32)

/-- Translation and the checks that follow it (R298, R357, R402). With `now` a walk is made at once. -/
def resolve (s : State) (k : Nat) (t : Team) (mode : Mode) (a : Access) (now : Bool) (va : Nat) : State × Fate :=
  let c := coreOfTeam k
  let ctx := s.ctxOf t
  let held := translate s c ctx va mode a.perm
  let walks := now && held == .miss
  let (s, x) : State × Xlate :=
    if walks then
      let r := translateNow s c ctx va mode a.perm
      match r.2 with
      | .error f => (r.1, .fault f)
      | .ok (pa, attr) => (r.1, .hit pa attr (((lookupTlb r.1 c ctx va).map (·.sh)).getD false))
    else (s, held)
  match x with
  | .miss => (s, .park)
  | .fault (.absent pa) => (s, .absent pa)
  | .fault (.cause code st2) =>
    let d := a.code + if st2 then 4 else 0
    (s, if walks then .walkFault code d st2 else .trap code d st2 false)
  | .hit pa attr sh =>
    let allowed := match whereIs pa with
      | .aperture core off => apertureAllows s mode core off a.perm.writes
      | _ => true
    if whereIs pa = .absent then (s, .absent pa)
    else if !allowed then (s, .trap 7 a.code false sh)
    else
      match lockHit s c (s.tagOn c ctx) false c pa a.bytes a.anyLock with
      | some i => (s, .trap 9 i false sh)
      | none =>
        if a.guarded && !s.deterministic t && regionOpen s (pa / 4096) then (s, .trap 15 0 false sh) else (s, .go pa attr sh)

/-- Every check of one address, in order. -/
def checkAccess (s : State) (k : Nat) (t : Team) (a : Access) (now : Bool) (va : Nat) : State × Fate :=
  if 2 ^ 56 ≤ va then (s, .trap 6 a.code false false)
  else if va % a.bytes ≠ 0 then (s, .trap 8 a.bytes false false)
  else
    match watchHit s (coreOfTeam k) (s.ctxOf t) va a.bytes a.watch with
    | some w => (s, .trap 22 w false false)
    | none => if a.code = 0 && t.behindStore va a.bytes then (s, .park) else resolve s k t t.mode a now va

/-- The checks of lanes in ascending order. An access to a DEVICE page parks behind a parked one, so that the team's accesses
to DEVICE pages stay in order (R141). -/
def checkLanes (s : State) (k : Nat) (t : Team) (a : Access) (now : Bool) (reqs : List (Nat × Nat)) :
    State × List (Nat × Nat × Fate) :=
  (reqs.foldl
    (fun (acc : State × List (Nat × Nat × Fate) × Bool) r =>
      let x := checkAccess acc.1 k t a now r.2
      let f := match x.2 with
        | .go pa attr sh => if attr = 3 && acc.2.2 then Fate.park else .go pa attr sh
        | f => f
      (x.1, acc.2.1 ++ [(r.1, r.2, f)], acc.2.2 || f == .park))
    (s, [], !t.parked.isEmpty)) |> fun x => (x.1, x.2.1)

/-- The first address among some fates that the machine has not got. -/
def absentAmong (fs : List (Nat × Nat × Fate)) : Option Nat :=
  fs.findSome? fun f => match f.2.2 with
    | .absent pa => some pa
    | _ => none

/-- The lanes that are performed at once: lane, physical address, attribute. -/
def goAmong (fs : List (Nat × Nat × Fate)) : List (Nat × Nat × Nat) :=
  fs.filterMap fun f => match f.2.2 with
    | .go pa attr _ => some (f.1, pa, attr)
    | _ => none

/-- Lanes and addresses that park. -/
def parkAmong (fs : List (Nat × Nat × Fate)) : List (Nat × Nat) :=
  fs.filterMap fun f => match f.2.2 with
    | .park => some (f.1, f.2.1)
    | _ => none

/-- Lanes whose walk has faulted, as the operand log lists them. -/
def walkFaults (fs : List (Nat × Nat × Fate)) : List (Nat × Nat × Nat × Word × Bool) :=
  fs.filterMap fun f => match f.2.2 with
    | .walkFault c d h => some (f.1, f.2.1, c, BitVec.ofNat 32 d, h)
    | _ => none

/-- Some lane that translated, one that trapped after it among them, reaches a shared page (R263). -/
def sharedAmong (fs : List (Nat × Nat × Fate)) : Bool :=
  fs.any fun f => match f.2.2 with
    | .go _ _ sh => sh
    | .trap _ _ _ sh => sh
    | _ => false

/-- Record the traps that the checks found, lane by lane. -/
def Team.raiseFates (t : Team) (fs : List (Nat × Nat × Fate)) : Team :=
  fs.foldl
    (fun t f => match f.2.2 with
      | .trap c d h _ => t.raise (bitMask f.1) c (BitVec.ofNat 32 d) f.2.1 h 0
      | _ => t)
    t

/-! ### Performing -/

/-- The bytes a team reads at a physical address, and whether any is poisoned (R147). -/
def readAt (s : State) (c ctx pa n : Nat) (l1 : Bool) : List Byte × Bool :=
  match whereIs pa with
  | .aperture core off =>
    let bs := (List.range n).map fun i => (apertureSeen s core (off + i)).getD (0#8, false)
    (bs.map (·.1), bs.any (·.2))
  | _ => viewBytes s c ctx l1 pa n

/-- A load's sector comes where its policy and its page's attribute have it held (R141): into L2 unless L1 serves it, and into L1. -/
def cacheLoad (s : State) (c pol pa attr : Nat) : State :=
  if whereIs pa ≠ .hbm then s
  else
    let s := if ((s.core c).l1.find (sectorOf pa)).isSome then s else s.modHome fun h => h.bring (sectorOf pa) (retention attr pol) false
    if attr = 0 ∧ (pol = 0 ∨ pol = 2) then fillL1 s c pa (pol == 2) else s

/-- Loads performed under a cache policy: for each lane its value and poison (R141). -/
def performLoads (s : State) (c ctx n pol : Nat) (ls : List (Nat × Nat × Nat)) : State × List (Nat × Nat × Bool) :=
  let vals := ls.map fun l => (l.1, leNat (readAt s c ctx l.2.1 n true).1, (readAt s c ctx l.2.1 n true).2)
  let s := ls.foldl (fun s l => cacheLoad s c pol l.2.1 l.2.2) s
  -- a line that gave poison is invalidated (R271)
  let bad := (ls.zip vals).filter fun x => x.2.2.2 && whereIs x.1.2.1 == .hbm
  (bad.foldl (fun s x => dropLine s c (sectorOf x.1.2.1)) s, vals)

/-- The register elements a loaded value goes to: one word, or the pair (R4, R358). -/
def loadedElements (mode : Mode) (d n : Nat) (vals : List (Nat × Nat × Bool)) : List (Nat × Word × Bool) :=
  vals.map (fun v => (vKey mode d v.1, BitVec.ofNat 32 v.2.1, v.2.2))
    ++ (if n = 8 then vals.map fun v => (vKey mode (d + 1) v.1, BitVec.ofNat 32 (v.2.1 / 2 ^ 32), v.2.2) else [])

/-- The scalars a loaded value goes to; `s0` discards it. -/
def loadedScalars (mode : Mode) (d n v : Nat) (pois : Bool) : List (Nat × Word × Bool) :=
  (if d = 0 then [] else [(sKey mode d, BitVec.ofNat 32 v, pois)])
    ++ (if n = 8 then [(sKey mode (d + 1), BitVec.ofNat 32 (v / 2 ^ 32), pois)] else [])

/-- Stores of one pass: aperture bytes are written, the others append (R143, R146). The lanes left without log room come
back (R158). -/
def storePass (k tag reserve : Nat) (rgn : Bool) (s : State) (ls : List (Nat × Nat × List Byte × Nat)) : State × List Nat :=
  let c := coreOfTeam k
  let s := ls.foldl
    (fun s l => match whereIs l.2.1 with
      | .aperture core off => apertureStore s core off l.2.2.1
      | _ => s) s
  let logged := ls.filter fun l => whereIs l.2.1 == .hbm
  let pieces := logged.foldl (fun ps l => mergeBytes l.2.1 l.2.2.1 false l.2.2.2 ps) []
  let r := appendPieces s c tag reserve ⟨ctxOfTeam k, none, rgn, none⟩ pieces
  (r.1, (logged.filter fun l => r.2.any fun p => p.chunk == chunkOf l.2.1).map (·.1))

/-- The stores of some lanes, pass by pass (R41): lane, physical address, bytes, how L2 holds the sector (R141). -/
def performStores (s : State) (k : Nat) (t : Team) (mode : Mode) (ls : List (Nat × Nat × List Byte × Nat)) : State × List Nat :=
  let tag := s.tagOn (coreOfTeam k) (s.ctxOf t)
  let reserve := if mode = .u then overflowReserve else 0
  (List.range t.words).foldl
    (fun acc w =>
      let here := ls.filter fun l => l.1 / 32 == w
      if here.isEmpty then acc
      else
        let r := storePass k tag reserve t.region.isSome acc.1 here
        (r.1, acc.2 ++ r.2))
    (s, [])

/-- The pending lanes of a parked access that no fault has struck. -/
def Parked.openLanes (p : Parked) : List (Nat × Nat × List Word) :=
  p.pending.filter fun x => !p.faulted.any fun f => f.1 == x.1

/-! ### Releases and acquires of a team (R148–R150, R154) -/

/-- An access of the team is parked, and neither faulted nor listed in a frame: a release waits for it (R148). -/
def Team.awaitsAccess (t : Team) : Bool :=
  t.parked.any fun p => !p.framed && !p.openLanes.isEmpty

/-- A release at a scope up to TAIL; at CLUSTER or wider it advances an open region (R155, R161). Its stamp comes back. -/
def release (s : State) (k scope : Nat) : State × Nat :=
  if scope < 2 then (s, 0)
  else
    let r := releaseTeam s k scope
    (r.1.modTeam k fun t => t.modRun fun r => { r with advances := true }, r.2)

/-- The scope of a narrow record of a context on a core covers a core and a context (R142): TEAM, its team alone. -/
def scopeCovers (scope core num c num' : Nat) : Bool :=
  match scope with
  | 0 => false
  | 1 => core == c && num == num'
  | 2 => clusterOf core == clusterOf c && num == num'
  | _ => true

/-- The bound a sector's sync tag gives an acquire at a scope by context `num` on core `c`, after promotion (R150, R154). -/
def tagBound (s : State) (c num scope sector : Nat) : State × Nat :=
  let g := s.home.syncTag sector
  if scopeCovers g.scope g.core g.num c num then (s, g.stamp)
  else
    let p := promote s g.core g.num g.mark scope (recordPublisher s g.team)
    (p.1, max g.stamp (p.2.getD 0))

/-- The acquire part of an `ATOM` over the sectors it touched (R150, R300). -/
def acquireSectors (s : State) (c num scope : Nat) (sectors : List Nat) : State :=
  if scope < 2 then s
  else
    let r := sectors.foldl
      (fun (acc : State × Nat) x =>
        let y := tagBound acc.1 c num scope x
        (y.1, max acc.2 y.2)) (s, 0)
    acquire r.1 c scope r.2

/-- The sync-tag update of an `ATOM` with a release (R153). The stamp of a release that promotion makes joins STAMP, which so stays the
greatest written into the chain. -/
def updateTag (k scope stamp mark : Nat) (s : State) (sector : Nat) : State :=
  let c := coreOfTeam k
  let num := ((s.team k).map s.ctxOf).getD 0
  let g := s.home.syncTag sector
  let p := if g.scope ≠ 7 ∧ ¬ (g.core = c ∧ g.num = num) then promote s g.core g.num g.mark 3 (recordPublisher s g.team) else (s, none)
  let top := max (max g.stamp stamp) (p.2.getD 0)
  let team := (s.team k).bind fun t =>
    if s.deterministic t then (s.blockOf t).map fun b => (b.launch, 32 * b.index + t.number) else none
  let g' : SyncTag := if 3 ≤ scope then { g with stamp := top, scope := 7 } else ⟨top, c, s.tagFor k, scope, mark, num, team⟩
  p.1.modHome fun h => { h with sync := h.sync.put sector g' }

/-! ### The operation of an `ATOM` -/

/-- Bytes an op reads (R299). -/
def atomBytes (op : Nat) : Nat := if op = 1 ∨ op = 14 then 8 else if op = 3 ∨ op = 4 ∨ op = 15 then 64 else 4

/-- What an op makes of the old bytes and the operands: the new bytes, `vd`, `vd + 1`, flags (R299). -/
def atomResult (op : Nat) (m : Nat) (a b : Word) : Nat × Word × Word × FpFlags :=
  let w := BitVec.ofNat 32 m
  let q := BitVec.ofNat 64 m
  let pair := pair64 a b
  let one := fun (x : Word) => (x.toNat, w, 0#32, (0#5 : FpFlags))
  let two := fun (x : BitVec 64) => (x.toNat, w, BitVec.ofNat 32 (m / 2 ^ 32), (0#5 : FpFlags))
  let cell := Exa.ofNat m
  let rounded := cell.round .rne
  match op with
  | 0 => one (w + a)
  | 1 => two (q + pair)
  | 2 => let r := f32Add .rne w a; (r.1.toNat, w, 0#32, r.2)
  | 3 => ((cell.fold (FpFmt.f32.read a.toNat)).toNat, BitVec.ofNat 32 cell.count, 0#32, 0#5)
  | 4 => (m, rounded.1, 0#32, rounded.2)
  | 5 => one (if w.slt a then w else a)
  | 6 => one (if w.slt a then a else w)
  | 7 => one (if w.ult a then w else a)
  | 8 => one (if w.ult a then a else w)
  | 9 => one (w &&& a)
  | 10 => one (w ||| a)
  | 11 => one (w ^^^ a)
  | 12 => one a
  | 13 => if w = a then (b.toNat, w, 1#32, 0#5) else (m, w, 0#32, 0#5)
  | 14 => two (if q.ult pair then pair else q)
  | _ => (0, rounded.1, 0#32, rounded.2)

/-- `vd` of an op takes a pair. -/
def atomPair (op : Nat) : Bool := op == 1 || op == 13 || op == 14

/-- The unfolded-entry step of R153: entries of the team's context that cover the chunks are released and folded. -/
def foldCovered (s : State) (k : Nat) (t : Team) (scope pa n : Nat) : State :=
  let c := coreOfTeam k
  let ctx := s.ctxOf t
  let tag := s.tagOn c ctx
  let covers := fun (e : LogEntry) => e.ctx == tag && decide (chunkOf pa ≤ e.chunk ∧ e.chunk ≤ chunkOf (pa + n - 1))
  let at' := (s.core c).log.filter covers
  if at'.isEmpty then s
  else
    -- the hub releases those of a detached log (R154)
    let p := publisherOf s k
    let p := if at'.any (·.det.isSome) then { p with own := fun e => e.det.isSome || p.own e } else p
    foldSome (publish s c tag ((s.core c).tail tag) (max scope 2) p).1 c fun e => e.ctx == tag

/-- One lane's operation as one home-slice write (R152, R300): the values for its registers, its flags, poison. -/
def atomAt (s : State) (k : Nat) (t : Team) (op scope pa : Nat) (a b : Word) : State × Word × Word × FpFlags × Bool :=
  let n := atomBytes op
  match whereIs pa with
  | .aperture core off =>
    let bs := (List.range n).map fun i => (apertureSeen s core (off + i)).getD (0#8, false)
    let r := atomResult op (leNat (bs.map (·.1))) a b
    let pois := bs.any (·.2)
    (if op = 4 then s else if pois && op != 15 then apertureWrite s core off (leBytes n r.1) true else apertureStore s core off (leBytes n r.1), r.2.1, r.2.2.1, r.2.2.2, pois)
  | _ =>
    let s := settleSector (foldCovered s k t scope pa n) (sectorOf pa)
    let c := coreOfTeam k
    let core := s.core c
    let s := if core.l1.isEmpty then s else s.setCore c { core with l1 := core.l1.drop (sectorOf pa) }
    let chunks := (List.range (chunkOf (pa + n - 1) + 1 - chunkOf pa)).map (chunkOf pa + ·)
    let pois := chunks.any fun g => Sparse.get false s.home.poison g
    let r := atomResult op (homeNat s pa n) a b
    let new := leBytes n r.1
    let s :=
      if op = 4 then wakeMonitors s (sectorOf pa)
      else chunks.foldl
        (fun s g =>
          let lo := max pa (32 * g)
          let hi := min (pa + n) (32 * g + 32)
          homeWrite s lo (bytesAt new (lo - pa) (hi - lo)) (Sparse.get false s.home.poison g && op != 15)) s
    (s, r.2.1, r.2.2.1, r.2.2.2, pois)

/-- What an `ATOM` has gathered from the lanes performed. -/
structure AtomDone where
  elems   : List (Nat × Word × Bool)
  fflags  : FpFlags
  sectors : List Nat
  /-- the lowest lane that raised invalid (R109) -/
  invalid : Option Nat

/-- Perform some lanes of an `ATOM` in ascending order: lane, physical address, operands (R300). -/
def performAtoms (s : State) (k : Nat) (t : Team) (mode : Mode) (d op scope : Nat) (ls : List (Nat × Nat × Word × Word)) :
    State × AtomDone :=
  ls.foldl
    (fun acc l =>
      let r := atomAt acc.1 k t op scope l.2.1 l.2.2.1 l.2.2.2
      let sec := sectorOf l.2.1
      let pois := r.2.2.2.2
      (r.1,
        { elems := acc.2.elems ++ [(vKey mode d l.1, r.2.1, pois)]
            ++ (if atomPair op then [(vKey mode (d + 1) l.1, r.2.2.1, pois)] else [])
          fflags := acc.2.fflags ||| if pois then 0#5 else r.2.2.2.1
          sectors := if acc.2.sectors.contains sec then acc.2.sectors else acc.2.sectors ++ [sec]
          invalid := if acc.2.invalid.isNone && !pois && r.2.2.2.1.getLsbD 0 then some l.1 else acc.2.invalid }))
    (s, ⟨[], 0#5, [], none⟩)

/-- What ends an `ATOM`: the sync-tag updates and the acquire (R300). -/
def finishAtom (s : State) (k sem scope stamp mark : Nat) (sectors : List Nat) : State :=
  let s := if sem / 2 = 1 then sectors.foldl (updateTag k scope stamp mark) s else s
  if sem % 2 = 1 && !sectors.isEmpty then acquireSectors s (coreOfTeam k) (((s.team k).map s.ctxOf).getD 0) scope sectors else s

/-- The release part of an `ATOM`: stamp and mark (R153). -/
def startAtom (s : State) (k sem scope : Nat) : State × Nat × Nat :=
  if sem / 2 = 1 then
    let mark := (s.core (coreOfTeam k)).tail (s.tagFor k)
    if scope < 2 then (s, (s.core (coreOfTeam k)).counter, mark)
    else
      let r := releaseTeam s k scope
      (r.1, r.2, mark)
  else (s, 0, 0)

/-! ### The monitor (R362, R414) -/

/-- The word a monitored read returns, and its poison: an unfolded entry's bytes, else the home slice's; the sector leaves the
core's L1 (R362). -/
def monitorRead (s : State) (k : Nat) (t : Team) (pa : Nat) : State × Word × Bool :=
  let c := coreOfTeam k
  let core := s.core c
  let s := if core.l1.isEmpty then s else s.setCore c { core with l1 := core.l1.drop (sectorOf pa) }
  let r := readAt s c (s.ctxOf t) pa 4 false
  (s, BitVec.ofNat 32 (leNat r.1), r.2)

/-- Arm the monitor on a sector (R362, R254). -/
def Team.arm (t : Team) (sector now : Nat) : Team := { t with monitor := ⟨true, false, sector, now, 0, false⟩ }

/-! ### Parking -/

/-- An operation that is not counted and holds its run (R211, R362). -/
def Team.startUncounted (t : Team) : Team × Nat :=
  let o : Op :=
    { num := t.nextOp, classA := true, flag := none, depth := t.depth, vDest := [], sDest := [], fflags := 0, dirty := []
      waits := true, till := none, index := (t.run.map (·.itemIdx)).getD 0, pc := t.itemAddr, past := false, area := none }
  ({ t with ops := t.ops ++ [o], nextOp := t.nextOp + 1 }, o.num)

/-- The lowest free entry of the operand log (R211). -/
def Team.freeSlot (t : Team) : Nat := ((List.range 8).find? fun i => !t.parked.any fun p => p.slot == i).getD 0

/-- Put an access into the operand log (R211): captured lanes, addresses and operands. -/
def Team.parkAs (t : Team) (op : Nat) (pending : List (Nat × Nat × List Word)) (faulted : List (Nat × Nat × Nat × Word × Bool))
    (forRoom : Bool) : Team :=
  let flag := (t.ops.find? fun o => o.num == op).bind (·.flag)
  let p : Parked :=
    { word := t.itemWord.toNat, status := (faulted.head?.map (·.2.2.1)).getD 0, slot := t.freeSlot, flag := flag, depth := t.depth, pc := t.itemAddr
      lclk := t.lclk, index := (t.run.map (·.itemIdx)).getD 0, op := op, pending := pending, faulted := faulted
      forRoom := forRoom, framed := false, mode := t.mode, sectors := [], stamp := 0, mark := 0, again := false, turn := false }
  { t with parked := t.parked ++ [p] }

/-- The run holds until an operation completes (R66). -/
def Team.holdOn (t : Team) (op : Nat) : Team := t.modRun fun r => { r with hold := some (.onOp op) }

/-- The operand log is full (R211). -/
def Team.logFull (t : Team) : Bool := decide (8 ≤ t.parked.length)

/-! ### Retrying parked accesses (R212, R213) -/

/-- What a parked word does when it is performed. -/
inductive ParkedKind where
  | load (d n pol : Nat)
  | loadS (d n : Nat)
  | store (n pol : Nat)
  | storeS (n : Nat)
  | atom (d op sem scope : Nat)
  | monitor (d : Nat)
  deriving DecidableEq, Repr

/-- The kind of a parked word. -/
def parkedKind (w : Nat) : Option ParkedKind :=
  match decodeWord (w % 2147483648) with
  | .ok (.ldVector _ d _ _ z p) => some (.load d.toNat (sizeBytes z.toNat) p.toNat)
  | .ok (.ldScalar _ d _ z _) => some (.loadS d.toNat (sizeBytes z.toNat))
  | .ok (.stVector _ _ _ _ z p) => some (.store (sizeBytes z.toNat) p.toNat)
  | .ok (.stScalar _ _ _ z _) => some (.storeS (sizeBytes z.toNat))
  | .ok (.atom _ d _ o e sc) => some (.atom d.toNat o.toNat e.toNat sc.toNat)
  | .ok (.lmon _ _ sb) => some (.monitor sb.toNat)
  | _ => none

/-- The ops that an open region guards (R268). -/
def guardedOp (op : Nat) : Bool := op == 2 || op == 3 || op == 15

/-- The checks of a parked kind. -/
def ParkedKind.access : ParkedKind → Access
  | .load _ n _ => Access.load n
  | .loadS _ n => Access.load n
  | .store n _ => Access.store n
  | .storeS n => Access.store n
  | .atom _ op _ _ => Access.atom (atomBytes op) (op == 4) (guardedOp op)
  | .monitor _ => Access.monitor

/-- The kind acts once for the team (R356). -/
def ParkedKind.once : ParkedKind → Bool
  | .loadS _ _ => true
  | .storeS _ => true
  | .monitor _ => true
  | _ => false

/-- The bytes of a captured store. -/
def storedBytes (n : Nat) (ws : List Word) : List Byte :=
  leBytes n ((ws.getD 0 0#32).toNat + if n = 8 then (ws.getD 1 0#32).toNat * 2 ^ 32 else 0)

/-- Change an operation. -/
def Team.modOp (t : Team) (num : Nat) (f : Op → Op) : Team :=
  { t with ops := t.ops.map fun o => if o.num = num then f o else o }

/-- Change a parked access. -/
def Team.modParked (t : Team) (op : Nat) (f : Parked → Parked) : Team :=
  { t with parked := t.parked.map fun p => if p.op = op then f p else p }

/-- Lanes of a parked access fault: the run it held is released with those lanes held (R212). -/
def Team.faultParked (t : Team) (p : Parked) (fs : List (Nat × Nat × Nat × Word × Bool)) : Team :=
  if fs.isEmpty then t
  else
    let t := t.modParked p.op fun p => { p with faulted := p.faulted ++ fs, status := (fs.head?.map (·.2.2.1)).getD p.status }
    match t.run with
    | none => t
    | some r =>
      if r.hold = some (.onOp p.op) then
        { t with run := some { r with
            hold := none
            traps := r.traps ++ fs.map fun f => ⟨bitMask f.1, f.2.2.1, f.2.2.2.1, f.2.1, p.index, false, true, f.2.2.2.2, 0⟩ } }
      else t

/-- The stage of a retry at which a parked access has performed some lanes; it leaves the log when none is pending (R211). -/
def closeParked (s : State) (k op : Nat) : State :=
  match s.team k with
  | none => s
  | some t =>
    match t.parked.find? fun p => p.op == op with
    | none => s
    | some p =>
      if p.pending.isEmpty then s.setTeam k ({ t with parked := t.parked.filter fun p => p.op != op }.finishOp s.tick op) else s

/-- The checks of a parked access's open lanes. With `page`, walks for that 64 KiB page end now; other misses stay pending.
Earlier accesses of the log hold back an access to a DEVICE page and a load behind a store (R141, R146). -/
def parkedFates (s : State) (k : Nat) (t : Team) (p : Parked) (kind : ParkedKind) (page : Option Nat) :
    State × List (Nat × Nat × Fate) :=
  let a := kind.access
  let earlier := { t with parked := t.parked.takeWhile fun q => q.op != p.op }
  (if kind.once then p.openLanes.take 1 else p.openLanes).foldl
    (fun (acc : State × List (Nat × Nat × Fate)) (x : Nat × Nat × List Word) =>
      let f := if a.code = 0 && earlier.behindStore x.2.1 a.bytes then (acc.1, Fate.park)
        else resolve acc.1 k t p.mode a (page == some (x.2.1 / 65536)) x.2.1
      let f' := match f.2 with
        | .go pa attr sh => if attr = 3 && !earlier.parked.isEmpty then Fate.park else .go pa attr sh
        | y => y
      (f.1, acc.2 ++ [(x.1, x.2.1, f')])) (s, [])

/-- Lanes of a parked access have been performed, but for those `left`. -/
def Team.clearParked (t : Team) (op : Nat) (done left : List Nat) : Team :=
  t.modParked op fun p => { p with pending := p.pending.filter fun x => !(done.contains x.1) || left.contains x.1 }

/-- The captured operands and address of a lane. -/
def Parked.operands (p : Parked) (l : Nat) : List Word := ((p.pending.find? fun x => x.1 == l).map (·.2.2)).getD []
def Parked.address (p : Parked) (l : Nat) : Nat := ((p.pending.find? fun x => x.1 == l).map (·.2.1)).getD 0

/-- Perform lanes `go` of a parked access, which stand for the lanes `done` of it (R211, R213, R300). -/
def performParked (s : State) (k : Nat) (t : Team) (p : Parked) (kind : ParkedKind) (go : List (Nat × Nat × Nat))
    (done rest : List Nat) : State :=
  let c := coreOfTeam k
  let ctx := s.ctxOf t
  match kind with
  | .load d n pol =>
    let v := performLoads s c ctx n pol go
    v.1.modTeam k fun t =>
      (t.modOp p.op fun o => { o with vDest := o.vDest ++ loadedElements p.mode d n v.2 }).clearParked p.op done []
  | .loadS d n =>
    let v := performLoads s c ctx n 0 go
    v.1.modTeam k fun t =>
      (t.modOp p.op fun o =>
        { o with sDest := o.sDest ++ v.2.flatMap fun x => loadedScalars p.mode d n x.2.1 x.2.2 }).clearParked p.op done []
  | .store n pol =>
    let v := performStores s k t p.mode (go.map fun g => (g.1, g.2.1, storedBytes n (p.operands g.1), retention g.2.2 pol))
    v.1.modTeam k fun t =>
      (t.clearParked p.op done v.2).faultParked p (v.2.map fun l => (l, p.address l, 11, 0#32, false))
  | .storeS n =>
    let v := performStores s k t p.mode ((go.take 1).map fun g => (g.1, g.2.1, storedBytes n (p.operands g.1), retention g.2.2 0))
    v.1.modTeam k fun t =>
      if v.2.isEmpty then t.clearParked p.op done []
      else t.faultParked p (done.map fun l => (l, p.address l, 11, 0#32, false))
  | .atom d op sem scope =>
    let st := if p.again && !go.isEmpty then startAtom s k sem scope else (s, p.stamp, p.mark)
    let v := performAtoms st.1 k t p.mode d op scope
      (go.map fun g => (g.1, g.2.1, (p.operands g.1).getD 0 0#32, (p.operands g.1).getD 1 0#32))
    let s := (noteInvalidAt v.1 k v.2.invalid p.pc).modTeam k fun t =>
      (t.modOp p.op fun o => { o with vDest := o.vDest ++ v.2.elems, fflags := o.fflags ||| v.2.fflags }).clearParked p.op done []
    let secs := p.sectors ++ v.2.sectors.filter fun x => !p.sectors.contains x
    let s := s.modTeam k fun t => t.modParked p.op fun p => { p with sectors := if p.again then [] else secs }
    if p.again then (if go.isEmpty then s else finishAtom s k sem scope st.2.1 st.2.2 v.2.sectors)
    else if rest.isEmpty && !p.openLanes.isEmpty then finishAtom s k sem scope p.stamp p.mark secs
    else s
  | .monitor d =>
    (go.take 1).foldl
      (fun s g =>
        let m := monitorRead s k t g.2.1
        m.1.modTeam k fun t =>
          ((if m.2.2 then t else t.arm (sectorOf g.2.1) s.time).modOp p.op fun o =>
            { o with sDest := loadedScalars p.mode d 4 m.2.1.toNat m.2.2 }).clearParked p.op done []) s

/-- The kind is gated in a deterministic launch (R263). -/
def ParkedKind.gatedKind (k : ParkedKind) (shared : Bool) : Bool :=
  match k with
  | .atom _ _ _ _ => true
  | .store _ _ => shared
  | .storeS _ => shared
  | _ => false

/-- The kind stores (R402). -/
def ParkedKind.stores : ParkedKind → Bool
  | .store _ _ => true
  | .storeS _ => true
  | _ => false

/-- The turn of a parked access's instruction ends when none of its lanes is left to perform (R263): a store is published then. -/
def endTurn (s : State) (k op : Nat) (stores : Bool) : State :=
  match (s.team k).bind fun t => (t.parked.find? fun p => p.op == op).map fun p => (t, p) with
  | none => s
  | some (t, p) =>
    if !p.turn || !p.openLanes.isEmpty then s
    else
      let s := if stores then (release s k 3).1 else s
      (s.modLaunch ((s.launchNo t).getD 0) fun l => { l with ladle := none }).modTeam k fun t =>
        t.modParked op fun p => { p with turn := false }

/-- Try the pending lanes of one parked access again. In a deterministic launch each lane that a `RETT` issued again takes a turn of its
own (R263). -/
def retryOne (s : State) (k : Nat) (page : Option Nat) (p : Parked) : Out :=
  match s.team k, parkedKind p.word with
  | some t, some kind =>
    let r := parkedFates s k t p kind page
    let s := r.1
    match absentAmong r.2 with
    | some pa => .fault (.noSuchAddress pa)
    | none =>
      let lanes := fun (l : Nat) => if kind.once then p.openLanes.map (·.1) else [l]
      let faults : List (Nat × Nat × Nat × Word × Bool) := r.2.flatMap fun f => match f.2.2 with
        | .trap c d h _ => (lanes f.1).map fun l => (l, f.2.1, c, BitVec.ofNat 32 d, h)
        | .walkFault c d h => (lanes f.1).map fun l => (l, f.2.1, c, BitVec.ofNat 32 d, h)
        | _ => []
      let ready := goAmong r.2
      let turn := s.deterministic t && p.again && !ready.isEmpty && kind.gatedKind (sharedAmong r.2)
      let go := if turn then ready.take 1 else ready
      let done := go.flatMap fun g => lanes g.1
      let rest := (p.openLanes.map (·.1)).filter fun l => !(done.contains l) && !faults.any fun f => f.1 == l
      let n := (s.launchNo t).getD 0
      if turn && (((s.launch n).bind (·.ladle)) != some k || t.parked.any (·.turn)) then
        .next (s.modTeam k fun t => { t.faultParked p faults with wants := true })
      else
        let s := if turn then
            (s.modLaunch n fun l => { l with ladle := none }).modTeam k fun t => { t with wants := decide (1 < ready.length) && !kind.once }
          else s
        let s := performParked s k t p kind go done rest
        let s := if turn && kind.stores then (releaseTeam s k 3).1 else s
        .next (closeParked (endTurn (s.modTeam k fun t => t.faultParked p faults) k p.op kind.stores) k p.op)
  | _, _ => .next s

/-- Try every parked access of a team again, in the order of its operand log; a run that waited for nothing more goes on or
ends, and a trap due is taken (R211, R212). -/
def retryParked (s : State) (k : Nat) (page : Option Nat) : Out :=
  match s.team k with
  | none => .next s
  | some t =>
    let ops := (t.parked.filter fun p => !p.framed).map (·.op)
    let o := ops.foldl
      (fun (o : Out) op => o.andThen fun s =>
        match (s.team k).bind fun t => t.parked.find? fun p => p.op == op with
        | some p => retryOne s k page p
        | none => .next s)
      (.next s)
    o.andThen fun s => .next (tryEnter (settleConsumption s k) k)

end Sys2Proof.Machine
end

