-- ==== Sys2Proof/Machine/Tile.lean ====
section
/-! DEFINITION. Local addresses (R129) and tiles: descriptors, states, element places (R133–R136). -/

namespace Sys2Proof.Machine

/-- The byte a local address of a block names: a core and a scratchpad offset; nothing outside its allocation, its cluster
windows and below the carve-out (R129, R132). -/
def localPlace (s : State) (b : Block) (a : Nat) : Option (Nat × Nat) :=
  let inside := fun (x : Block) (o : Nat) =>
    if o < x.size ∧ x.base + o < (s.core x.core).carveFrom then some (x.core, x.base + o) else none
  if a < b.size then inside b a
  else if 0x4000000 ≤ a ∧ a < 0x8000000 ∧ b.grouped then
    let core := 4 * (b.core / 4) + (a - 0x4000000) / 0x1000000
    match (s.blocksOfCore core).find? fun kb => kb.2.launch == b.launch && kb.2.grouped && kb.2.index / 4 == b.index / 4 with
    | some kb => inside kb.2 ((a - 0x4000000) % 0x1000000)
    | none => none
  else none

/-- A local range lies wholly in one allocation: where it starts (R129). -/
def localRange (s : State) (b : Block) (a n : Nat) : Option (Nat × Nat) :=
  match localPlace s b a, localPlace s b (a + n - 1) with
  | some x, some y => if x.1 = y.1 ∧ y.2 = x.2 + n - 1 then some x else none
  | _, _ => none

/-! ### Descriptors (R133, R134) -/

/-- The fields of a descriptor (R133). -/
def Tile.laddr (t : Tile) : Nat := t.d0.toNat
def Tile.cols (t : Tile) : Nat := t.d1.toNat / 65536
def Tile.rows (t : Tile) : Nat := t.d1.toNat % 65536
def Tile.layout (t : Tile) : Nat := t.d2.toNat / 256 % 4
def Tile.fmt (t : Tile) : Nat := t.d2.toNat % 32
def Tile.pitch (t : Tile) : Nat := t.d3.toNat

/-- The formats of R133. -/
def goodFmt (f : Nat) : Bool := decide (f ≤ 5) || decide (9 ≤ f ∧ f ≤ 17)
/-- An NPI format, and its planes (R115, R133). -/
def npiFmt (f : Nat) : Bool := decide (9 ≤ f ∧ f ≤ 15)
def npiPlanes (f : Nat) : Nat := f - 7

/-- Twice the element size in bytes (R134). -/
def halfBytes (f : Nat) : Nat :=
  if f = 0 ∨ f = 5 then 8 else if f = 1 ∨ f = 2 then 4 else if f = 3 ∨ f = 4 then 2 else if f = 16 then 1 else 16

/-- Lines, their elements, and the bytes of a line for layouts 0 and 1 (R134). -/
def Tile.lines (t : Tile) : Nat := if t.layout = 1 then t.cols else t.rows
def Tile.lineElems (t : Tile) : Nat := if t.layout = 1 then t.rows else t.cols
def Tile.lineSize (t : Tile) : Nat := t.lineElems * halfBytes t.fmt / 2

/-- The extent in bytes (R134). -/
def Tile.extent (t : Tile) : Nat :=
  if t.layout = 2 then 1024 + 2048 * npiPlanes t.fmt else (t.lines - 1) * t.pitch + t.lineSize

/-- The value checks of `TDEF` order 2 (R134). -/
def Tile.shapeOk (t : Tile) : Bool :=
  goodFmt t.fmt && decide (t.layout ≤ 2) && t.d2.toNat / 1024 == 0 && t.d2.toNat / 32 % 8 == 0
    && decide (1 ≤ t.rows ∧ t.rows ≤ 1024 ∧ 1 ≤ t.cols ∧ t.cols ≤ 1024)
    && (if t.layout = 2 then npiFmt t.fmt && t.rows == 128 && t.cols == 128 && t.pitch == 0 else !npiFmt t.fmt)
    && (t.fmt != 16 || t.lineElems % 2 == 0)

/-- The pitch check of `TDEF` order 4 (R134). -/
def Tile.pitchOk (t : Tile) : Bool := t.layout == 2 || (decide (t.lineSize ≤ t.pitch) && t.pitch % 4 == 0)

/-- The detail of `TILE_STATE`: tile, state, bit 10 for a tile never defined (R97, R134). -/
def Tile.detail (t : Tile) (n : Nat) : Word := BitVec.ofNat 32 (n + 256 * t.state.toNat + if t.valid then 0 else 1024)

/-- The states of R133. -/
def tileEmpty : BitVec 2 := 0
def tileFilling : BitVec 2 := 1
def tileReady : BitVec 2 := 2
def tileDraining : BitVec 2 := 3

/-- The state an action needs of a tile (R136): defined, in the state, not held by an engine where that is asked. -/
def Tile.fits (t : Tile) (st : BitVec 2) : Bool := t.valid && t.state == st && !t.eng

/-- Local address, position along its line, of element `n` (R135). -/
def Tile.element (t : Tile) (n : Nat) : Nat × Nat :=
  let row := n / t.cols
  let col := n % t.cols
  if t.layout = 1 then (t.laddr + col * t.pitch + row * halfBytes t.fmt / 2, row)
  else (t.laddr + row * t.pitch + col * halfBytes t.fmt / 2, col)

/-- Bytes of an element of formats 0–5 and of the byte that holds a CB4 element. -/
def elementBytes (f : Nat) : Nat := (halfBytes f + 1) / 2

/-- What `LDT` writes for an element's bytes (R360). -/
def tileValue (f pos v : Nat) : Word :=
  if f = 3 then (BitVec.ofNat 8 v).signExtend 32
  else if f = 16 then BitVec.ofNat 32 (if pos % 2 = 0 then v % 16 else v / 16)
  else BitVec.ofNat 32 v

/-- The formats that `LDT` and `STT` move. -/
def laneFmt (f : Nat) : Bool := decide (f ≤ 5) || f == 16

end Sys2Proof.Machine
end

