-- ==== Sys2Proof/Machine/Engine.lean ====
section
/-! DEFINITION. Engine commands: what one takes when it issues (R165, R166, R169), the units it moves (R166–R168, R171),
and its completion (R166, R171–R174). -/

namespace Sys2Proof.Machine

/-! ### Range locks (R169) -/

/-- A range a command locks: destination or source, a scratchpad offset on a core or a physical address, length in bytes. -/
structure LockRange where
  dst     : Bool
  isLocal : Bool
  home    : Nat
  base    : Nat
  bytes   : Nat
  deriving DecidableEq, Repr

/-- A global range as physical ranges, one for each page spanned that translates: physical address and bytes. A step passes at least the
rest of a page of 64 KiB, so `pageSteps` steps pass the whole range. -/
def physicalRanges (c ctx : Nat) (mode : Mode) (k : AccessKind) : Nat → State → Nat → Nat → List (Nat × Nat) →
    State × List (Nat × Nat)
  | 0, s, _, _, acc => (s, acc)
  | fuel + 1, s, va, n, acc =>
    if n = 0 then (s, acc)
    else
      let r := translateNow s c ctx va mode k
      match r.2, lookupTlb r.1 c ctx va with
      | .ok (pa, _), some e =>
        let m := min n (e.base + 2 ^ e.bits - va)
        physicalRanges c ctx mode k fuel r.1 (va + m) (n - m) (acc ++ [(pa, m)])
      | _, _ =>
        let m := min n (65536 - va % 65536)
        physicalRanges c ctx mode k fuel r.1 (va + m) (n - m) acc

/-- Steps that pass the pages of a range of some bytes. -/
def pageSteps (n : Nat) : Nat := n / 65536 + 2

/-- The free entries of a core's range-lock table, lowest first. -/
def freeLocks (c : Core) : List Nat := (List.range 64).filter fun i => (c.locks.find i).isNone

/-- Register ranges in free entries; their indices come back. -/
def takeLocks (s : State) (c tag slot : Nat) (cid : BitVec 64) (rs : List LockRange) : State × List Nat :=
  let core := s.core c
  let is := (freeLocks core).take rs.length
  let locks := (is.zip rs).foldl
    (fun (m : Table RangeLock) ir =>
      let r := ir.2
      m.put ir.1 ⟨r.dst, r.isLocal, r.home, tag, slot, r.base, (r.base + r.bytes + 127) / 128 - r.base / 128, cid, s.time⟩) core.locks
  (s.setCore c { core with locks := locks }, is)

/-- Release entries. -/
def dropLocks (s : State) (c : Nat) (is : List Nat) : State :=
  s.modCore c fun core => { core with locks := is.foldl (fun m i => m.drop i) core.locks }

/-! ### Barriers as commands use them (R173) -/

/-- A command naming a register issues: PEND, OLDEST, and the phase it counts in. -/
def Barrier.enter (b : Barrier) (seq : Word) (ldclk : Nat) : Barrier :=
  let b := { b with pend := b.pend + 1, cmdClk := max b.cmdClk ldclk }
  if b.oldest.length < 8 then { b with oldest := b.oldest ++ [seq] } else { b with more := b.more ++ [seq] }

/-- A counted command completes: with its fault, and the scope and bound its observers owe. -/
def Barrier.leave (b : Barrier) (seq : Word) (fault : Option LaneTrap) (acq : Nat × Nat) : Barrier :=
  let old := b.oldest.filter fun x => x != seq
  let b := { b with
    pend := b.pend - 1, fault := b.fault || fault.isSome, openFlt := b.openFlt ++ fault.toList
    openAcq := (max b.openAcq.1 acq.1, max b.openAcq.2 acq.2), oldest := old, more := b.more.filter fun x => x != seq }
  if b.oldest.length < 8 then { b with oldest := b.oldest ++ b.more.take 1, more := b.more.drop 1 } else b

/-- Register a command on its barrier. -/
def enterBarrier (s : State) (bk n : Nat) (cid : BitVec 64) (ldclk : Nat) : State :=
  s.modBlock bk fun b => b.setBarrier n ((b.barrier n).enter (cid.setWidth 32) ldclk)

/-- A command leaves its barrier, and the register is evaluated: the saved one if its block is evicted (R224). -/
def leaveBarrier (s : State) (bk n : Nat) (cid : BitVec 64) (fault : Option LaneTrap) (acq : Nat × Nat) : State :=
  if noBlock < bk then
    match s.hub.evicted.find (bk - noBlock - 1) with
    | some e => evictedBarrier s (bk - noBlock - 1) e n ((e.barrier n).leave (cid.setWidth 32) fault acq)
    | none => s
  else evalBarrier (s.modBlock bk fun b => b.setBarrier n ((b.barrier n).leave (cid.setWidth 32) fault acq)) bk n

/-! ### Issue -/

/-- What a form asks of the engine. -/
structure Order where
  kind      : CmdKind
  src       : Place
  dst       : Place
  srcPitch  : Nat
  dstPitch  : Nat
  lineUnits : Nat
  units     : Nat
  reduce    : Nat
  scope     : Nat
  index     : List Nat
  poison    : Bool
  tiles     : List Nat
  fill      : Bool
  locks     : List LockRange
  /-- global source and destination ranges: address and bytes -/
  reads     : List (Nat × Nat)
  writes    : List (Nat × Nat)
  deriving DecidableEq, Repr

/-- A command record with nothing of the fabric in it. -/
def Order.cmd (o : Order) (s : State) (k : Nat) (t : Team) (cid : BitVec 64) (op barrier : Option Nat) (phase : BitVec 8)
    (locks : List Nat) : Cmd :=
  { kind := o.kind, word := t.itemWord.toNat, team := k, block := t.block, launch := (s.launchNo t).getD 0, ctx := s.ctxOf t
    mode := t.mode, op := op, barrier := barrier, phase := phase, cid := cid, src := o.src, dst := o.dst, srcPitch := o.srcPitch
    dstPitch := o.dstPitch, lineUnits := o.lineUnits, units := o.units, done := [], reduce := o.reduce, scope := o.scope
    index := o.index, tiles := o.tiles, fill := o.fill, locks := locks, fault := none, poison := o.poison, stamp := none
    seq := none, dev := 0, win := 0, key := 0, kix := 0, offset := 0, cls := 0, vc := 0, signal := 0, wait := false, oseq := 0
    payload := [], header := [], unacked := 0, atIssue := t.ldclk, releasedReduce := false, pc := t.itemAddr, bytes := 0
    localDone := false, signalled := false, sigOseq := 0 }

/-- What a fabric form adds to its command (R231): destination, key entry, window offset, class, channel, signal word, W, bytes
in all, the number of OSEQ values it takes, and the port whose replay store needs room for a packet (R232). -/
structure FabricPart where
  dev    : Nat
  win    : Nat
  key    : Nat
  kix    : Nat
  offset : Nat
  cls    : Nat
  vc     : Nat
  signal : Word
  wait   : Bool
  bytes  : Nat
  data   : Nat
  signals : Bool
  port   : Option Nat
  deriving DecidableEq, Repr

/-- The fabric fields of a command: its OSEQ values are taken in issue order, the signal's after those of the data; a signal
travels ORDERED whatever the data does (R233, R234). A collective packet takes its value as it leaves on a link (log entry 32). -/
def FabricPart.fill (f : FabricPart) (s : State) (c : Cmd) : State × Cmd :=
  let base := nextOseq s f.dev f.vc
  let n := if f.dev = 0xFFFF then 0 else (if f.cls = 0 then f.data else 0) + if f.signals then 1 else 0
  (takeOseq s f.dev f.vc n,
    { c with
      dev := f.dev, win := f.win, key := f.key, kix := f.kix, offset := f.offset, cls := f.cls, vc := f.vc, signal := f.signal
      wait := f.wait, bytes := f.bytes, oseq := base, sigOseq := base + if f.cls = 0 then f.data else 0 })

/-- A number for a new command. -/
def addCmd (s : State) (c : Cmd) : State × Nat :=
  let n := s.hub.nextCmd
  ((s.setCmd n c).modHub fun h => { h with nextCmd := n + 1 }, n)

/-- Set the state of tiles of a block. -/
def markTiles (s : State) (bk : Nat) (tiles : List Nat) (st : BitVec 2) (eng : Bool) : State :=
  s.modBlock bk fun b => tiles.foldl (fun b n => b.setTile n { b.tile n with state := st, eng := eng }) b

/-- The SETB operation of a command: counted, or not with SETB 15 (R65). -/
def Team.startCommand (t : Team) : Team × Option Nat :=
  if (t.countsOn false).isNone then (t, none)
  else
    let r := t.startOp false true [] [] 0
    (r.1, some r.2)

/-- A range of physical memory touches an offset of the aperture that is reserved, carved, or not an engine's to reach (R127, R132). -/
def touchesReserved (s : State) (pa n : Nat) : Bool :=
  match whereIs pa with
  | .aperture core off =>
    (List.range ((n + 127) / 128)).any fun i =>
      !engineReaches s core (off + 128 * i) || !engineReaches s core (off + min (128 * i + 127) (n - 1))
  | _ => false

/-- A global range of a team touches such an offset. -/
def reachesReserved (s : State) (t : Team) (k : AccessKind) (va n : Nat) : Bool :=
  (physicalRanges (coreOfTeam s.cur) (s.ctxOf t) t.mode k (pageSteps n) s va n []).2.any fun r => touchesReserved s r.1 r.2

/-- The ops of a reduction that an open region guards (R268). -/
def guardedReduce (op : Nat) : Bool := op == 1 || op == 3 || op == 6 || op == 7

/-- The 4 KiB regions of physical ranges. -/
def regionsOf (rs : List (Nat × Nat)) : List Nat :=
  rs.flatMap fun r => (List.range ((r.1 + r.2 - 1) / 4096 + 1 - r.1 / 4096)).map (r.1 / 4096 + ·)

/-- Sequenced commands in flight on the device (R267). -/
def sequenced (s : State) : Nat := (s.cmds.filter fun kc => kc.2.seq.isSome).length

/-- The CMD_ISSUE record of a command (R248). -/
def noteIssue (s : State) (k : Nat) (t : Team) (cid : BitVec 64) (barrier : Nat) : State :=
  emit s unitCopy (coreOfTeam k) 0x200 cid (t.itemFull + 2 ^ 32 * barrier)

/-- The CMD_DONE record of a command, from the copy engine its CID names (R247). -/
def noteDone (s : State) (c : Cmd) : State :=
  emit s unitCopy (c.cid.toNat / 2 ^ 32 % 256) 0x201 c.cid (if c.fault.isSome then 1 else 0)

/-- A command that has passed its checks stalls for its flag, its barrier, its locks and its turn, and then issues (R165, R263,
R266–R268, R318). -/
def issueOrder (s : State) (t : Team) (n : Nat) (o : Order) (turn : Bool) (f : Option FabricPart := none) : Out :=
  let k := s.cur
  let core := coreOfTeam k
  let ctx := s.ctxOf t
  let read := o.reads.foldl (fun acc r => physicalRanges core ctx t.mode .load (pageSteps r.2) acc.1 r.1 r.2 acc.2) (s, [])
  let written := o.writes.foldl (fun acc r => physicalRanges core ctx t.mode .store (pageSteps r.2) acc.1 r.1 r.2 acc.2) (read.1, [])
  let s := written.1
  let locks := o.locks ++ read.2.map (fun r => ⟨false, false, core, r.1, r.2⟩) ++ written.2.map (fun r => ⟨true, false, core, r.1, r.2⟩)
  let det := s.deterministic t
  let regions := if o.reduce = 0 then [] else regionsOf written.2
  match s.blockOf t with
  | none => .next s
  | some b =>
    if read.2.any fun r => touchesReserved s r.1 r.2 then
      .next (s.modTeam k fun t => t.raise t.trapSet 7 0 ((o.reads.head?.map (·.1)).getD 0) false 0)
    else if written.2.any fun r => touchesReserved s r.1 r.2 then
      .next (s.modTeam k fun t => t.raise t.trapSet 7 1 ((o.writes.head?.map (·.1)).getD 0) false 0)
    else if guardedReduce o.reduce && !det && regions.any (regionOpen s) then
      .next (s.modTeam k fun t => t.raise t.trapSet 15 0 ((o.writes.head?.map (·.1)).getD 0) false 0)
    else if t.flagFull false || decide (4095 ≤ (b.barrier n).pend) || decide ((freeLocks (s.core core)).length < locks.length)
        || f.any (fun f => f.port.any fun p => !storeRoom s p 4224)
        || (det && o.reduce != 0 && (decide (4096 ≤ sequenced s) || decide (65536 < openRegions s + (newRegions s k regions).length))) then
      .next (stallInstr s)
    else
      let act := fun (s : State) =>
        let c := newCopyCid s core
        let l := takeLocks c.2 core (s.tagOn core ctx) b.slot c.1 locks
        let x : State × Option Nat :=
          if det && turn then ((reserveStamp l.1 k).1, some (reserveStamp l.1 k).2) else (l.1, none)
        let q : State × Option Nat :=
          if det && o.reduce != 0 then ((takeSequence x.1 k).1, some (takeSequence x.1 k).2) else (x.1, none)
        let s := if det then openFor q.1 k regions else q.1
        let op := t.startCommand.2
        let s := s.modTeam k fun t => t.startCommand.1
        let s := enterBarrier s t.block n c.1 t.ldclk
        let s := if o.tiles.isEmpty then s else markTiles s t.block o.tiles (if o.fill then tileFilling else tileDraining) true
        let c : Cmd := { o.cmd s k t c.1 op (some n) (b.barrier n).phase l.2 with stamp := x.2, seq := q.2 }
        let y := match f with
          | some f => f.fill s c
          | none => (s, c)
        (addCmd (noteIssue y.1 k t c.cid n) y.2).1
      if turn then gated s fun s => .next (act s) else .next (act s)

/-! ### Units (R166–R168) -/

/-- A place some bytes on. -/
def Place.plus (p : Place) (n : Nat) : Place :=
  match p with
  | .global va => .global (va + n)
  | .scratch c o => .scratch c (o + n)
  | .saved e o => .saved e (o + n)

/-- The source of a unit; none for a row of zeros (R167). -/
def Cmd.unitSrc (c : Cmd) (u : Nat) : Option Place :=
  let line := u / c.lineUnits
  let col := u % c.lineUnits
  if c.kind = .gather then
    let idx := c.index.getD line 0
    if idx = 0xFFFFFFFF then none else some (c.src.plus (idx * (c.lineUnits * 128) + col * 128))
  else some (c.src.plus (line * c.srcPitch + col * 128))

/-- The destination of a unit. -/
def Cmd.unitDst (c : Cmd) (u : Nat) : Place :=
  let off := u / c.lineUnits * c.dstPitch + u % c.lineUnits * 128
  c.dst.plus (if c.reduce = 3 then 16 * off else off)

/-- How a place of a unit fails. -/
inductive UnitFault where
  | cause (code va : Nat) (st2 : Bool)
  | absent (pa : Nat)
  deriving DecidableEq, Repr

/-- The poison of a run of 4-byte words, eight of a chunk: which words are poisoned. -/
def wordPoison (p : Nat → Bool) : BitVec 8 :=
  (List.range 8).foldl (fun (m : BitVec 8) i => if p i then m ||| (1#8 <<< i) else m) 0#8

/-- 32 bytes that an engine reads, each word with its poison (R271, R272): a granule of global memory is poisoned whole. -/
def chunkAt (s : State) (core ctx pa : Nat) : List Byte × BitVec 8 :=
  match whereIs pa with
  | .aperture c off =>
    let bs := (List.range 32).map fun i => (apertureByte s c (off + i)).getD (0#8, false)
    (bs.map (·.1), wordPoison fun i => (bytesAt (bs.map fun b => if b.2 then 1#8 else 0#8) (4 * i) 4).any (· != 0#8))
  | _ =>
    let r := viewBytes s core ctx false pa 32
    (r.1, if r.2 then 0xFF#8 else 0#8)

/-- Read 32-byte chunks of a place in the issuing team's view past L1, each word with its poison (R147, R166). An offset of the aperture
that engines do not reach stops it with `PROT` (R127, R132). -/
def readChunks (core ctx : Nat) (mode : Mode) (s : State) (p : Place) (chunks : Nat) :
    State × Except UnitFault (List (List Byte × BitVec 8)) :=
  (List.range chunks).foldl
    (fun acc i =>
      match acc.2 with
      | .error e => (acc.1, .error e)
      | .ok xs =>
        match p with
        | .saved _ _ => (acc.1, .ok (xs ++ [(zeroBytes 32, 0#8)]))
        | .scratch c o =>
          let at' := o + 32 * i
          (acc.1, .ok (xs ++ [((scratchBytes acc.1 c at' 32).1, wordPoison fun j => (scratchBytes acc.1 c (at' + 4 * j) 4).2)]))
        | .global va =>
          if 2 ^ 56 ≤ va + 32 * i then (acc.1, .error (.cause 6 (va + 32 * i) false))
          else
            let r := translateNow acc.1 core ctx (va + 32 * i) mode .load
            match r.2 with
            | .error (.cause c st2) => (r.1, .error (.cause c (va + 32 * i) st2))
            | .error (.absent pa) => (r.1, .error (.absent pa))
            | .ok (pa, attr) =>
              match whereIs pa with
              | .absent => (r.1, .error (.absent pa))
              | .aperture c off =>
                if engineReaches r.1 c off then (r.1, .ok (xs ++ [chunkAt r.1 core ctx pa]))
                else (r.1, .error (.cause 7 (va + 32 * i) false))
              | .hbm => (r.1.modHome fun h => h.bring (sectorOf pa) (retention attr 0) false, .ok (xs ++ [chunkAt r.1 core ctx pa])))
    (s, .ok [])

/-- Write a chunk to a scratchpad, each word with its poison. -/
def scratchChunk (s : State) (core off : Nat) (c : List Byte × BitVec 8) : State :=
  if c.2 = 0#8 ∨ c.2 = 0xFF#8 then scratchWrite s core off c.1 (c.2 != 0#8)
  else (List.range 8).foldl (fun s i => scratchWrite s core (off + 4 * i) (bytesAt c.1 (4 * i) 4) (c.2.getLsbD i)) s

/-- The core that a command is of: where its block was evicted, that core. -/
def State.cmdCore (s : State) (c : Cmd) : Nat :=
  if noBlock < c.block then ((s.hub.evicted.find (c.block - noBlock - 1)).map (·.core)).getD 0 else coreOfTeam c.team

/-- The evicted block that a command is of. -/
def Cmd.away (c : Cmd) : Option Nat := if noBlock < c.block then some (c.block - noBlock - 1) else none

/-- Write a chunk into the allocation of an evicted block, in its image (R220). -/
def savedChunk (s : State) (ek off : Nat) (c : List Byte × BitVec 8) : State :=
  match s.hub.evicted.find ek with
  | none => s
  | some e => homeWrite s (imageAddress s e (71808 + off)) c.1 (c.2 != 0#8)

/-- Where a global address of a command's destination lies, and its page's attribute. -/
def dstPlace (s : State) (core ctx : Nat) (mode : Mode) (va : Nat) : State × Except UnitFault (Nat × Nat) :=
  if 2 ^ 56 ≤ va then (s, .error (.cause 6 va false))
  else
    let r := translateNow s core ctx va mode .store
    match r.2 with
    | .error (.cause c st2) => (r.1, .error (.cause c va st2))
    | .error (.absent pa) => (r.1, .error (.absent pa))
    | .ok (pa, attr) =>
      match whereIs pa with
      | .absent => (r.1, .error (.absent pa))
      | .aperture c off => if engineReaches r.1 c off then (r.1, .ok (pa, attr)) else (r.1, .error (.cause 7 va false))
      | .hbm => (r.1, .ok (pa, attr))

/-- An engine writes through the aperture; a register or accumulator element reads old or new until the counting phase
completes (R128, R295). -/
def apertureEngineWrite (s : State) (core off : Nat) (bs : List Byte) (pois : Bool) (till : Option (Nat × Nat)) : State :=
  let elems := if 0x400000 ≤ off ∧ off < 0x480000 then
      (List.range (bs.length / 4)).filterMap fun i => regfileElement s core (off - 0x400000 + 4 * i)
    else []
  let s := elems.foldl
    (fun s ke => s.modTeam ke.1 fun t =>
      let o : Op :=
        { num := t.nextOp, classA := false, flag := none, depth := 0, vDest := [(ke.2, Sparse.get 0#32 t.regs.v ke.2, false)], sDest := []
          fflags := 0, dirty := [], waits := true, till := some (till.getD (0, 99)), index := 0, pc := 0, past := false, area := none }
      { t with ops := t.ops ++ [o], nextOp := t.nextOp + 1 }) s
  let accs := if 0x600000 ≤ off ∧ off < 0x680000 then
      (List.range ((bs.length + 7) / 8)).map fun i => accIndex (off - 0x600000) + i
    else []
  let s := if accs.isEmpty then s else s.modCore core fun c =>
    { c with accOpen := c.accOpen ++ accs.map fun i => (i, Sparse.get 0#64 c.acc i, till.getD (0, 99)) }
  apertureWrite s core off bs pois

/-- Write a chunk through the aperture, element by element: accumulators in 8 bytes, the rest in 4. -/
def apertureChunk (s : State) (core off : Nat) (c : List Byte × BitVec 8) (till : Option (Nat × Nat)) : State :=
  let size := if 0x600000 ≤ off then 8 else 4
  (List.range (c.1.length / size)).foldl
    (fun s i =>
      let pois := (List.range (size / 4)).any fun j => c.2.getLsbD (size / 4 * i + j)
      apertureEngineWrite s core (off + size * i) (bytesAt c.1 (size * i) size) pois till) s

/-- Publish what a command has appended so far, or all of it at completion (R158, R162, R266): up to the position after its
last entry. Its stamp comes back. -/
def publishCmd (s : State) (id : Nat) (c : Cmd) : State × Nat :=
  let core := s.cmdCore c
  let tag := s.tagOn core c.ctx
  let own := (s.core core).log.filter fun e => e.cmd == some id
  let m := own.foldl (fun m e => max m (e.pos + 1)) 0
  let det := c.stamp.isSome
  let p : Publisher :=
    ⟨fun e => e.cmd == some id || (!det && e.det.isNone), c.stamp, none, ctxOfTeam c.team⟩
  if own.isEmpty then (s, (s.core core).counter) else publish s core tag m c.scope p

/-- Write 32-byte chunks of a command at a global destination: logged in HBM (R143, R162), written at once in an aperture. The
result is false while the log has no room. -/
def writeChunks (s : State) (id : Nat) (c : Cmd) (pa attr : Nat) (chunks : List (List Byte × BitVec 8)) : State × Bool :=
  let core := s.cmdCore c
  match whereIs pa with
  | .aperture x off =>
    ((chunks.zipIdx).foldl
      (fun s ci => apertureChunk s x (off + 32 * ci.2) ci.1 (c.barrier.map fun b => (c.block, b))) s, true)
  | _ =>
    let tag := s.tagOn core c.ctx
    let pieces := (chunks.zipIdx).foldl (fun ps ci => mergeBytes (pa + 32 * ci.2) ci.1.1 (ci.1.2 != 0#8) (retention attr 0) ps) []
    let rgn := ((s.team c.team).map (·.region.isSome)).getD false
    let a : Appender := ⟨ctxOfTeam c.team, some id, rgn && c.away.isNone, c.away⟩
    let r := appendPieces s core tag overflowReserve a pieces
    if r.2.isEmpty then (r.1, true)
    else
      let r' := appendPieces (publishCmd r.1 id c).1 core tag overflowReserve a r.2
      (r'.1, r'.2.isEmpty)

/-- One element of a reduction: the new destination bytes (R168). -/
def reduceElement (op : Nat) (old new : Nat) : Nat :=
  let d := BitVec.ofNat 32 old
  let x := BitVec.ofNat 32 new
  match op with
  | 1 => (f32Add .rne d x).1.toNat
  | 2 => (d + x).toNat
  | 3 => ((Exa.ofNat old).fold (FpFmt.f32.read new)).toNat
  | 4 => (if d.slt x then d else x).toNat
  | 5 => (if d.slt x then x else d).toNat
  | 6 => (FpFmt.f32.minmax false false old new).1
  | 7 => (FpFmt.f32.minmax true false old new).1
  | 8 => (d &&& x).toNat
  | _ => (d ||| x).toNat

/-- Reduce one element into a physical destination by a home-slice write (R168, R152); poison of either side stays
(R272). In an aperture the element is updated in place, and reads old or new until the counting phase completes (R128). -/
def reduceAt (s : State) (op : Nat) (till : Option (Nat × Nat)) (pa : Nat) (x : Nat) (pois : Bool) : State :=
  let size := if op = 3 then 64 else 4
  match whereIs pa with
  | .aperture core off =>
    let old := (List.range size).map fun j => (apertureByte s core (off + j)).getD (0#8, false)
    let new := leBytes size (reduceElement op (leNat (old.map (·.1))) x)
    apertureEngineWrite s core off new (pois || old.any (·.2)) till
  | _ =>
    let s := settleSector s (sectorOf pa)
    let new := leBytes size (reduceElement op (homeNat s pa size) x)
    (List.range ((size + 31) / 32)).foldl
      (fun s j =>
        let lo := pa + 32 * j
        homeWrite s lo (bytesAt new (32 * j) (min 32 size)) (pois || s.home.poisoned lo)) s

/-- A sequenced command has units left whose destination lies in a 4 KiB region (R267). Source units of 128 bytes update 128 bytes, or
2 KiB of cells. -/
def pendsIn (s : State) (c : Cmd) (region : Nat) : Bool :=
  (List.range c.units).any fun u =>
    !c.done.contains u && (match c.unitDst u with
      | .global va =>
        (List.range (if c.reduce = 3 then 16 else 1)).any fun i =>
          (physicalOf s (s.cmdCore c) c.ctx c.mode .store (va + 128 * i)).any fun pa => pa / 4096 == region
      | _ => false)

/-- A lower sequence number of the launch still owes updates in a region (R267). -/
def sequenceWaits (s : State) (c : Cmd) (pa : Nat) : Bool :=
  match c.seq with
  | none => false
  | some q =>
    s.cmds.any fun kc =>
      match kc.2.seq with
      | some r => kc.2.launch == c.launch && decide (r < q) && kc.2.fault.isNone && pendsIn s kc.2 (pa / 4096)
      | none => false

/-- Mark a unit moved. -/
def unitDone (s : State) (id u : Nat) : State := s.modCmd id fun c => { c with done := c.done ++ [u] }

/-- A unit fails: the command halts (R171), or the machine has no such address. -/
def unitFails (s : State) (id : Nat) (f : UnitFault) : Out :=
  match f with
  | .absent pa => .fault (.noSuchAddress pa)
  | .cause code va st2 => .next (s.modCmd id fun c => { c with fault := some (code, va, st2) })

/-- Before its first unit a reducing command releases its context's log, a detached one with it (R154), and waits for its destination's
entries to fold (R168). In a deterministic launch it publishes its team's entries with the stamp it reserved in its turn (R266). -/
def releaseReduce (s : State) (id : Nat) (c : Cmd) : State :=
  if c.releasedReduce then s
  else
    let core := coreOfTeam c.team
    let tag := s.tagOn core c.ctx
    let det := c.stamp.isSome
    let p : Publisher := ⟨fun e => e.det.isSome || !det || e.tctx == ctxOfTeam c.team, c.stamp, none, ctxOfTeam c.team⟩
    let s := (publish s core tag ((s.core core).tail tag) (max c.scope 2) p).1
    (foldSome s core fun e => e.ctx == tag).modCmd id fun c => { c with releasedReduce := true }

/-- Move one 128-byte unit of a command (R166–R168, R171). -/
def moveUnit (s : State) (id u : Nat) : Out :=
  match s.cmd id with
  | none => .next s
  | some c =>
    if c.fault.isSome || decide (c.units ≤ u) || c.done.contains u then .next s
    else
      let core := s.cmdCore c
      let s := if c.reduce = 0 then s else releaseReduce s id c
      let r : State × Except UnitFault (List (List Byte × BitVec 8)) :=
        match c.unitSrc u with
        | none => (s, .ok (List.replicate 4 (zeroBytes 32, 0#8)))
        | some p => readChunks core c.ctx c.mode s p 4
      match r.2 with
      | .error f => unitFails r.1 id f
      | .ok read =>
        let chunks := read.map fun x => (x.1, if c.poison then 0xFF#8 else x.2)
        let s := r.1
        match c.unitDst u with
        | .scratch x o =>
          .next (unitDone ((chunks.zipIdx).foldl (fun s ci => scratchChunk s x (o + 32 * ci.2) ci.1) s) id u)
        | .saved ek o => .next (unitDone ((chunks.zipIdx).foldl (fun s ci => savedChunk s ek (o + 32 * ci.2) ci.1) s) id u)
        | .global va =>
          if c.reduce = 0 then
            let d := dstPlace s core c.ctx c.mode va
            match d.2 with
            | .error f => unitFails d.1 id f
            | .ok pa =>
              let w := writeChunks d.1 id c pa.1 pa.2 chunks
              if w.2 then .next (unitDone w.1 id u) else .next w.1
          else
            let size := if c.reduce = 3 then 64 else 4
            let elems := chunks.flatMap fun x => (List.range 8).map fun i => (fieldAt x.1 (4 * i) 4, x.2.getLsbD i)
            let d := (elems.zipIdx).foldl
              (fun (acc : State × Except UnitFault (List (Nat × Nat × Bool))) e =>
                match acc.2 with
                | .error f => (acc.1, .error f)
                | .ok xs =>
                  let d := dstPlace acc.1 core c.ctx c.mode (va + size * e.2)
                  match d.2 with
                  | .error f => (d.1, .error f)
                  | .ok pa => (d.1, .ok (xs ++ [(pa.1, e.1)])))
              (s, .ok [])
            match d.2 with
            | .error f => unitFails d.1 id f
            | .ok xs =>
              if xs.any fun x => sequenceWaits d.1 c x.1 then .next d.1
              else
                let till := c.barrier.map fun b => (c.block, b)
                .next (unitDone (xs.foldl (fun s x => reduceAt s c.reduce till x.1 x.2.1 x.2.2) d.1) id u)

/-! ### Completion (R166, R171–R174) -/

/-- The detail a command's fault carries: the key index, with bit 31 for a translation fault at the destination (R238);
nothing for poison (R272); else the form and its barrier (R171, R321, R345, R409, R434). -/
def Cmd.faultDetail (c : Cmd) : Nat :=
  if (c.fault.map (·.1)) = some 16 then c.kix + if (c.fault.map (·.2.2)) = some true then 0x80000000 else 0
  else if (c.fault.map (·.1)) = some 12 then 0
  else if c.kind = .adopt then 0x80000200
  else 0x80000000 + (if c.kind = .get then 128 else 0) + c.word / 2 ^ 22 % 8 * 16 + c.word % 16

/-- The trap of a faulted command, as its issuer and the observers of its phase take it. -/
def Cmd.trap (c : Cmd) : Option LaneTrap :=
  c.fault.map fun f => .owed f.1 (BitVec.ofNat 32 c.faultDetail) f.2.1 (f.2.2 && f.1 != 16)

/-- A team of a block takes a trap before its next run; where it has ended, the slice's failure record names the CID (R171,
R189). -/
def owe (s : State) (k block launch : Nat) (cid : BitVec 64) (x : LaneTrap) : State :=
  let fails := fun (s : State) => s.modLaunch launch fun l => { l with failure := l.failure.orElse fun _ => some (.command cid) }
  if noBlock < block then
    -- an evicted team, by its number
    if ((s.hub.evicted.find (block - noBlock - 1)).map fun e => (e.barrier 0).exited.getLsbD k).getD false then fails s
    else s.modHub fun h => { h with evicted := h.evicted.update (block - noBlock - 1) fun e => { e with
      dues := e.dues.put k (((e.dues.find k).getD []) ++ [x]) } }
  else
    match s.team k with
    | some t => if t.ended || t.gone || t.block != block then fails s else s.setTeam k { t with due := t.due ++ [x] }
    | none => fails s

/-- The issuing team takes a command's trap (R171). -/
def reportFault (s : State) (c : Cmd) (x : LaneTrap) : State := owe s c.team c.block c.launch c.cid x

/-- A command has nothing left to move. -/
def Cmd.finished (c : Cmd) : Bool := c.fault.isSome || decide (c.units ≤ c.done.length)

/-- A copy, gather or adoption completes: tile transition, publication, locks, flag and barrier together (R166). -/
def completeCopy (s : State) (id : Nat) : State :=
  match s.cmd id with
  | none => s
  | some c =>
    if !c.finished then s
    else
      let core := s.cmdCore c
      let faulted := c.fault.isSome
      let st := if c.fill then (if faulted then tileEmpty else tileReady) else (if faulted then tileReady else tileEmpty)
      let s := if c.tiles.isEmpty then s else markTiles s c.block c.tiles st false
      let isGlobal := match c.dst with
        | .global _ => true
        | _ => false
      let r := if isGlobal && c.reduce = 0 then publishCmd s id c else (s, 0)
      let acq := if isGlobal then (if c.reduce = 0 then (c.scope, r.2) else (3, 0)) else (0, 0)
      let s := dropLocks r.1 core c.locks
      let s := match c.op with
        | some op => s.modTeam c.team fun t => t.finishOp s.tick op
        | none => s
      let s := match c.trap with
        | some x => reportFault s c x
        | none => s
      let s := noteDone (s.dropCmd id) c
      let s := match c.barrier with
        | some n => leaveBarrier s c.block n c.cid c.trap acq
        | none => s
      if c.away.isSome then s else tryEnter s c.team

end Sys2Proof.Machine
end

