-- ==== Sys2Proof/Machine/Copies.lean ====
section
/-! DEFINITION. The copy commands and `GATHER` (R163–R168, R317–R319, R337). -/

namespace Sys2Proof.Machine

/-- The fields of Z (R164). -/
def zLength (z : Word) : Nat := z.toNat / 128
def zScope (z : Word) : Nat := z.toNat / 16 % 8
def zOp (z : Word) : Nat := z.toNat % 16

/-- The publication scope that Z selects. -/
def scopeOf (z : Word) : Nat := if zScope z = 0 then 3 else zScope z

/-- SCOPE and OP of Z are as the form allows (R164). -/
def zOk (z : Word) (isGlobal reduces : Bool) : Bool :=
  (if isGlobal then zScope z == 0 || decide (2 ≤ zScope z ∧ zScope z ≤ 4) else zScope z == 0)
    && (if reduces then decide (zOp z ≤ 9) else zOp z == 0)

/-- A command of the current team on its block, with the scalars it reads (R165). It traps `ILLEGAL_OP`, `ALIGN` or `PROT` for
every active lane. -/
def command (s : State) (src : List Nat) (act : State → Team → Block → Out) : Out := onBlock s src false act

/-- A check of R165 order 3: `ALIGN` with the size and the address. -/
def misaligned (s : State) (size addr : Nat) : Out :=
  .next (s.modTeam s.cur fun t => t.raise t.trapSet 8 (BitVec.ofNat 32 size) addr false 0)

/-- A check of R165 order 4: `PROT` of a local range. R434 lists no detail for a command at issue: it is free (log entry 2). -/
def outside (s : State) (addr : Nat) : Out :=
  .next (s.modTeam s.cur fun t => t.raise t.trapSet 7 (Config.freeWord s.tick 6) addr false 0)

/-- The tile is not in the state the command needs (R165 order 1). -/
def wrongTile (s : State) (tile : Tile) (n : Nat) : Out :=
  .next (s.modTeam s.cur fun t => t.raise t.trapSet 10 (tile.detail n) t.itemAddr false 0)

/-- The units of a line, and of the whole tile. -/
def Tile.lineUnits (t : Tile) : Nat := if t.layout = 2 then t.extent / 128 else t.lineSize / 128
def Tile.units (t : Tile) : Nat := if t.layout = 2 then t.extent / 128 else t.lines * t.lineUnits

/-- The shape of a tile and the pitch agree (R165 order 2). -/
def tilePitchOk (t : Tile) (n : Nat) : Bool :=
  if t.layout = 2 then n == 0 else t.lineSize % 128 == 0 && decide (t.lineSize ≤ 128 * n)

/-- The bytes of a tile's global image, pitch included. -/
def imageBytes (t : Tile) (n : Nat) : Nat := if t.layout = 2 then t.extent else (t.lines - 1) * n * 128 + t.lineSize

/-- A local range for a command, as a place and a lock. -/
def localLock (dst : Bool) (p : Nat × Nat) (n : Nat) : LockRange := ⟨dst, true, p.1, p.2, n⟩

/-- `CPY.G2T`. -/
def execCpyG2t (x y z : BitVec 6) (b : BitVec 4) (s : State) : Out :=
  command s [y.toNat, y.toNat + 1, z.toNat] fun s t blk =>
    let tile := blk.tile x.toNat
    let zw := t.readS s.tick z.toNat
    let n := zLength zw
    let va := (t.readPair s.tick y.toNat).toNat
    if !tile.fits tileEmpty then wrongTile s tile x.toNat
    else if !zOk zw false false || !tilePitchOk tile n || y.getLsbD 0 then refuseOp s
    else if va % 128 ≠ 0 then misaligned s 128 va
    else
      match localRange s blk tile.laddr tile.extent with
      | none => outside s tile.laddr
      | some p =>
        issueOrder s t b.toNat
          { kind := .copy, src := .global va, dst := .scratch p.1 p.2, srcPitch := n * 128, dstPitch := tile.pitch
            lineUnits := tile.lineUnits, units := tile.units, reduce := 0, scope := 0, index := [], poison := false
            tiles := [x.toNat], fill := true, locks := [localLock true p tile.extent], reads := [(va, imageBytes tile n)], writes := [] }
          false

/-- The tile's format admits the reduction (R165 order 2). -/
def reduceFmt (op fmt : Nat) : Bool := op == 0 || (if op = 3 then fmt == 0 else fmt == 0 || fmt == 5)

/-- `CPY.T2G`. -/
def execCpyT2g (x y z : BitVec 6) (b : BitVec 4) (s : State) : Out :=
  command s [x.toNat, x.toNat + 1, z.toNat] fun s t blk =>
    let tile := blk.tile y.toNat
    let zw := t.readS s.tick z.toNat
    let n := zLength zw
    let va := (t.readPair s.tick x.toNat).toNat
    let size := imageBytes tile n * if zOp zw = 3 then 16 else 1
    if !tile.fits tileReady then wrongTile s tile y.toNat
    else if !zOk zw true true || !tilePitchOk tile n || !reduceFmt (zOp zw) tile.fmt || x.getLsbD 0 then refuseOp s
    else if va % 128 ≠ 0 then misaligned s 128 va
    else
      match localRange s blk tile.laddr tile.extent with
      | none => outside s tile.laddr
      | some p =>
        issueOrder s t b.toNat
          { kind := .copy, src := .scratch p.1 p.2, dst := .global va, srcPitch := tile.pitch, dstPitch := n * 128
            lineUnits := tile.lineUnits, units := tile.units, reduce := zOp zw, scope := scopeOf zw, index := [], poison := false
            tiles := [y.toNat], fill := false, locks := [localLock false p tile.extent], reads := [], writes := [(va, size)] }
          true

/-- A command of contiguous units. -/
def contiguous (src dst : Place) (n reduce scope : Nat) (locks : List LockRange) (reads writes : List (Nat × Nat)) : Order :=
  { kind := .copy, src := src, dst := dst, srcPitch := 0, dstPitch := 0, lineUnits := n, units := n, reduce := reduce
    scope := scope, index := [], poison := false, tiles := [], fill := false, locks := locks, reads := reads, writes := writes }

/-- `CPY.L2L`. -/
def execCpyL2l (x y z : BitVec 6) (b : BitVec 4) (s : State) : Out :=
  command s [x.toNat, y.toNat, z.toNat] fun s t blk =>
    let zw := t.readS s.tick z.toNat
    let n := zLength zw
    let d := (t.readS s.tick x.toNat).toNat
    let a := (t.readS s.tick y.toNat).toNat
    if !zOk zw false false || n = 0 then refuseOp s
    else if d % 128 ≠ 0 then misaligned s 128 d
    else if a % 128 ≠ 0 then misaligned s 128 a
    else
      match localRange s blk d (128 * n), localRange s blk a (128 * n) with
      | none, _ => outside s d
      | some _, none => outside s a
      | some p, some q =>
        issueOrder s t b.toNat
          (contiguous (.scratch q.1 q.2) (.scratch p.1 p.2) n 0 0 [localLock false q (128 * n), localLock true p (128 * n)] [] [])
          false

/-- `CPY.G2G`. -/
def execCpyG2g (x y z : BitVec 6) (b : BitVec 4) (s : State) : Out :=
  command s [x.toNat, x.toNat + 1, y.toNat, y.toNat + 1, z.toNat] fun s t _ =>
    let zw := t.readS s.tick z.toNat
    let n := zLength zw
    let d := (t.readPair s.tick x.toNat).toNat
    let a := (t.readPair s.tick y.toNat).toNat
    if !zOk zw true false || n = 0 || x.getLsbD 0 || y.getLsbD 0 then refuseOp s
    else if d % 128 ≠ 0 then misaligned s 128 d
    else if a % 128 ≠ 0 then misaligned s 128 a
    else issueOrder s t b.toNat (contiguous (.global a) (.global d) n 0 (scopeOf zw) [] [(a, 128 * n)] [(d, 128 * n)]) true

/-- `CPY.G2L`. -/
def execCpyG2l (x y z : BitVec 6) (b : BitVec 4) (s : State) : Out :=
  command s [x.toNat, y.toNat, y.toNat + 1, z.toNat] fun s t blk =>
    let zw := t.readS s.tick z.toNat
    let n := zLength zw
    let d := (t.readS s.tick x.toNat).toNat
    let a := (t.readPair s.tick y.toNat).toNat
    if !zOk zw false false || n = 0 || y.getLsbD 0 then refuseOp s
    else if d % 128 ≠ 0 then misaligned s 128 d
    else if a % 128 ≠ 0 then misaligned s 128 a
    else
      match localRange s blk d (128 * n) with
      | none => outside s d
      | some p =>
        issueOrder s t b.toNat
          (contiguous (.global a) (.scratch p.1 p.2) n 0 0 [localLock true p (128 * n)] [(a, 128 * n)] []) false

/-- `CPY.L2G`. -/
def execCpyL2g (x y z : BitVec 6) (b : BitVec 4) (s : State) : Out :=
  command s [x.toNat, x.toNat + 1, y.toNat, z.toNat] fun s t blk =>
    let zw := t.readS s.tick z.toNat
    let n := zLength zw
    let d := (t.readPair s.tick x.toNat).toNat
    let a := (t.readS s.tick y.toNat).toNat
    let size := 128 * n * if zOp zw = 3 then 16 else 1
    if !zOk zw true true || n = 0 || x.getLsbD 0 then refuseOp s
    else if d % 128 ≠ 0 then misaligned s 128 d
    else if a % 128 ≠ 0 then misaligned s 128 a
    else
      match localRange s blk a (128 * n) with
      | none => outside s a
      | some p =>
        issueOrder s t b.toNat
          (contiguous (.scratch p.1 p.2) (.global d) n (zOp zw) (scopeOf zw) [localLock false p (128 * n)] [] [(d, size)]) true

/-- `GATHER` (R167): the index array is read once, at issue. -/
def execGather (x y z : BitVec 6) (b : BitVec 4) (s : State) : Out :=
  command s [y.toNat, y.toNat + 1, z.toNat] fun s t blk =>
    let tile := blk.tile x.toNat
    let va := (t.readPair s.tick y.toNat).toNat
    let ia := (t.readS s.tick z.toNat).toNat
    if !tile.fits tileEmpty then wrongTile s tile x.toNat
    else if tile.layout ≠ 0 || tile.lineSize % 128 ≠ 0 || y.getLsbD 0 then refuseOp s
    else if va % 128 ≠ 0 then misaligned s 128 va
    else if ia % 4 ≠ 0 then misaligned s 4 ia
    else
      match localRange s blk tile.laddr tile.extent, localRange s blk ia (4 * tile.rows) with
      | none, _ => outside s tile.laddr
      | some _, none => outside s ia
      | some p, some q =>
        let idx := scratchBytes s q.1 q.2 (4 * tile.rows)
        issueOrder s t b.toNat
          { kind := .gather, src := .global va, dst := .scratch p.1 p.2, srcPitch := 0, dstPitch := tile.pitch
            lineUnits := tile.lineUnits, units := tile.units, reduce := 0, scope := 0
            index := (List.range tile.rows).map fun i => fieldAt idx.1 (4 * i) 4
            poison := idx.2, tiles := [x.toNat], fill := true
            locks := [localLock true p tile.extent, localLock false q (4 * tile.rows)], reads := [], writes := [] }
          false

end Sys2Proof.Machine
end

