-- ==== Sys2Proof/Machine/ScalarAlu.lean ====
section
/-! DEFINITION. Scalar arithmetic of pipe S and the lanewise integer arithmetic of pipe V (R105, R296, R346, R347, R371, R395,
R397, R415). -/

namespace Sys2Proof.Machine

/-! ### Word functions -/

/-- Signed and unsigned minimum and maximum (R347). -/
def sMin {n : Nat} (a b : BitVec n) : BitVec n := if a.slt b then a else b
def sMax {n : Nat} (a b : BitVec n) : BitVec n := if a.slt b then b else a
def uMin {n : Nat} (a b : BitVec n) : BitVec n := if a.ult b then a else b
def uMax {n : Nat} (a b : BitVec n) : BitVec n := if a.ult b then b else a

/-- Bits 63:32 of the signed product (R347). -/
def mulHigh (a b : Word) : Word := ((a.signExtend 64 * b.signExtend 64) >>> 32).setWidth 32
/-- Bits 63:32 of the unsigned product (R347). -/
def mulHighU (a b : Word) : Word := ((a.setWidth 64 * b.setWidth 64) >>> 32).setWidth 32

/-- Shifts by b[4:0] (R395). -/
def shiftLeft (a b : Word) : Word := a <<< (b.toNat % 32)
def shiftRight (a b : Word) : Word := a >>> (b.toNat % 32)
def shiftArith (a b : Word) : Word := a.sshiftRight (b.toNat % 32)

/-- Set-if-less (R397). -/
def setLess (a b : Word) : Word := if a.slt b then 1#32 else 0#32
def setLessU (a b : Word) : Word := if a.ult b then 1#32 else 0#32

/-- Unsigned division and remainder, total (R105). -/
def divU (a b : Word) : Word := if b = 0#32 then 0xFFFFFFFF#32 else a / b
def remU (a b : Word) : Word := if b = 0#32 then a else a % b

/-- Count of one bits, and of leading zero bits (R373, R313). -/
def popCount (a : Word) : Word := BitVec.ofNat 32 ((List.range 32).filter fun i => a.getLsbD i).length
def leadingZeros (a : Word) : Word := if a = 0#32 then 32#32 else BitVec.ofNat 32 (31 - Nat.log2 a.toNat)


/-! ### Scalar, register and register (SR) -/

/-- `IADD sd, sa, sb` (R347). -/
def execIaddSr (d a b : BitVec 6) (s : State) : Out := scalarSR s d a b (· + ·)
/-- `ISUB sd, sa, sb` (R347). -/
def execIsubSr (d a b : BitVec 6) (s : State) : Out := scalarSR s d a b (· - ·)
/-- `IMUL sd, sa, sb` (R347). -/
def execImulSr (d a b : BitVec 6) (s : State) : Out := scalarSR s d a b (· * ·)
/-- `IMULH sd, sa, sb` (R347). -/
def execImulhSr (d a b : BitVec 6) (s : State) : Out := scalarSR s d a b mulHigh
/-- `IMULH.U sd, sa, sb` (R347). -/
def execImulhUSr (d a b : BitVec 6) (s : State) : Out := scalarSR s d a b mulHighU
/-- `AND sd, sa, sb` (R296). -/
def execAndSr (d a b : BitVec 6) (s : State) : Out := scalarSR s d a b (· &&& ·)
/-- `OR sd, sa, sb` (R371). -/
def execOrSr (d a b : BitVec 6) (s : State) : Out := scalarSR s d a b (· ||| ·)
/-- `XOR sd, sa, sb` (R415). -/
def execXorSr (d a b : BitVec 6) (s : State) : Out := scalarSR s d a b (· ^^^ ·)
/-- `ANDN sd, sa, sb` (R296). -/
def execAndnSr (d a b : BitVec 6) (s : State) : Out := scalarSR s d a b (fun x y => x &&& ~~~y)
/-- `SHL sd, sa, sb` (R395). -/
def execShlSr (d a b : BitVec 6) (s : State) : Out := scalarSR s d a b shiftLeft
/-- `SHR sd, sa, sb` (R395). -/
def execShrSr (d a b : BitVec 6) (s : State) : Out := scalarSR s d a b shiftRight
/-- `SRA sd, sa, sb` (R395). -/
def execSraSr (d a b : BitVec 6) (s : State) : Out := scalarSR s d a b shiftArith
/-- `IMIN sd, sa, sb` (R347). -/
def execIminSr (d a b : BitVec 6) (s : State) : Out := scalarSR s d a b sMin
/-- `IMAX sd, sa, sb` (R347). -/
def execImaxSr (d a b : BitVec 6) (s : State) : Out := scalarSR s d a b sMax
/-- `IMIN.U sd, sa, sb` (R347). -/
def execIminUSr (d a b : BitVec 6) (s : State) : Out := scalarSR s d a b uMin
/-- `IMAX.U sd, sa, sb` (R347). -/
def execImaxUSr (d a b : BitVec 6) (s : State) : Out := scalarSR s d a b uMax
/-- `SLT sd, sa, sb` (R397). -/
def execSltSr (d a b : BitVec 6) (s : State) : Out := scalarSR s d a b setLess
/-- `SLT.U sd, sa, sb` (R397). -/
def execSltUSr (d a b : BitVec 6) (s : State) : Out := scalarSR s d a b setLessU
/-- `IDIVU` (R105, R347). -/
def execIdivu (d a b : BitVec 6) (s : State) : Out := scalarSR s d a b divU
/-- `IREMU` (R105, R347). -/
def execIremu (d a b : BitVec 6) (s : State) : Out := scalarSR s d a b remU
/-- `IADD.64` (R347). -/
def execIadd64 (d a b : BitVec 6) (s : State) : Out := scalarSR64 s d a b (· + ·)
/-- `ISUB.64` (R347). -/
def execIsub64 (d a b : BitVec 6) (s : State) : Out := scalarSR64 s d a b (· - ·)

/-! ### Scalar with an immediate (SI, SL) -/

/-- `IADD sd, sa, imm` (R347). -/
def execIaddSi (d a : BitVec 6) (i : BitVec 10) (s : State) : Out := scalarSI s d a i (· + ·)
/-- `AND sd, sa, imm` (R296). -/
def execAndSi (d a : BitVec 6) (i : BitVec 10) (s : State) : Out := scalarSI s d a i (· &&& ·)
/-- `OR sd, sa, imm` (R371). -/
def execOrSi (d a : BitVec 6) (i : BitVec 10) (s : State) : Out := scalarSI s d a i (· ||| ·)
/-- `XOR sd, sa, imm` (R415). -/
def execXorSi (d a : BitVec 6) (i : BitVec 10) (s : State) : Out := scalarSI s d a i (· ^^^ ·)
/-- `SHL sd, sa, imm` (R395). -/
def execShlSi (d a : BitVec 6) (i : BitVec 10) (s : State) : Out := scalarSI s d a i shiftLeft
/-- `SHR sd, sa, imm` (R395). -/
def execShrSi (d a : BitVec 6) (i : BitVec 10) (s : State) : Out := scalarSI s d a i shiftRight
/-- `SRA sd, sa, imm` (R395). -/
def execSraSi (d a : BitVec 6) (i : BitVec 10) (s : State) : Out := scalarSI s d a i shiftArith
/-- `SLT sd, sa, imm` (R397). -/
def execSltSi (d a : BitVec 6) (i : BitVec 10) (s : State) : Out := scalarSI s d a i setLess
/-- `LUI sd, imm` (R366). -/
def execLui (d : BitVec 6) (i : BitVec 19) (s : State) : Out :=
  onTeam s fun t => t.putS [] d.toNat (i.setWidth 32 <<< 13)

/-! ### Vector, register and register (VR of major 0x08) -/

/-- `IADD vd, va, vb` (R347). -/
def execIaddVr (d a b : BitVec 7) (s : State) : Out := lanesVR s d a b (· + ·)
/-- `ISUB vd, va, vb` (R347). -/
def execIsubVr (d a b : BitVec 7) (s : State) : Out := lanesVR s d a b (· - ·)
/-- `IMUL vd, va, vb` (R347). -/
def execImulVr (d a b : BitVec 7) (s : State) : Out := lanesVR s d a b (· * ·)
/-- `IMULH vd, va, vb` (R347). -/
def execImulhVr (d a b : BitVec 7) (s : State) : Out := lanesVR s d a b mulHigh
/-- `IMULH.U vd, va, vb` (R347). -/
def execImulhUVr (d a b : BitVec 7) (s : State) : Out := lanesVR s d a b mulHighU
/-- `AND vd, va, vb` (R296). -/
def execAndVr (d a b : BitVec 7) (s : State) : Out := lanesVR s d a b (· &&& ·)
/-- `OR vd, va, vb` (R371). -/
def execOrVr (d a b : BitVec 7) (s : State) : Out := lanesVR s d a b (· ||| ·)
/-- `XOR vd, va, vb` (R415). -/
def execXorVr (d a b : BitVec 7) (s : State) : Out := lanesVR s d a b (· ^^^ ·)
/-- `ANDN vd, va, vb` (R296). -/
def execAndnVr (d a b : BitVec 7) (s : State) : Out := lanesVR s d a b (fun x y => x &&& ~~~y)
/-- `SHL vd, va, vb` (R395). -/
def execShlVr (d a b : BitVec 7) (s : State) : Out := lanesVR s d a b shiftLeft
/-- `SHR vd, va, vb` (R395). -/
def execShrVr (d a b : BitVec 7) (s : State) : Out := lanesVR s d a b shiftRight
/-- `SRA vd, va, vb` (R395). -/
def execSraVr (d a b : BitVec 7) (s : State) : Out := lanesVR s d a b shiftArith
/-- `IMIN vd, va, vb` (R347). -/
def execIminVr (d a b : BitVec 7) (s : State) : Out := lanesVR s d a b sMin
/-- `IMAX vd, va, vb` (R347). -/
def execImaxVr (d a b : BitVec 7) (s : State) : Out := lanesVR s d a b sMax
/-- `IMIN.U vd, va, vb` (R347). -/
def execIminUVr (d a b : BitVec 7) (s : State) : Out := lanesVR s d a b uMin
/-- `IMAX.U vd, va, vb` (R347). -/
def execImaxUVr (d a b : BitVec 7) (s : State) : Out := lanesVR s d a b uMax

/-! ### Vector with an immediate or a scalar (VI, VS, VL) -/

/-- `IADD vd, va, imm` (R347). -/
def execIaddVi (d a : BitVec 7) (i : BitVec 9) (s : State) : Out := lanesVI s d a (i.signExtend 32) (· + ·)
/-- `AND vd, va, imm` (R296). -/
def execAndVi (d a : BitVec 7) (i : BitVec 9) (s : State) : Out := lanesVI s d a (i.signExtend 32) (· &&& ·)
/-- `SHL vd, va, imm` (R395). -/
def execShlVi (d a : BitVec 7) (i : BitVec 9) (s : State) : Out := lanesVI s d a (i.signExtend 32) shiftLeft
/-- `SHR vd, va, imm` (R395). -/
def execShrVi (d a : BitVec 7) (i : BitVec 9) (s : State) : Out := lanesVI s d a (i.signExtend 32) shiftRight
/-- `IADD vd, va, sb` (R347). -/
def execIaddVs (d a : BitVec 7) (sb : BitVec 6) (s : State) : Out := lanesVS s d a sb (· + ·)
/-- `IMUL vd, va, sb` (R347). -/
def execImulVs (d a : BitVec 7) (sb : BitVec 6) (s : State) : Out := lanesVS s d a sb (· * ·)
/-- `LI vd, imm` (R361). -/
def execLi (d : BitVec 7) (i : BitVec 18) (s : State) : Out :=
  onTeam s fun t => t.putLanes (fun _ => []) [] d.toNat fun _ => i.signExtend 32
/-- `BCAST vd, sb` (R305). -/
def execBcast (d : BitVec 7) (sb : BitVec 6) (s : State) : Out :=
  onTeam s fun t => t.putLanes (fun _ => []) [sb.toNat] d.toNat fun _ => t.readS s.tick sb.toNat
/-- `POPC vd, va` (R373). -/
def execPopc (d a : BitVec 7) (s : State) : Out := lanesV s d a popCount
/-- `CLZ vd, va` (R313). -/
def execClz (d a : BitVec 7) (s : State) : Out := lanesV s d a leadingZeros
/-- `SEL vd, va, vb, k` (R391). -/
def execSel (d a b : BitVec 7) (k : BitVec 4) (s : State) : Out :=
  onTeam s fun t =>
    let m := t.readK k.toNat
    let src := fun l => if m.getLsbD l then a.toNat else b.toNat
    t.putLanes (fun l => [(src l, l)]) [] d.toNat fun l => t.readV s.tick (src l) l

/-! ### Identifiers and random numbers (R56, R124, R355, R379) -/

/-- The logical lane id of a lane (R56): its home team and home lane while regrouped. -/
def laneId (s : State) (t : Team) (l : Nat) : Word :=
  match s.blockOf t with
  | none => BitVec.ofNat 32 l
  | some b =>
    let home := if b.regrouped then (t.homes.find l).getD (t.number, l) else (t.number, l)
    BitVec.ofNat 32 ((b.index * b.nteams + home.1) * b.lanes + home.2)

/-- `LANEID vd, sb` (R355). -/
def execLaneid (d : BitVec 7) (sb : BitVec 6) (s : State) : Out :=
  onTeam s fun t => t.putLanes (fun _ => []) [sb.toNat] d.toNat fun l => laneId s t l + t.readS s.tick sb.toNat

/-- The mixing of R124. -/
def randMix (key : BitVec 64) (id draw : Word) : Word :=
  let z := key ^^^ (id ++ draw)
  let z := (z ^^^ (z >>> 30)) * 0xBF58476D1CE4E5B9#64
  let z := (z ^^^ (z >>> 27)) * 0x94D049BB133111EB#64
  (z ^^^ (z >>> 31)).setWidth 32

/-- The key of a team's launch (R124). -/
def randKey (s : State) (t : Team) : BitVec 64 :=
  match s.launchOf t with
  | none => 0#64
  | some l => l.seed ^^^ (l.id * 0x9E3779B97F4A7C15#64)

/-- `RAND vd, sb` (R124, R379). -/
def execRand (d : BitVec 7) (sb : BitVec 6) (s : State) : Out :=
  onTeam s fun t =>
    t.putLanes (fun _ => []) [sb.toNat] d.toNat fun l => randMix (randKey s t) (laneId s t l) (t.readS s.tick sb.toNat)

end Sys2Proof.Machine
end

