-- ==== Sys2Proof/Machine/CrossLane.lean ====
section
/-! DEFINITION. Cross-lane instructions: quads, shuffles, reductions, scans, sampling, ballots and votes (R54, R55, R119, R123,
R126, R301, R350, R376–R378, R381–R383, R389, R390, R394). -/

namespace Sys2Proof.Machine

/-! ### Quads -/

/-- A quad move: lane L takes va of lane `src L`, whatever that lane's state (R377). -/
def quadMove (s : State) (d a : Nat) (src : Nat → Nat) : Out :=
  onTeam s fun t => t.putLanes (fun l => [(a, src l)]) [] d fun l => t.readV s.tick a (src l)

/-- `QSWAP` (R377). -/
def execQswap (d a : BitVec 7) (i : BitVec 2) (s : State) : Out :=
  quadMove s d.toNat a.toNat fun l => l / 4 * 4 + ((l % 4) ^^^ (i.toNat + 1))
/-- `QBC` (R377). -/
def execQbc (d a : BitVec 7) (i : BitVec 2) (s : State) : Out :=
  quadMove s d.toNat a.toNat fun l => l / 4 * 4 + i.toNat

/-- Two roundings' results with the flags of both. -/
def addWith (x y : Word × FpFlags) : Word × FpFlags :=
  let r := f32Add .rne x.1 y.1
  (r.1, r.2 ||| x.2 ||| y.2)

/-- `FMAX` or `FMIN` of two with the flags of both. -/
def minmaxWith (wantMax : Bool) (x y : Word × FpFlags) : Word × FpFlags :=
  let r := FpFmt.f32.minmax wantMax false x.1.toNat y.1.toNat
  (BitVec.ofNat 32 r.1, r.2 ||| x.2 ||| y.2)

/-- The reduction of a quad's four values (R377). -/
def quadReduce (op : Nat) (x : Nat → Word) : Word × FpFlags :=
  let p := fun i => (x i, (0#5 : FpFlags))
  match op with
  | 0 => addWith (addWith (p 0) (p 1)) (addWith (p 2) (p 3))
  | 1 => minmaxWith true (minmaxWith true (minmaxWith true (p 0) (p 1)) (p 2)) (p 3)
  | 2 => minmaxWith false (minmaxWith false (minmaxWith false (p 0) (p 1)) (p 2)) (p 3)
  | _ => (x 0 + x 1 + x 2 + x 3, 0#5)

/-- The identity of a quad reduction (R377). -/
def quadIdentity (op : Nat) : Word :=
  match op with
  | 0 => 0x80000000#32
  | 1 => 0xFF800000#32
  | 2 => 0x7F800000#32
  | _ => 0#32

/-- `QRED` (R377): the quad's active and helper lanes contribute. -/
def execQred (d a : BitVec 7) (i : BitVec 2) (s : State) : Out :=
  fpLanes s (fun l => (List.range 4).map fun j => (a.toNat, l / 4 * 4 + j)) [] d.toNat fun t l =>
    quadReduce i.toNat fun j =>
      let lane := l / 4 * 4 + j
      if t.computing.getLsbD lane then t.readV s.tick a.toNat lane else quadIdentity i.toNat

/-- `QFILL` (R378): it acts after its chain. -/
def execQfill (s : State) : Out :=
  onTeam s fun t => if t.acting = 0#1024 then t else t.modRun fun r => { r with fills := true }

/-! ### Shuffles (R393, R394) -/

/-- A shuffle: lane at tile index i of n takes the tile lane `j i n`, zero or its own value outside the tile. -/
def shuffle (s : State) (d a : Nat) (src : List Nat) (vs : List Nat) (fill : Bool) (j : Team → Nat → Nat → Nat → Int) : Out :=
  onTeam s fun t =>
    let n := t.tileSize
    let from' := fun l =>
      let i := l - t.tileBase l
      let x := j t l i n
      if 0 ≤ x ∧ x < n then some (t.tileBase l + x.toNat) else if fill then none else some l
    let reads := fun l => ((from' l).map fun x => (a, x)).toList ++ ownLane vs l
    t.putLanes reads src d fun l =>
      match from' l with
      | some x => t.readV s.tick a x
      | none => 0#32

/-- `SHFL.AT` (R393). -/
def execShflAt (d a : BitVec 7) (sb : BitVec 6) (s : State) : Out :=
  shuffle s d.toNat a.toNat [sb.toNat] [] false fun t _ _ n => ((t.readS s.tick sb.toNat).toNat % n : Nat)
/-- `SHFL.ROT` (R393). -/
def execShflRot (d a : BitVec 7) (sb : BitVec 6) (s : State) : Out :=
  shuffle s d.toNat a.toNat [sb.toNat] [] false fun t _ i n => Int.fmod ((i : Int) - (t.readS s.tick sb.toNat).toInt) n
/-- `SHFL.SHIFT` (R393). -/
def execShflShift (d a : BitVec 7) (sb : BitVec 6) (s : State) : Out :=
  shuffle s d.toNat a.toNat [sb.toNat] [] true fun t _ i _ => (i : Int) - (t.readS s.tick sb.toNat).toInt
/-- `SHFL.MIRR` (R393). -/
def execShflMirr (d a : BitVec 7) (sb : BitVec 6) (s : State) : Out :=
  shuffle s d.toNat a.toNat [sb.toNat] [] false fun t _ i n => (i ^^^ ((t.readS s.tick sb.toNat).toNat % n) : Nat)
/-- `SHFL.VAR` (R393). -/
def execShflVar (d a b : BitVec 7) (s : State) : Out :=
  shuffle s d.toNat a.toNat [] [b.toNat] false fun t l _ n => ((t.readV s.tick b.toNat l).toNat % n : Nat)

/-! ### Reductions and scans (R119, R123, R382, R383, R390) -/

/-- The elements of va that a lane's reduction reads: those of its tile's contributing lanes. -/
def tileReads (a : Nat) (t : Team) (l : Nat) : List (Nat × Nat) := (t.tileActing l).map fun i => (a, i)

/-- An integer reduction over the contributing lanes of each tile. -/
def tileFold (s : State) (d a : Nat) (f : Word → Word → Word) : Out :=
  onTeam s fun t =>
    t.putActive (tileReads a t) [] d fun l =>
      match (t.tileActing l).map fun i => t.readV s.tick a i with
      | [] => 0#32
      | x :: xs => xs.foldl f x

/-- Sums of adjacent values with their flags. -/
def pairSums : List Word → List Word × FpFlags
  | x :: y :: rest =>
    let r := f32Add .rne x y
    let q := pairSums rest
    (r.1 :: q.1, r.2 ||| q.2)
  | xs => (xs, 0#5)

/-- The pairwise tree of R119 over a list padded to a power of two; `levels` is its logarithm. -/
def treeSum : Nat → List Word → Word × FpFlags
  | 0, xs => (xs.headD 0x80000000#32, 0#5)
  | n + 1, xs =>
    let p := pairSums xs
    let r := treeSum n p.1
    (r.1, p.2 ||| r.2)

/-- The least `k` with n ≤ 2^k. -/
def log2Up (n : Nat) : Nat := if n ≤ 1 then 0 else Nat.log2 (n - 1) + 1

/-- The values that the tree of a tile takes: −0 where a lane does not contribute or lies above `upTo` (R119). -/
def treeInputs (s : State) (t : Team) (a l upTo : Nat) : List Word :=
  (List.range (2 ^ log2Up t.tileSize)).map fun i =>
    let lane := t.tileBase l + i
    if i < t.tileSize ∧ i ≤ upTo ∧ t.acting.getLsbD lane then t.readV s.tick a lane else 0x80000000#32

/-- The extreme of the contributing values: the canonical NaN when one is a NaN (R383). -/
def tileExtreme (wantMax : Bool) (xs : List Word) : Word × FpFlags :=
  let fl := flagIf (xs.any fun x => (FpFmt.f32.read x.toNat).signalling) flagInvalid
  if xs.any isNan32 then (0x7FC00000#32, fl)
  else
    match xs with
    | [] => (0#32, 0#5)
    | x :: rest => (rest.foldl (fun m y => BitVec.ofNat 32 (FpFmt.f32.minmax wantMax false m.toNat y.toNat).1) x, fl)

/-- The winner among (key, pattern, index) candidates in lane order: greatest or least key, lowest index, lowest lane (R123,
R383). -/
def keyWinner (wantMax : Bool) (xs : List (Word × Word × Word)) : Word × Word :=
  match xs with
  | [] => (0#32, 0#32)
  | x :: rest =>
    (rest.foldl
      (fun (b : Word × Word × Word) y =>
        let better := if wantMax then b.1.ult y.1 else y.1.ult b.1
        if better || (y.1 == b.1 && y.2.2.ult b.2.2) then y else b)
      x).2

/-- An indexed reduction: value to vd, index to vd + 1. -/
def indexedReduce (s : State) (d a b : Nat) (wantMax : Bool) (value key : Word → Word) : Out :=
  onTeam s fun t =>
    let reads := fun l => tileReads a t l ++ tileReads b t l
    let win := fun l => keyWinner wantMax ((t.tileActing l).map fun i =>
      let x := t.readV s.tick a i
      (key x, value x, t.readV s.tick b i))
    let bad := t.taint reads []
    let ls := t.actingLanes.filter fun l => !bad.getLsbD l
    ((t.consume bad).writeV d ls fun l => (win l).1).writeV (d + 1) ls fun l => (win l).2

/-- `RED.ADD.I` (R382). -/
def execRedAddI (d a : BitVec 7) (s : State) : Out := tileFold s d.toNat a.toNat (· + ·)
/-- `RED.MAX.I` (R382). -/
def execRedMaxI (d a : BitVec 7) (s : State) : Out := tileFold s d.toNat a.toNat sMax
/-- `RED.MIN.I` (R382). -/
def execRedMinI (d a : BitVec 7) (s : State) : Out := tileFold s d.toNat a.toNat sMin
/-- `RED.ADD.F` (R119, R383). -/
def execRedAddF (d a : BitVec 7) (s : State) : Out :=
  fpTiles s (tileReads a.toNat) d.toNat fun t l => treeSum (log2Up t.tileSize) (treeInputs s t a.toNat l t.tileSize)
/-- `RED.MAX.F` (R383). -/
def execRedMaxF (d a : BitVec 7) (s : State) : Out :=
  fpTiles s (tileReads a.toNat) d.toNat fun t l => tileExtreme true ((t.tileActing l).map fun i => t.readV s.tick a.toNat i)
/-- `RED.MIN.F` (R383). -/
def execRedMinF (d a : BitVec 7) (s : State) : Out :=
  fpTiles s (tileReads a.toNat) d.toNat fun t l => tileExtreme false ((t.tileActing l).map fun i => t.readV s.tick a.toNat i)
/-- `RED.MAXIX.F` (R123, R383). -/
def execRedMaxixF (d a b : BitVec 7) (s : State) : Out := indexedReduce s d.toNat a.toNat b.toNat true id key32
/-- `RED.MINIX.F` (R123, R383). -/
def execRedMinixF (d a b : BitVec 7) (s : State) : Out := indexedReduce s d.toNat a.toNat b.toNat false id key32
/-- `RED.MAXIX.H` (R123, R383). -/
def execRedMaxixH (d a b : BitVec 7) (s : State) : Out :=
  indexedReduce s d.toNat a.toNat b.toNat true (fun x => (lowHalf x).setWidth 32) fun x =>
    key32 (widenHalf .fp16 (lowHalf x)).1

/-- `SCAN.ADD.I` (R390). -/
def execScanAddI (d a : BitVec 7) (s : State) : Out :=
  onTeam s fun t =>
    let below := fun l => (t.tileActing l).filter fun i => decide (i ≤ l)
    t.putActive (fun l => (below l).map fun i => (a.toNat, i)) [] d.toNat fun l =>
      (below l).foldl (fun w i => w + t.readV s.tick a.toNat i) 0#32
/-- `SCAN.ADD.F` (R119, R390). -/
def execScanAddF (d a : BitVec 7) (s : State) : Out :=
  fpTiles s (fun t l => (tileReads a.toNat t l).filter fun x => decide (x.2 ≤ l)) d.toNat fun t l =>
    treeSum (log2Up t.tileSize) (treeInputs s t a.toNat l (l - t.tileBase l))

/-! ### Sampling (R126, R389) -/

/-- A weight in units of 2^−149; none for +∞; zero, negatives and NaN count 0 (R126). -/
def sampleWeight (w : Word) : Option Nat :=
  match FpFmt.f32.read w.toNat with
  | .nan _ => some 0
  | .inf n => if n then some 0 else none
  | .fin n m e => if n then some 0 else some (m * 2 ^ (e + 149).toNat)

/-- The least position whose inclusive prefix exceeds the threshold, times 2^32. -/
def sampleAt (limit : Nat) : Nat → Nat → List Nat → Int
  | _, _, [] => -1
  | i, sum, w :: ws => if limit < (sum + w) * 2 ^ 32 then i else sampleAt limit (i + 1) (sum + w) ws

/-- The result of a tile (R126). -/
def samplePick (ws : List (Option Nat)) (u : Nat) : Int :=
  match ws.findIdx? Option.isNone with
  | some i => i
  | none =>
    let xs := ws.map fun w => w.getD 0
    let total := xs.foldl (· + ·) 0
    if total = 0 then -1 else sampleAt (total * u) 0 0 xs

/-- `SAMP` (R389). -/
def execSamp (d a : BitVec 7) (sb : BitVec 6) (s : State) : Out :=
  onTeam s fun t =>
    t.putActive (tileReads a.toNat t) [sb.toNat] d.toNat fun l =>
      BitVec.ofInt 32 (samplePick
        ((t.tileLanes l).map fun i => if t.acting.getLsbD i then sampleWeight (t.readV s.tick a.toNat i) else some 0)
        (t.readS s.tick sb.toNat).toNat)

/-! ### One lane to a scalar (R381) -/

/-- `RDLANE` (R381): counted on SETA when the lane lies in word 1 or above. -/
def execRdlane (d : BitVec 6) (a : BitVec 7) (sb : BitVec 6) (s : State) : Out :=
  match s.team s.cur with
  | none => .next s
  | some t =>
    let l := (t.readS s.tick sb.toNat).toNat
    if t.acting = 0#1024 then .next s
    else if t.poisonS sb.toNat then .next (s.setTeam s.cur (t.consume t.acting))
    else if t.lanes ≤ l then .next (s.setTeam s.cur t.illegalOp)
    else if t.poisonV a.toNat l then .next (s.setTeam s.cur (t.consume t.acting))
    else
      let w := t.readV s.tick a.toNat l
      if l < 32 then .next (s.setTeam s.cur (t.writeS d.toNat w))
      else if t.flagFull true then .next (stallInstr s)
      else .next (s.setTeam s.cur
        (t.issueA s.tick [] (if d = 0#6 then [] else [(sKey t.mode d.toNat, w, false)]) 0#5))

/-! ### Ballot and votes (R301, R350) -/

/-- `BALLOT` (R301): the group is the tile when it holds at most 32 lanes, else the lane's word. -/
def execBallot (d : BitVec 7) (a : BitVec 4) (s : State) : Out :=
  onTeam s fun t =>
    let m := t.readK a.toNat &&& t.acting
    let n := min t.tileSize 32
    t.putActive (fun _ => []) [] d.toNat fun l =>
      (m >>> (l / n * n)).setWidth 32 &&& BitVec.ofNat 32 (2 ^ n - 1)

/-- The voting lanes of a lane's tile whose bit of ka is set (R350). -/
def Team.voters (t : Team) (a l : Nat) : List Nat := (t.tileActing l).filter fun i => (t.readK a).getLsbD i

/-- `KANY` (R350). -/
def execKany (a k : BitVec 4) (s : State) : Out := maskForm s k.toNat fun t l => !(t.voters a.toNat l).isEmpty
/-- `KALL` (R350). -/
def execKall (a k : BitVec 4) (s : State) : Out :=
  maskForm s k.toNat fun t l => (t.voters a.toNat l).length == (t.tileActing l).length
/-- `KPOP` (R350). -/
def execKpop (a k : BitVec 4) (s : State) : Out :=
  maskForm s k.toNat fun t l =>
    decide (((t.tileActing l).filter fun i => decide (i < l)).length < (t.voters a.toNat l).length)
/-- `KRANK` (R350). -/
def execKrank (d : BitVec 7) (a : BitVec 4) (s : State) : Out :=
  onTeam s fun t =>
    t.putActive (fun _ => []) [] d.toNat fun l =>
      BitVec.ofNat 32 ((t.voters a.toNat l).filter fun i => decide (i < l)).length

/-! ### Mask logic (R351–R353) -/

/-- `KAND` (R351). -/
def execKand (k a b : BitVec 4) (s : State) : Out :=
  maskForm s k.toNat fun t l => (t.readK a.toNat).getLsbD l && (t.readK b.toNat).getLsbD l
/-- `KOR` (R351). -/
def execKor (k a b : BitVec 4) (s : State) : Out :=
  maskForm s k.toNat fun t l => (t.readK a.toNat).getLsbD l || (t.readK b.toNat).getLsbD l
/-- `KXOR` (R351). -/
def execKxor (k a b : BitVec 4) (s : State) : Out :=
  maskForm s k.toNat fun t l => (t.readK a.toNat).getLsbD l != (t.readK b.toNat).getLsbD l
/-- `KANDN` (R351). -/
def execKandn (k a b : BitVec 4) (s : State) : Out :=
  maskForm s k.toNat fun t l => (t.readK a.toNat).getLsbD l && !(t.readK b.toNat).getLsbD l
/-- `KNOT` (R351). -/
def execKnot (k a : BitVec 4) (s : State) : Out := maskForm s k.toNat fun t l => !(t.readK a.toNat).getLsbD l
/-- `KMOV` (R351). -/
def execKmov (k a : BitVec 4) (s : State) : Out := maskForm s k.toNat fun t l => (t.readK a.toNat).getLsbD l
/-- `KSET` (R351). -/
def execKset (k : BitVec 4) (s : State) : Out := maskForm s k.toNat fun _ _ => true
/-- `KCLR` (R351). -/
def execKclr (k : BitVec 4) (s : State) : Out := maskForm s k.toNat fun _ _ => false
/-- `KFROMV` (R351). -/
def execKfromv (k : BitVec 4) (v : BitVec 7) (s : State) : Out :=
  onTeam s fun t => t.putMask (ownLane [v.toNat]) k.toNat fun l => t.readV s.tick v.toNat l != 0#32
/-- `KBIT` (R353). -/
def execKbit (k : BitVec 4) (a : BitVec 7) (n : BitVec 5) (s : State) : Out :=
  onTeam s fun t => t.putMask (ownLane [a.toNat]) k.toNat fun l => (t.readV s.tick a.toNat l).getLsbD n.toNat

end Sys2Proof.Machine
end

