-- ==== Sys2Proof/Machine/System.lean ====
section
/-! DEFINITION. The special registers `GETS` reads (R91, R92), the privileged registers (R94–R96, R342, R392), the calls and
returns (R102, R103, R343, R405), and `TLBI` (R140, R411). -/

namespace Sys2Proof.Machine

/-! ### `GETS` (R91, R92, R341) -/

/-- `FFLAGS` as it is read: the flags of an outstanding operation are in it or not, the choice free (R110, log entry 2). -/
def Team.readFlags (t : Team) (n : Nat) : BitVec 5 :=
  t.ops.foldl (fun f o => if o.fflags ≠ 0#5 && Config.pickNew n (4194304 + o.num) then f ||| o.fflags else f) t.regs.fflags

/-- A cycle budget as 32 bits: all ones for one never decremented; what the manual does not state for a larger one is free. -/
def budgetWord (n : Nat) (b : BitVec 64) : Word :=
  if b.toNat < 2 ^ 32 then b.setWidth 32 else if b = BitVec.allOnes 64 then 0xFFFFFFFF#32 else Config.freeWord n 12

/-- The value of a `GETS` id that needs no latch. -/
def specialValue (s : State) (k : Nat) (t : Team) (id : Nat) : Word :=
  let b := s.blockOf t
  let l := s.launchOf t
  match id with
  | 0 => BitVec.ofNat 32 t.lanes
  | 1 => BitVec.ofNat 32 t.number
  | 2 => BitVec.ofNat 32 ((b.map (·.index)).getD 0)
  | 3 => BitVec.ofNat 32 (coreOfTeam k)
  | 4 => BitVec.ofNat 32 (clusterOf (coreOfTeam k))
  | 5 => s.hub.device.setWidth 32
  | 6 => BitVec.ofNat 32 ((l.map Launch.node).getD 0)
  | 7 => ((l.map Launch.id).getD 0#64).setWidth 32
  | 12 => BitVec.ofNat 32 t.lclk
  | 13 => (l.map fun x => budgetWord s.tick x.budget).getD 0
  | 14 => (t.readFlags s.tick).setWidth 32
  | 15 => t.view.part.setWidth 32
  | 16 => BitVec.ofNat 32 t.waitCause
  | 17 => BitVec.ofNat 32 ((b.map (·.nteams)).getD 0)
  | 18 => BitVec.ofNat 32 ((l.map (·.nblocks)).getD 0)
  | 19 => match t.region with
    | some r => r.id.setWidth 32
    | none => 0xFFFFFFFF#32
  | 20 => BitVec.ofNat 32 t.depth
  | _ => 0#32

/-- A counter read in halves: the low read latches the high half, the high read takes a pending latch (R92). -/
def Team.readCounter (t : Team) (d which counter : Nat) (high : Bool) : Team :=
  let key := 2 * t.mode.code + which
  let live := BitVec.ofNat 32 (counter / 2 ^ 32)
  if high then { t with clkLatch := t.clkLatch.drop key }.writeS d ((t.clkLatch.find key).getD live)
  else { t with clkLatch := t.clkLatch.put key live }.writeS d (BitVec.ofNat 32 counter)

/-- `GETS`. -/
def execGets (d : BitVec 6) (n : BitVec 8) (s : State) : Out :=
  onTeam s fun t => t.once [] fun t =>
    match n.toNat with
    | 8 => t.readCounter d.toNat 0 s.cycles false
    | 9 => t.readCounter d.toNat 0 s.cycles true
    | 10 => t.readCounter d.toNat 1 s.time false
    | 11 => t.readCounter d.toNat 1 s.time true
    | id => t.writeS d.toNat (specialValue s s.cur t id)

/-! ### Privileged registers (R94) -/

/-- The registers of class U and of class H; every other is of class S. -/
def userXid (x : Nat) : Bool := x == 0x001 || x == 0x002
def hyperXid (x : Nat) : Bool := [0x016, 0x017, 0x01A, 0x01B, 0x01E, 0x01F, 0x024, 0x025, 0x040].contains x

/-- A mode may reach a register. -/
def Mode.reaches (m : Mode) (x : Nat) : Bool :=
  match m with
  | .u => userXid x
  | .s => !hyperXid x
  | .h => true

/-- The low xids of the registers of 64 bits. -/
def wideXid (x : Nat) : Bool := [0x014, 0x016, 0x018, 0x01A, 0x01C, 0x01E, 0x022, 0x024, 0x030, 0x034].contains x

/-- The reads that are counted on SETA (R65). -/
def slowXid (x : Nat) : Bool := [0x030, 0x031, 0x032, 0x034, 0x035, 0x036, 0x037, 0x040, 0x041].contains x

/-- The even xid of a register and whether the `.HI` half is meant. -/
def splitXid (x : Nat) : Nat × Bool := if wideXid (x - 1) && x % 2 == 1 then (x - 1, true) else (x, false)

/-- The team's stack pointer of the mode it is in. -/
def Team.stackPointer (t : Team) : Nat := (if t.mode = .h then t.xhtsp else t.xtsp).toNat

/-- The value of a register that no frame holds. -/
def privilegedValue (s : State) (k : Nat) (t : Team) (x : Nat) : BitVec 64 :=
  let cx := s.context (s.ctxOf t)
  let l := s.launchOf t
  let q := s.queue ((l.map (·.queue)).getD 0)
  match x with
  | 0x000 => BitVec.ofNat 64 t.mode.code
  | 0x001 => t.view.part.setWidth 64
  | 0x002 => (t.readFlags s.tick).setWidth 64
  | 0x012 => BitVec.ofNat 64 t.depth
  | 0x014 => cx.xvect
  | 0x016 => cx.xhvect
  | 0x018 => t.xtsp
  | 0x01A => t.xhtsp
  | 0x01C => cx.xtsbase
  | 0x01E => cx.xhtsbase
  | 0x020 => cx.xasid.setWidth 64
  | 0x022 => cx.xptb
  | 0x024 => cx.xstg2
  | 0x030 => cx.xseed
  | 0x032 => ((l.map fun x => budgetWord s.tick x.budget).getD 0).setWidth 64
  | 0x034 => (l.map (·.deadline)).getD 0
  | 0x036 => q.lo.setWidth 64
  | 0x037 => q.hi.setWidth 64
  | 0x040 => (s.core (coreOfTeam k)).lanemap.setWidth 64
  | 0x041 => (s.cluster (clusterOf (coreOfTeam k))).rowmap.setWidth 64
  | _ => 0

/-- A word of the top frame (R100), or the resume point and cause of a `DOUBLE` in force (R101). -/
def frameWord (s : State) (k : Nat) (t : Team) (off : Nat) : State × Except (Nat × Bool × Nat) Word :=
  match t.double with
  | some d => (s, .ok (BitVec.ofNat 32 (if off = 0 then d.resume else 23)))
  | none =>
    if t.depth = 0 then (s, .ok 0)
    else
      let r := loadSpan s k t.mode (t.stackPointer + off) 4
      (r.1, r.2.map fun bs => BitVec.ofNat 32 (leNat bs))

/-- Read a register into a scalar, with the latch of R96. -/
def Team.readXid (t : Team) (n d x : Nat) (v : BitVec 64) : Team :=
  let (low, high) := splitXid x
  let key := 4096 * t.mode.code + low
  let live := (v >>> 32).setWidth 32
  let w := if high then (t.xLatch.find key).getD live else v.setWidth 32
  let t := if high then { t with xLatch := t.xLatch.drop key }
    else if wideXid low then { t with xLatch := t.xLatch.put key live } else t
  if slowXid x then
    -- the high half lands no earlier than the low half whose latch it takes (R96)
    let order := 1048576 + key
    let t := if high then (match t.xLatch.find order with
      | some o => t.finishOp n o.toNat
      | none => t) else t
    let num := t.nextOp
    let t := t.issueA n [] (if d = 0 then [] else [(sKey t.mode d, w, false)]) 0
    if high then t else { t with xLatch := t.xLatch.put order (BitVec.ofNat 32 num) }
  else t.writeS d w

/-- `GETX`. -/
def execGetx (sb : BitVec 6) (x : BitVec 11) (s : State) : Out :=
  match s.team s.cur with
  | none => .next s
  | some t =>
    let k := s.cur
    let n := x.toNat
    if t.mute then .next s
    else if !t.mode.reaches n then onTeam s fun t => t.raiseAll 5 (BitVec.ofNat 32 n)
    else if slowXid n && t.flagFull true then .next (stallInstr s)
    else if n = 0x010 ∨ n = 0x011 then
      let r := frameWord s k t (if n = 0x010 then 0 else 4)
      match r.2 with
      | .ok w => onTeam r.1 fun t => t.writeS sb.toNat w
      | .error (c, st2, va) => onTeam r.1 fun t => t.raise t.trapSet c (if st2 then 4 else 0) va st2 0
    else onTeam s fun t => t.readXid s.tick sb.toNat n (privilegedValue s k t (splitXid n).1)

/-- The priority class of a launch from its slack (R201). -/
def slackClass (now : Nat) (l : Launch) : Nat :=
  let c :=
    if l.deadline = BitVec.allOnes 64 then 0
    else if l.deadline.toNat ≤ now then 3
    else if l.deadline.toNat ≤ now + 100000 then 2
    else if l.deadline.toNat ≤ now + 1000000 then 1
    else 0
  min c l.classMax

/-- Store a register's value with its effects (R96, R392). -/
def storeXid (s : State) (k : Nat) (t : Team) (x : Nat) (v : BitVec 64) : State :=
  let ctx := s.ctxOf t
  let n := (s.launchNo t).getD 0
  let q := ((s.launchOf t).map (·.queue)).getD 0
  match x with
  | 0x001 => s.modTeam k fun t => t.modRegs fun g => { g with part := v.setWidth 3 }
  | 0x002 =>
    -- an outstanding operation's flags may or may not stay in the final value (R110)
    s.modTeam k fun t => { t.modRegs fun g => { g with fflags := v.setWidth 5 } with
      ops := t.ops.map fun o => { o with dirty := 2097152 :: o.dirty } }
  | 0x014 => s.modContext ctx fun c => { c with xvect := v }
  | 0x016 => s.modContext ctx fun c => { c with xhvect := v }
  | 0x018 => s.modTeam k fun t => { t with xtsp := v }
  | 0x01A => s.modTeam k fun t => { t with xhtsp := v }
  | 0x01C => s.modContext ctx fun c => { c with xtsbase := v }
  | 0x01E => s.modContext ctx fun c => { c with xhtsbase := v }
  | 0x020 => s.modContext ctx fun c => { c with xasid := v.setWidth 16 }
  | 0x022 => s.modContext ctx fun c => { c with xptb := v }
  | 0x024 => s.modContext ctx fun c => { c with xstg2 := v }
  | 0x030 => s.modContext ctx fun c => { c with xseed := v }
  | 0x032 => s.modLaunch n fun l => { l with budget := (v.setWidth 32).setWidth 64, spent := l.spent && v.setWidth 32 == 0#32 }
  | 0x034 => s.modLaunch n fun l => { l with deadline := v, cls := slackClass s.time { l with deadline := v } }
  | 0x036 => s.setQueue q { s.queue q with lo := v.setWidth 32 }
  | 0x037 => s.setQueue q { s.queue q with hi := v.setWidth 32 }
  | 0x040 => s.modCore (coreOfTeam k) fun c => { c with newmap := some (v.setWidth 32 &&& 0x3F3F#32) }
  | _ => s

/-- The value checks of R392. -/
def xidValueOk (x : Nat) (v : BitVec 64) : Bool :=
  let lane := fun (f : Nat) => decide (f < 32 ∨ f = 63)
  match x with
  | 0x001 => decide (v.toNat % 8 < 6)
  | 0x040 => lane (v.toNat % 64) && lane (v.toNat / 256 % 64)
  | 0x014 => v.toNat % 64 == 0
  | 0x016 => v.toNat % 64 == 0
  | _ => true

/-- `SETX`. -/
def execSetx (sb : BitVec 6) (x : BitVec 11) (s : State) : Out :=
  match s.team s.cur with
  | none => .next s
  | some t =>
    let k := s.cur
    let n := x.toNat
    let w := t.readS s.tick sb.toNat
    let (low, high) := splitXid n
    if t.mute then .next s
    else if !t.mode.reaches n then onTeam s fun t => t.raiseAll 5 (BitVec.ofNat 32 n)
    else if t.taintS [sb.toNat] then onTeam s fun t => t.consume t.acting
    else if wideXid low && !high then onTeam s fun t => { t with xHold := t.xHold.put low w }
    else
      -- the manual states no low half for a high half written with none held: a free value
      let v := if high then pair64 ((t.xHold.find low).getD (Config.freeWord s.tick low)) w else w.setWidth 64
      if !xidValueOk low v then onTeam s Team.illegalOp
      else if low = 0x010 then
        if t.double.isSome || t.depth = 0 then .next s
        else
          let r := storeBytes s k t.mode t.stackPointer (leBytes 4 w.toNat) 3
          match r.2 with
          | none => .next r.1
          | some (c, st2) => onTeam r.1 fun t => t.raise t.trapSet c (if c = 11 then 0 else if st2 then 5 else 1) t.stackPointer st2 0
      else .next (storeXid s k t low v)

/-! ### Calls and returns -/

/-- `SYSC` (R405): `SYSCALL` in U, `PRIV` elsewhere; it closes its run. -/
def execSysc (i : BitVec 16) (s : State) : Out :=
  .next (finishInstr (s.modTeam s.cur fun t =>
    if t.mode = .u then t.raise t.trapSet 20 (i.setWidth 32) t.itemAddr false i else t.raiseAll 5 t.itemWord))

/-- `HCALL` (R343): taken in H from S, `PRIV` elsewhere; it closes its run. -/
def execHcall (i : BitVec 16) (s : State) : Out :=
  .next (finishInstr (s.modTeam s.cur fun t =>
    if t.mode = .s then t.raise t.trapSet 21 (i.setWidth 32) t.itemAddr true i else t.raiseAll 5 t.itemWord))

/-- `RETT` (R102, R387). -/
def execRett (s : State) : Out := .next (returnFromTrap s)

/-! ### Translations (R140, R411) -/

/-- Remove translations of a context from every core's and cluster's TLB. -/
def dropTranslations (s : State) (gone : TlbEntry → Bool) : State :=
  { s with
    cores := s.cores.map fun kc => (kc.1, { kc.2 with tlb := kc.2.tlb.filter fun e => !gone e })
    clusters := s.clusters.map fun kc => (kc.1, { kc.2 with tlb := kc.2.tlb.filter fun e => !gone e }) }

/-- An instruction legal in S and H (R86). -/
def privileged (s : State) (src : List Nat) (act : State → Team → Out) : Out :=
  match s.team s.cur with
  | none => .next s
  | some t =>
    if t.mute then .next s
    else if t.mode = .u then onTeam s fun t => t.raiseAll 5 t.itemWord
    else if t.taintS src then onTeam s fun t => t.consume t.acting
    else act s t

/-- `TLBI`. -/
def execTlbi (a : BitVec 6) (s : State) : Out :=
  privileged s [a.toNat, a.toNat + 1] fun s t =>
    let va := (t.readPair s.tick a.toNat).toNat
    let ctx := s.ctxOf t
    if 2 ^ 56 ≤ va then .next s
    else .next (dropTranslations s fun e => e.ctx == ctx && decide (e.base ≤ va ∧ va < e.base + 2 ^ e.bits))

/-- `TLBI.ALL`. -/
def execTlbiAll (s : State) : Out :=
  privileged s [] fun s t =>
    let ctx := s.ctxOf t
    let asid := (s.context ctx).xasid.toNat
    .next (dropTranslations s fun e => e.ctx == ctx && e.asid == asid)

end Sys2Proof.Machine
end

