-- ==== Sys2Proof/Machine/Elementary.lean ====
section
/-! DEFINITION. `EXP2`, `LOG2` and `TANH` to the bit (R122): the exact value is enclosed between two fixed-point numbers,
at rising precision, until both truncate to one result. -/

namespace Sys2Proof.Machine

/-- An enclosure: lower and upper bounds in units of 2^−p. -/
structure Enclosure where
  lo : Int
  hi : Int
  deriving DecidableEq, Repr

/-- Floor and ceiling quotients by a positive number. -/
def floorDiv (a : Int) (b : Nat) : Int := Int.fdiv a b
def ceilDiv (a : Int) (b : Nat) : Int := -(Int.fdiv (-a) b)

/-- The product of two enclosures of non-negative numbers. -/
def Enclosure.mul (p : Nat) (a b : Enclosure) : Enclosure :=
  ⟨floorDiv (a.lo * b.lo) (2 ^ p), ceilDiv (a.hi * b.hi) (2 ^ p)⟩

/-- Σ from k = i of term_k with term_{k+1} = term_k × t / (k + 1), n terms, plus a bound on the rest. -/
def expSeries (p : Nat) (t : Enclosure) : Nat → Nat → Enclosure → Enclosure → Enclosure
  | 0, _, term, acc => ⟨acc.lo, acc.hi + 2 * term.hi + 2⟩
  | n + 1, i, term, acc =>
    let prod := Enclosure.mul p term t
    expSeries p t n (i + 1) ⟨floorDiv prod.lo (i + 1), ceilDiv prod.hi (i + 1)⟩ ⟨acc.lo + term.lo, acc.hi + term.hi⟩

/-- e^t − 1 for an enclosed t in 0 ≤ t < 32: the series from its linear term on. -/
def expm1 (p : Nat) (t : Enclosure) : Enclosure := expSeries p t (2 * p + 128) 1 t ⟨0, 0⟩

/-- Σ z^(2k+1) / (2k+1), for an enclosed 0 ≤ z ≤ 1/3. -/
def atanhSeries (p : Nat) (zz : Enclosure) : Nat → Nat → Enclosure → Enclosure → Enclosure
  | 0, _, pow, acc => ⟨acc.lo, acc.hi + 2 * pow.hi + 2⟩
  | n + 1, k, pow, acc =>
    atanhSeries p zz n (k + 1) (Enclosure.mul p pow zz)
      ⟨acc.lo + floorDiv pow.lo (2 * k + 1), acc.hi + ceilDiv pow.hi (2 * k + 1)⟩

/-- ln((1 + z) / (1 − z)) = 2 atanh z for z = a / b. -/
def lnRatio (p a b : Nat) : Enclosure :=
  let z : Enclosure := ⟨floorDiv (a * 2 ^ p) b, ceilDiv (a * 2 ^ p) b⟩
  let r := atanhSeries p (Enclosure.mul p z z) (p + 8) 0 z ⟨0, 0⟩
  ⟨2 * r.lo, 2 * r.hi⟩

/-- ln 2, with z = 1/3. -/
def ln2 (p : Nat) : Enclosure := lnRatio p 1 3

/-- Truncate a non-negative fixed-point number to R122's grid: the multiple and its exponent. -/
def truncGrid (p : Nat) (v : Int) : Nat × Int :=
  if v ≤ 0 then (0, -149)
  else
    let m := v.natAbs
    let ex := leadExp m (-(p : Int))
    let qe := if ex < -126 then -149 else ex - 22
    ((roundAt .rtz false m (-(p : Int)) qe).1, qe)

/-- Raise the precision until an enclosure of a positive number, which no grid point equals, truncates to one result. -/
def decideTrunc (f : Nat → Enclosure) : Nat → Nat → Nat × Int
  | 0, p => truncGrid p (f p).lo
  | n + 1, p =>
    let r := f p
    if truncGrid p r.lo = truncGrid p r.hi ∧ 0 ≤ r.lo then truncGrid p r.lo else decideTrunc f n (2 * p)

/-- A result of R122 that differs from the exact value, scaled by 2^s. -/
def truncResult (neg : Bool) (r : Nat × Int) : Word × FpFlags :=
  let w := FpFmt.f32.pack neg r.1 r.2
  let tiny := r.1 == 0 || decide (leadExp r.1 r.2 < -126)
  (BitVec.ofNat 32 w, flagIf tiny flagUnderflow ||| flagInexact)

/-- `EXP2` (R122). -/
def exp2Value (w : Word) : Word × FpFlags :=
  match FpFmt.f32.read w.toNat with
  | .nan s => (0x7FC00000#32, flagIf s flagInvalid)
  | .inf n => (if n then 0#32 else 0x7F800000#32, 0#5)
  | .fin n m e =>
    if m = 0 then (0x3F800000#32, 0#5)
    else if !n && decide (7 ≤ leadExp m e) then (0x7F800000#32, flagOverflow ||| flagInexact)
    else if n && decide (8 ≤ leadExp m e) then (0#32, flagUnderflow ||| flagInexact)
    else
      -- the value as an integer over 2^d
      let d : Nat := if e < 0 then (-e).toNat else 0
      let z : Int := signedMant n (if e < 0 then m else m * 2 ^ e.toNat)
      let whole := Int.fdiv z (2 ^ d : Nat)
      let frac := (z - whole * (2 ^ d : Nat)).natAbs
      if frac = 0 then
        if whole < -149 then (0#32, flagUnderflow ||| flagInexact)
        else (BitVec.ofNat 32 (FpFmt.f32.pack false 1 whole), 0#5)
      else if whole < -149 then (0#32, flagUnderflow ||| flagInexact)
      else
        let f := fun p : Nat =>
          let l := ln2 p
          let t : Enclosure := ⟨floorDiv (l.lo * frac) (2 ^ d), ceilDiv (l.hi * frac) (2 ^ d)⟩
          let r := expm1 p t
          -- (1 + r) × 2^whole, kept in units of 2^−p at the value's own scale below
          Enclosure.mk (r.lo + 2 ^ p) (r.hi + 2 ^ p)
        let scaled := fun p : Nat =>
          let r := f p
          if 0 ≤ whole then Enclosure.mk (r.lo * 2 ^ whole.toNat) (r.hi * 2 ^ whole.toNat)
          else Enclosure.mk (floorDiv r.lo (2 ^ (-whole).toNat)) (ceilDiv r.hi (2 ^ (-whole).toNat))
        truncResult false (decideTrunc scaled 6 256)

/-- `LOG2` (R122). -/
def log2Value (w : Word) : Word × FpFlags :=
  match FpFmt.f32.read w.toNat with
  | .nan s => (0x7FC00000#32, flagIf s flagInvalid)
  | .inf n => if n then (0x7FC00000#32, flagInvalid) else (0x7F800000#32, 0#5)
  | .fin n m e =>
    if m = 0 then (0xFF800000#32, flagDivZero)
    else if n then (0x7FC00000#32, flagInvalid)
    else
      let lead := leadExp m e
      let top := 2 ^ Nat.log2 m
      if m = top then
        (BitVec.ofNat 32 (FpFmt.f32.roundInt .rne false lead 0).1, 0#5)
      else
        -- log2 = lead + ln(m / top) / ln 2, and m / top = (1 + z) / (1 − z) with z = (m − top) / (m + top)
        let f := fun p : Nat =>
          let a := lnRatio p (m - top) (m + top)
          let l := ln2 p
          let q : Enclosure := ⟨floorDiv (a.lo * 2 ^ p) l.hi.toNat, ceilDiv (a.hi * 2 ^ p) l.lo.toNat⟩
          let v : Enclosure := ⟨lead * 2 ^ p + q.lo, lead * 2 ^ p + q.hi⟩
          if 0 ≤ lead then v else Enclosure.mk (-v.hi) (-v.lo)
        truncResult (decide (lead < 0)) (decideTrunc f 6 64)

/-- `TANH` (R122). -/
def tanhValue (w : Word) : Word × FpFlags :=
  match FpFmt.f32.read w.toNat with
  | .nan s => (0x7FC00000#32, flagIf s flagInvalid)
  | .inf n => (if n then 0xBF800000#32 else 0x3F800000#32, 0#5)
  | .fin n m e =>
    if m = 0 then (w, 0#5)
    else if 4 ≤ leadExp m e then (if n then 0xBF7FFFFE#32 else 0x3F7FFFFE#32, flagInexact)
    else
      -- tanh x = r / (r + 2) with r = e^(2x) − 1; the exponent of 2x is e + 1, below 0
      let f := fun p : Nat =>
        let t : Enclosure :=
          if 0 ≤ (p : Int) + e + 1 then
            let v : Int := m * 2 ^ ((p : Int) + e + 1).toNat
            ⟨v, v⟩
          else
            let v := floorDiv m (2 ^ (-((p : Int) + e + 1)).toNat)
            ⟨v, v + 1⟩
        let r := expm1 p t
        Enclosure.mk (floorDiv (r.lo * 2 ^ p) (r.lo + 2 * 2 ^ p).toNat)
          (ceilDiv (r.hi * 2 ^ p) (r.hi + 2 * 2 ^ p).toNat)
      truncResult n (decideTrunc f 6 64)

end Sys2Proof.Machine
end

