-- ==== Sys2Proof/Machine/Handles.lean ====
section
/-! DEFINITION. Ownership handles (R205–R207): the held and the global form, spill buffers, fallback. -/

namespace Sys2Proof.Machine

/-! ### Spill buffers (R194, R207, R219) -/

/-- The lowest offset, a multiple of 128, at which `n` bytes are free in a spill buffer of `size` bytes. -/
def spillFit (used : Table (Nat × Bool)) (size n : Nat) : Option Nat :=
  let starts := 0 :: used.map fun u => (u.1 + u.2.1 + 127) / 128 * 128
  (starts.filter fun a => decide (a + n ≤ size) && used.all fun u => decide (a + n ≤ u.1 ∨ u.1 + u.2.1 ≤ a)).foldl
    (fun best a => match best with
      | none => some a
      | some b => some (min a b)) none

/-- Write bytes at a virtual address of a context at DEVICE scope, 32 at a time, through the tables as a supervisor has
them; whether every byte was written. -/
def spillWrite (core ctx : Nat) : Nat → State → Nat → List (List Byte × Bool) → State × Bool
  | _, s, _, [] => (s, true)
  | 0, s, _, _ => (s, false)
  | fuel + 1, s, va, c :: cs =>
    let r := translateNow s core ctx va .s .store
    match r.2 with
    | .error _ => (r.1, false)
    | .ok (pa, _) =>
      match whereIs pa with
      | .hbm => spillWrite core ctx fuel (homeWrite r.1 pa c.1 c.2) (va + 32) cs
      | _ => (r.1, false)

/-- Bytes cut in 32-byte chunks, none poisoned. -/
def chunked (bs : List Byte) : List (List Byte × Bool) :=
  (List.range ((bs.length + 31) / 32)).map fun i => (bytesAt bs (32 * i) 32, false)

/-- The head of a spill record: magic, H, count, zeros, then 32 bytes for each tile (R207). -/
def spillHead (h : HoldSlot) : List Byte :=
  leBytes 4 0x48500001 ++ leBytes 4 h.extent ++ leBytes 4 h.tiles.length ++ zeroBytes 52
    ++ h.tiles.flatMap fun t => leBytes 1 t.1 ++ zeroBytes 15 ++ (List.range 4).flatMap fun i => leBytes 4 (t.2.getD i 0#32).toNat

/-- Where the data of a record of `n` tiles begins. -/
def spillData (n : Nat) : Nat := (64 + 32 * n + 127) / 128 * 128

/-- Copy a held extent to a spill record (R207): its virtual address, or nothing when the buffer has no room for it. -/
def spillHold (s : State) (core : Nat) (h : HoldSlot) : State × Option Nat :=
  match s.launch h.launch with
  | none => (s, none)
  | some l =>
    match s.instanceOf l with
    | none => (s, none)
    | some (tag, inst) =>
      let head := spillHead h
      let data := spillData h.tiles.length
      let size := data + h.extent
      match spillFit inst.spills (inst.spillSz * 1048576) size with
      | none => (s, none)
      | some off =>
        let bytes := chunked (head ++ zeroBytes (data - head.length)) ++ (List.range (h.extent / 32)).map fun i =>
          scratchBytes s core (h.base + 32 * i) 32
        let w := spillWrite core l.ctx (bytes.length + 1) s (inst.spillVa + off) bytes
        if w.2 then
          (w.1.modHub fun hub => { hub with instances := hub.instances.put tag { inst with spills := inst.spills.put off (size, true) } },
            some (inst.spillVa + off))
        else (w.1, none)

/-! ### Handles (R205) -/

/-- A held handle. -/
def heldHandle (core slot serial : Nat) : BitVec 64 := BitVec.ofNat 64 (2 ^ 62 + core * 2 ^ 54 + slot * 2 ^ 48 + serial % 2 ^ 48)
/-- A global handle. -/
def globalHandle (va : Nat) : BitVec 64 := BitVec.ofNat 64 (2 ^ 63 + va / 64 % 2 ^ 50 * 64)
/-- The fields of a handle. -/
def handleKind (h : BitVec 64) : Nat := h.toNat / 2 ^ 62
def handleCore (h : BitVec 64) : Nat := h.toNat / 2 ^ 54 % 256
def handleSlot (h : BitVec 64) : Nat := h.toNat / 2 ^ 48 % 64
def handleSerial (h : BitVec 64) : Nat := h.toNat % 2 ^ 48

/-- The live hold a held handle names. -/
def heldBy (s : State) (h : BitVec 64) : Option HoldSlot :=
  if handleKind h = 1 then
    match (s.core (handleCore h)).holds.find (handleSlot h) with
    | some x => if x.serial = handleSerial h then some x else none
    | none => none
  else none

/-- A handle in a launch's record, in a pass recorded for it or in a command on its way to the walker is rewritten (R207, R345,
R399). -/
def rewriteHandle (s : State) (old new : BitVec 64) : State :=
  { s with
    launches := s.launches.map fun kl => if kl.2.handle = old then (kl.1, { kl.2 with handle := new }) else kl
    cmds := s.cmds.map fun kc =>
      if (kc.2.kind == .spawn || kc.2.kind == .hpass) && kc.2.index.head? == some old.toNat then
        (kc.1, { kc.2 with index := new.toNat :: kc.2.index.tail })
      else kc
    hub := { s.hub with passed := s.hub.passed.map fun p => if p.2 = old then (p.1, new) else p } }

/-- The walker writes a launch's handle to the 8 bytes at its ARGVA, a home-slice write (R399); where the address does not translate
nothing is written (log entry 37). -/
def writeHandle (s : State) (core n : Nat) : State :=
  match s.launch n with
  | none => s
  | some l => if l.handle = 0 then s else (spillWrite core l.ctx 2 s l.argva.toNat [(leBytes 8 l.handle.toNat, false)]).1

/-- The launches whose argument state a fallback rewrites: those placed with a block whose first run is still to come (R207). -/
def placedUnrun (s : State) (old : BitVec 64) : List Nat :=
  (s.launches.filter fun kl => kl.2.handle == old && !kl.2.ended && kl.2.next != 0
    && (decide (kl.2.next < kl.2.nblocks) || s.blocks.any fun kb => kb.2.launch == kl.1 && kb.2.firstAcq.isSome)).map (·.1)

/-- The launches that carry a handle whose spill record found no room are killed, with it in their failure record (R207). -/
def killDoomed (s : State) : State :=
  if s.hub.dead.isEmpty then s
  else
    (s.launches.filter fun kl => !kl.2.ended && kl.2.accepted != 0 && s.hub.dead.contains kl.2.handle).foldl
      (fun s kl => killLaunch s kl.1 (.spillFull kl.2.handle)) s

/-- A handle's spill record found no room (R207). -/
def loseHandle (s : State) (h : BitVec 64) : State := killDoomed (s.modHub fun hub => { hub with dead := hub.dead ++ [h] })

/-- A hold falls back to the global form (R207): the copy, the release, the record; a spill buffer too small kills the
launches that carry the handle. -/
def fallBack (s : State) (core slot : Nat) : State :=
  match (s.core core).holds.find slot with
  | none => s
  | some h =>
    let old := heldHandle core slot h.serial
    let r := spillHold s core h
    let s := offerCores (r.1.modCore core fun c => { c with holds := c.holds.drop slot }) [core]
    match r.2 with
    | some va =>
      let mine := placedUnrun s old
      let s := rewriteHandle s old (globalHandle va)
      let s := (s.launches.filter fun kl => kl.2.handle == globalHandle va).foldl (fun s kl => writeSlice s kl.1 40 8) s
      mine.foldl (fun s n => writeHandle s core n) s
    | none => loseHandle s old

end Sys2Proof.Machine
end

