-- ==== Sys2Proof/Machine/Tiles.lean ====
section
/-! DEFINITION. The tile instructions (R134, R136, R406–R409). -/

namespace Sys2Proof.Machine

/-- `TDEF` (R134). -/
def execTdef (t sb : BitVec 6) (s : State) : Out :=
  let n := t.toNat
  let r := sb.toNat
  command s [r, r + 1, r + 2, r + 3] fun s tm blk =>
    let w := fun i => tm.readS s.tick (r + i)
    let old := blk.tile n
    let new : Tile := ⟨w 0, w 1, w 2, w 3, false, true, tileEmpty⟩
    if 60 < r then refuseOp s
    else if old.valid && old.state != tileEmpty then wrongTile s old n
    else if !new.shapeOk then refuseOp s
    else if new.laddr % 128 ≠ 0 then misaligned s 128 new.laddr
    else if !new.pitchOk then refuseOp s
    else if (localRange s blk new.laddr new.extent).isNone then
      .next (s.modTeam s.cur fun t => t.raise t.trapSet 7 (Config.freeWord s.tick 7) new.laddr false 0)
    else .next (s.setBlock tm.block (blk.setTile n new))

/-- An action that needs a tile in one state and leaves it in another (R136). -/
def tileMove (s : State) (n : Nat) (need next : BitVec 2) : Out :=
  command s [] fun s tm blk =>
    let tile := blk.tile n
    if tile.fits need then .next (s.setBlock tm.block (blk.setTile n { tile with state := next })) else wrongTile s tile n

/-- `TACQ`. -/
def execTacq (t : BitVec 6) (s : State) : Out := tileMove s t.toNat tileEmpty tileFilling
/-- `TRDY`. -/
def execTrdy (t : BitVec 6) (s : State) : Out := tileMove s t.toNat tileFilling tileReady
/-- `TREL`. -/
def execTrel (t : BitVec 6) (s : State) : Out := tileMove s t.toNat tileReady tileEmpty

/-- `TSTAT`. -/
def execTstat (t sb : BitVec 6) (s : State) : Out :=
  command s [] fun s _ blk =>
    let tile := blk.tile t.toNat
    if !tile.valid then wrongTile s tile t.toNat else .next (s.modTeam s.cur fun tm => tm.writeS sb.toNat tile.status)

/-- The bytes from the block's allocation base that a handle over some tiles covers (R205). -/
def heldExtent (b : Block) (tiles : List Nat) : Nat :=
  (tiles.foldl (fun h n => max h ((b.tile n).laddr + (b.tile n).extent)) 0 + 2047) / 2048 * 2048

/-- `THAND` (R408): a held handle, or the global form at once when no hold slot is free. -/
def execThand (sb : BitVec 6) (s : State) : Out :=
  let r := sb.toNat
  command s [r, r + 1] fun s tm blk =>
    let k := s.cur
    let core := coreOfTeam k
    let mask := tm.readPair s.tick r
    let tiles := (List.range 64).filter fun i => mask.getLsbD i
    if sb.getLsbD 0 || tiles.isEmpty then refuseOp s
    else
      match tiles.find? fun n => !(blk.tile n).fits tileReady with
      | some n => wrongTile s (blk.tile n) n
      | none =>
        if tiles.any fun n => decide (0x4000000 ≤ (blk.tile n).laddr) then refuseOp s
        else
          let c := s.core core
          let serial := c.serial + 1
          let hold : HoldSlot :=
            { serial := serial, extent := heldExtent blk tiles, base := blk.base, launch := blk.launch, block := tm.block, exitAt := none
              tiles := tiles.map fun n => (n, [(blk.tile n).d0, (blk.tile n).d1, (blk.tile n).d2, (blk.tile n).d3]) }
          let gone := fun (s : State) => s.modBlock tm.block fun b => tiles.foldl (fun b n => b.setTile n Tile.none) b
          match (List.range 16).find? fun i => (c.holds.find i).isNone with
          | some i =>
            let s := gone (s.setCore core { c with serial := serial, holds := c.holds.put i hold })
            .next (s.modTeam k fun t => t.writePair r (heldHandle core i serial))
          | none =>
            let p := spillHold s core hold
            -- with no room in the spill buffer the record has no address, and the launch that gets the handle is killed (log entry 21)
            let h := globalHandle (p.2.getD (64 * (Config.freeWord s.tick 21).toNat))
            let s := if p.2.isSome then gone p.1 else loseHandle (gone p.1) h
            .next (s.modTeam k fun t => t.writePair r h)

/-- A descriptor from its four words. -/
def tileOf (ws : List Word) (st : BitVec 2) (eng : Bool) : Tile :=
  ⟨ws.getD 0 0#32, ws.getD 1 0#32, ws.getD 2 0#32, ws.getD 3 0#32, eng, true, st⟩

/-- The first recorded tile that the adopter has defined and not emptied (R409). -/
def clashingTile (b : Block) (ts : List (Nat × List Word)) : Option Nat :=
  (ts.find? fun t => (b.tile t.1).valid && (b.tile t.1).state != tileEmpty).map (·.1)

/-- The live spill record at a virtual address: its instance and offset (R207). -/
def spillRecordAt (s : State) (ctx va : Nat) : Option (Nat × Nat) :=
  s.hub.instances.findSome? fun ki =>
    if ki.2.ctx = ctx ∧ ki.2.spillVa ≤ va then
      match ki.2.spills.find (va - ki.2.spillVa) with
      | some (_, true) => some (ki.1, va - ki.2.spillVa)
      | _ => none
    else none

/-- Read bytes at a virtual address of a context at DEVICE scope; the cause that stopped it. -/
def deviceRead (core ctx : Nat) (mode : Mode) (s : State) (va n : Nat) : State × Except UnitFault (List Byte) :=
  let s := syncDevice s
  let r := readChunks core ctx mode s (.global va) ((n + 31) / 32)
  (r.1, r.2.map fun cs => (cs.flatMap (·.1)).take n)

/-- The tiles that a spill record lists. -/
def spillTiles (bs : List Byte) (n : Nat) : List (Nat × List Word) :=
  (List.range n).map fun i =>
    (fieldAt bs (64 + 32 * i) 1 % 64, (List.range 4).map fun j => BitVec.ofNat 32 (fieldAt bs (64 + 32 * i + 16 + 4 * j) 4))

/-- `TADOPT` of a global handle (R409). -/
def adoptGlobal (s : State) (tm : Team) (blk : Block) (h : BitVec 64) : Out :=
  let k := s.cur
  let core := coreOfTeam k
  let ctx := s.ctxOf tm
  let va := h.toNat % 2 ^ 56 / 64 * 64
  match spillRecordAt s ctx va with
  | none => refuseOp s
  | some (tag, off) =>
    let faults := fun (s : State) (c at' : Nat) (st2 : Bool) =>
      (Host.Outcome.next (s.modTeam k fun t => { t with due := t.due ++ [.owed c 0x80000200#32 at' st2] }) : Out)
    let head := deviceRead core ctx tm.mode s va 64
    match head.2 with
    | .error (.absent pa) => .fault (.noSuchAddress pa)
    | .error (.cause c a st2) => faults head.1 c a st2
    | .ok bs =>
      let n := min (fieldAt bs 8 4) 64
      let extent := fieldAt bs 4 4
      let body := deviceRead core ctx tm.mode head.1 va (64 + 32 * n)
      match body.2 with
      | .error (.absent pa) => .fault (.noSuchAddress pa)
      | .error (.cause c a st2) => faults body.1 c a st2
      | .ok bs =>
        let s := body.1
        let tiles := spillTiles bs n
        match clashingTile blk tiles with
        | some i => wrongTile s (blk.tile i) i
        | none =>
          match tiles.find? fun t => decide (blk.size < (tileOf t.2 0 false).laddr + (tileOf t.2 0 false).extent) with
          | some t => outside s (tileOf t.2 0 false).laddr
          | none =>
            if tm.flagFull false then .next (stallInstr s)
            else
              let s := s.setBlock tm.block (tiles.foldl (fun b t => b.setTile t.1 (tileOf t.2 tileFilling true)) blk)
              let s := s.modHub fun hub => { hub with instances := hub.instances.update tag fun i =>
                { i with spills := i.spills.update off fun x => (x.1, false) } }
              let c := newCopyCid s core
              let op := tm.startCommand.2
              let s := c.2.modTeam k fun t => t.startCommand.1
              let o : Order :=
                { contiguous (.global (va + spillData n)) (.scratch core blk.base) ((min extent blk.size) / 128) 0 0 [] [] [] with
                  kind := .adopt, tiles := tiles.map (·.1), fill := true }
              .next (addCmd (noteIssue s k tm c.1 0) (o.cmd s k tm c.1 op none 0 [])).1

/-- `TADOPT` (R409). -/
def execTadopt (sb : BitVec 6) (s : State) : Out :=
  let r := sb.toNat
  command s [r, r + 1] fun s tm blk =>
    let core := coreOfTeam s.cur
    let h := tm.readPair s.tick r
    if sb.getLsbD 0 then refuseOp s
    else if handleKind h = 1 then
      match heldBy s h with
      | none => refuseOp s
      | some hold =>
        if handleCore h ≠ core then refuseOp s
        else
          match clashingTile blk hold.tiles with
          | some n => wrongTile s (blk.tile n) n
          | none =>
            let s := s.setBlock tm.block (hold.tiles.foldl (fun b t => b.setTile t.1 (tileOf t.2 tileReady false)) blk)
            .next (offerCores (s.modCore core fun c => { c with holds := c.holds.drop (handleSlot h) }) [core])
    else if handleKind h = 2 then adoptGlobal s tm blk h
    else refuseOp s

end Sys2Proof.Machine
end

