-- ==== Sys2Proof/Machine/FabricCmds.lean ====
section
/-! DEFINITION. The fabric commands of a team: `PUT`, `PUTS`, `GET`, `CSEND`, `RSIG` (R231–R233, R239, R320, R321, R340, R374,
R375), and their local completion. -/

namespace Sys2Proof.Machine

/-! ### Local completion (R233) -/

/-- A command with no packet left to send or to be acknowledged is forgotten. -/
def settleCmd (s : State) (id : Nat) : State :=
  match s.cmd id with
  | none => s
  | some c => if c.localDone && c.unacked == 0 && (c.kind != .puts || c.signalled) then s.dropCmd id else s

/-- A command completes: locks, flag, barrier, its fault if it has one (R166, R233, R238, R321). -/
def completeLocal (s : State) (id : Nat) : State :=
  match s.cmd id with
  | none => s
  | some c =>
    if c.localDone then s
    else
      let s := dropLocks s (s.cmdCore c) c.locks
      let s := s.modCmd id fun c => { c with localDone := true, locks := [], op := none }
      let s := match c.op with
        | some op => s.modTeam c.team fun t => t.finishOp s.tick op
        | none => s
      let s := match c.trap with
        | some x => reportFault s c x
        | none => s
      let s := noteDone s c
      let s := match c.barrier with
        | some n => leaveBarrier s c.block n c.cid c.trap (0, 0)
        | none => s
      settleCmd (if c.away.isSome then s else tryEnter s c.team) id

/-- A command completes as faulted with a cause of its own (R272, R321, R345). -/
def failLocal (s : State) (id cause : Nat) : State :=
  completeLocal (s.modCmd id fun c => { c with fault := some (cause, c.pc, false) }) id

/-! ### Operands (R231) -/

/-- The fields of Z. -/
def fzUnits (z : Word) : Nat := z.toNat / 128
def fzClass (z : Word) : Nat := z.toNat / 32 % 4
def fzVc (z : Word) : Nat := z.toNat / 8 % 4
def fzWait (z : Word) : Bool := z.getLsbD 2

/-- Z keeps R231: lengths from `lo` to `hi`, W where the form has it. -/
def fzOk (z : Word) (lo hi : Nat) (mayWait : Bool) : Bool :=
  decide (lo ≤ fzUnits z ∧ fzUnits z ≤ hi) && decide (fzClass z ≤ 1) && z.toNat % 4 == 0 && (mayWait || !fzWait z)

/-- The fields of a remote reference, and whether its zero bits are zero. -/
def refKix (r : BitVec 64) : Nat := r.toNat / 2 ^ 58
def refOff (r : BitVec 64) : Nat := r.toNat % 2 ^ 40
def refOk (r : BitVec 64) : Bool := r.toNat / 2 ^ 40 % 2 ^ 18 == 0

/-- A buffer pair names a local range; its address, and whether its zero bits are zero. -/
def bufLocal (p : BitVec 64) : Bool := p.getLsbD 63
def bufAddr (p : BitVec 64) : Nat := if bufLocal p then p.toNat % 2 ^ 32 else p.toNat
def bufOk (p : BitVec 64) : Bool := !bufLocal p || p.toNat / 2 ^ 32 % 2 ^ 31 == 0

/-- A signal word: block in bits 15:0, barrier in 19:16. -/
def signalOk (w : Word) : Bool := w.toNat / 2 ^ 20 == 0

/-! ### The key table (R230, R232) -/

/-- Bytes of a table entry in the DEVICE-scope view; the address where there is no memory. -/
def tableEntry (s : State) (pa n : Nat) : Except Nat (List Byte) := if hbmTop < pa + n then .error pa else .ok (homeBytes s pa n)

/-- Bits of PERM. -/
def permPut : Nat := 1
def permGet : Nat := 2
def permSignal : Nat := 4
def permColl : Nat := 8

/-- A PERM byte is valid and holds every permission of a set. -/
def permits (perm set : Nat) : Bool := perm / 128 == 1 && (BitVec.ofNat 8 perm &&& BitVec.ofNat 8 set) == BitVec.ofNat 8 set

/-- Order 4 of R232: the key entry of an index is valid with the permissions and the length, and the command goes on with its
bytes; else `FAB_KEY`. -/
def withKey (s : State) (t : Team) (kix perms reach : Nat) (act : State → List Byte → Out) : Out :=
  let s := syncDevice s
  match tableEntry s ((s.context (s.ctxOf t)).fktbase.toNat + 32 * kix) 32 with
  | .error pa => .fault (.noSuchAddress pa)
  | .ok e =>
    if permits (fieldAt e 3 1) perms && decide (reach ≤ fieldAt e 8 8) then act s e
    else .next (s.modTeam s.cur fun t => t.raiseAll 16 (BitVec.ofNat 32 kix))

/-- A virtual buffer address with bits 63:56 not zero traps `PAGE` (R138, R232). -/
def inSpace (s : State) (p : BitVec 64) (code : Nat) (act : Out) : Out :=
  if !bufLocal p && decide (2 ^ 56 ≤ p.toNat) then
    .next (s.modTeam s.cur fun t => t.raise t.trapSet 6 (BitVec.ofNat 32 code) p.toNat false 0)
  else act

/-- Go on with what an issue leaves if it issued, and not if it stalled or trapped; `n` was the number the command would take. -/
def Out.issued (o : Out) (n : Nat) (f : State → State) : Out :=
  match o with
  | .next s => if s.hub.nextCmd = n then .next s else .next (f s)
  | .fault r => .fault r
  | .refused r => .refused r

/-- An order that moves nothing by itself. -/
def bareOrder (kind : CmdKind) (src dst : Place) (units : Nat) (locks : List LockRange) (reads writes : List (Nat × Nat)) : Order :=
  { kind := kind, src := src, dst := dst, srcPitch := 0, dstPitch := 0, lineUnits := max units 1, units := units, reduce := 0
    scope := 3, index := [], poison := false, tiles := [], fill := false, locks := locks, reads := reads, writes := writes }

/-- A buffer's place with the lock or the global range it asks for; nothing where its local range lies outside (R129). -/
def bufferPlace (s : State) (blk : Block) (dst : Bool) (p : BitVec 64) (n : Nat) :
    Option (Place × List LockRange × List (Nat × Nat)) :=
  if bufLocal p then (localRange s blk (bufAddr p) n).map fun q => (.scratch q.1 q.2, [localLock dst q n], [])
  else some (.global p.toNat, [], [(p.toNat, n)])

/-- The first port of a packet to a device (R232). -/
def firstPort (s : State) (dev : Nat) : Option Nat := (routePorts s dev).head?

/-! ### `PUT` and `PUTS` (R233, R374) -/

/-- The common form: `signals` for `PUTS`. -/
def putForm (s : State) (x y z : BitVec 6) (b : BitVec 4) (signals : Bool) : Out :=
  command s ([x.toNat, x.toNat + 1, y.toNat, y.toNat + 1, z.toNat] ++ if signals then [z.toNat + 1] else []) fun s t blk =>
    let zw := t.readS s.tick z.toNat
    let sw := if signals then t.readS s.tick (z.toNat + 1) else 0#32
    let ref := t.readPair s.tick x.toNat
    let buf := t.readPair s.tick y.toNat
    let n := 128 * fzUnits zw
    if x.getLsbD 0 || y.getLsbD 0 || (signals && z.getLsbD 0) || !fzOk zw 1 65536 false || !signalOk sw || !refOk ref || !bufOk buf then
      refuseOp s
    else if bufAddr buf % 128 ≠ 0 then misaligned s 128 (bufAddr buf)
    else if refOff ref % 128 ≠ 0 then misaligned s 128 (refOff ref)
    else
      match bufferPlace s blk false buf n with
      | none => outside s (bufAddr buf)
      | some (src, locks, reads) =>
        if reads.any fun r => reachesReserved s t .load r.1 r.2 then
          .next (s.modTeam s.cur fun t => t.raise t.trapSet 7 0 (bufAddr buf) false 0)
        else
        withKey s t (refKix ref) (permPut + if signals then permSignal else 0) (refOff ref + n) fun s e =>
          inSpace s buf 0
            (issueOrder s t b.toNat (bareOrder (if signals then .puts else .put) src (.global 0) ((n + 4095) / 4096) locks reads [])
              false
              (some
                { dev := fieldAt e 0 2, win := fieldAt e 2 1, key := fieldAt e 4 2, kix := refKix ref, offset := refOff ref
                  cls := fzClass zw, vc := fzVc zw, signal := sw, wait := false, bytes := n, data := (n + 4095) / 4096
                  signals := signals, port := firstPort s (fieldAt e 0 2) }))

/-- `PUT`. -/
def execPut (x y z : BitVec 6) (b : BitVec 4) (s : State) : Out := putForm s x y z b false

/-- `PUTS`. -/
def execPuts (x y z : BitVec 6) (b : BitVec 4) (s : State) : Out := putForm s x y z b true

/-! ### `RSIG` (R233, R374) -/

/-- `RSIG`. -/
def execRsig (x y z : BitVec 6) (b : BitVec 4) (s : State) : Out :=
  command s [x.toNat, y.toNat, z.toNat] fun s t _ =>
    let zw := t.readS s.tick z.toNat
    let sw := t.readS s.tick y.toNat
    let kix := (t.readS s.tick x.toNat).toNat
    if decide (64 ≤ kix) || !signalOk sw || !fzOk zw 0 0 false then refuseOp s
    else
      withKey s t kix permSignal 0 fun s e =>
        issueOrder s t b.toNat (bareOrder .rsig (.global 0) (.global 0) 1 [] [] []) false
          (some
            { dev := fieldAt e 0 2, win := fieldAt e 2 1, key := fieldAt e 4 2, kix := kix, offset := 0, cls := fzClass zw
              vc := fzVc zw, signal := sw, wait := false, bytes := 0, data := 1, signals := false
              port := firstPort s (fieldAt e 0 2) })

/-! ### `GET` (R235, R340) -/

/-- `GET`. -/
def execGet (x y z : BitVec 6) (b : BitVec 4) (s : State) : Out :=
  command s [x.toNat, x.toNat + 1, y.toNat, y.toNat + 1, z.toNat] fun s t blk =>
    let zw := t.readS s.tick z.toNat
    let ref := t.readPair s.tick y.toNat
    let buf := t.readPair s.tick x.toNat
    let n := 128 * fzUnits zw
    let last := (t.run.map fun r => r.items.isEmpty).getD true
    if x.getLsbD 0 || y.getLsbD 0 || !fzOk zw 1 65536 true || !refOk ref || !bufOk buf || (fzWait zw && !last) then refuseOp s
    else if bufAddr buf % 128 ≠ 0 then misaligned s 128 (bufAddr buf)
    else if refOff ref % 128 ≠ 0 then misaligned s 128 (refOff ref)
    else
      match bufferPlace s blk true buf n with
      | none => outside s (bufAddr buf)
      | some (dst, locks, writes) =>
        if writes.any fun r => reachesReserved s t .store r.1 r.2 then
          .next (s.modTeam s.cur fun t => t.raise t.trapSet 7 1 (bufAddr buf) false 0)
        else
        withKey s t (refKix ref) permGet (refOff ref + n) fun s e =>
          inSpace s buf 1
            (Out.issued
              (issueOrder s t b.toNat (bareOrder .get (.global 0) dst (fzUnits zw) locks [] writes) (!bufLocal buf)
                (some
                  { dev := fieldAt e 0 2, win := fieldAt e 2 1, key := fieldAt e 4 2, kix := refKix ref, offset := refOff ref
                    cls := fzClass zw, vc := fzVc zw, signal := 0, wait := fzWait zw, bytes := n, data := 1, signals := false
                    port := firstPort s (fieldAt e 0 2) }))
              s.hub.nextCmd fun s' =>
                if fzWait zw then
                  s'.modTeam s'.cur fun t => t.modRun fun r =>
                    { r with blocks := some (.get s.hub.nextCmd), closes := true, advances := false }
                else s')

/-! ### `CSEND` (R239, R242, R320, R321) -/

/-- Bytes of an element of a format; compressed partials have no fixed size (R242). -/
def efmtSize (f : Nat) : Nat := [4, 2, 2, 4, 0, 4, 8].getD f 0

/-- Bytes of `n` compressed partials at the front of a list (R243). -/
def partialsLength : Nat → List Byte → Nat
  | 0, _ => 0
  | n + 1, bs =>
    let k := if fieldAt bs 14 2 = 0xFFFF then 64 else 16
    k + partialsLength n (bs.drop k)

/-- PAYLEN of a format and count over the bytes there are (R242). -/
def payloadLength (efmt n : Nat) (bs : List Byte) : Nat := if efmt = 4 then partialsLength n bs else n * efmtSize efmt

/-- A route entry: op, output port, input count less one, arg (R240). -/
def entryOp (e : Nat) : Nat := e / 4096
def entryPort (e : Nat) : Nat := e / 256 % 16
def entryMore (e : Nat) : Nat := e / 16 % 16
def entryArg (e : Nat) : Nat := e % 16

/-- The combining ops (R240). -/
def combines (op : Nat) : Bool := [2, 3, 4, 5, 7, 8].contains op

/-- An op accepts a format (R242). -/
def acceptsFmt (op efmt : Nat) : Bool :=
  match op with
  | 2 => [0, 1, 2, 4].contains efmt
  | 3 => efmt == 0
  | 4 => efmt == 0
  | 5 => efmt == 5
  | 7 => efmt == 6
  | 8 => efmt == 3
  | _ => decide (efmt ≤ 6)

/-- The fields of a descriptor that R239 constrains are as it asks, NELEM apart. -/
def descriptorOk (d : List Byte) : Bool :=
  let n := fieldAt d 10 1
  let route := (List.range 8).map fun i => fieldAt d (16 + 2 * i) 2
  decide (fieldAt d 6 1 < 16) && decide (fieldAt d 7 1 < 8) && decide (1 ≤ n ∧ n ≤ 8) && decide (fieldAt d 11 1 < 64)
    && decide (fieldAt d 14 1 < 16) && fieldAt d 15 1 == 0 && fieldAt d 36 4 == 0 && fieldAt d 45 3 == 0 && fieldAt d 48 16 == 0
    && (route.drop n).all (· == 0)
    && (route.take n).all fun e => decide (entryOp e ≤ 8) && acceptsFmt (entryOp e) (fieldAt d 6 1)

/-- NELEM of a descriptor, and whether it is within R242 with a payload of `len` bytes. -/
def nelemOk (d : List Byte) (len : Nat) : Bool :=
  let n := fieldAt d 8 2
  let ops := (List.range (fieldAt d 10 1)).map fun i => entryOp (fieldAt d (16 + 2 * i) 2)
  decide (1 ≤ n) && decide (len ≤ 4096) && (!ops.contains 2 || decide (n ≤ 64)) && (!ops.contains 5 || decide (2 ≤ n))

/-- The packet a descriptor and a payload make (R239). -/
def collectivePacket (s : State) (d e : List Byte) (chunk oseq : Nat) (cid : BitVec 64) (payload : List Byte) : Packet :=
  { Packet.blank s.dev 0xFFFF (fieldAt d 7 1 % 2) (fieldAt d 7 1 / 2 % 4) 5 cid with
    efmt := fieldAt d 6 1, collid := fieldAt d 0 4, chunk := chunk, rank := fieldAt d 4 2
    route := (List.range (fieldAt d 10 1)).map fun i => fieldAt d (16 + 2 * i) 2
    fan0 := fieldAt d 32 2, fan1 := fieldAt d 34 2, key := fieldAt e 4 2, win := fieldAt e 2 1, sigbar := fieldAt d 14 1
    offset := fieldAt d 40 5, sigblk := fieldAt d 12 2, nelem := fieldAt d 8 2, oseq := if fieldAt d 7 1 % 2 = 0 then oseq else 0
    nsrc := 1, payload := payload }

/-- `CSEND`. The packet waits at this hub for its first entry to act. -/
def execCsend (x y z : BitVec 6) (b : BitVec 4) (s : State) : Out :=
  command s [x.toNat, y.toNat, z.toNat] fun s t blk =>
    let da := (t.readS s.tick x.toNat).toNat
    let pa := (t.readS s.tick y.toNat).toNat
    let zw := t.readS s.tick z.toNat
    let dp := localRange s blk da 64
    let d := match dp with
      | some p => scratchBytes s p.1 p.2 64
      | none => ([], false)
    let room := match localPlace s blk pa with
      | some p => (scratchBytes s p.1 p.2 4096).1
      | none => []
    let len := payloadLength (fieldAt d.1 6 1) (fieldAt d.1 8 2) room
    if decide (65536 ≤ zw.toNat) || (dp.isSome && (!descriptorOk d.1 || !nelemOk d.1 len)) then refuseOp s
    else if pa % 4 ≠ 0 then misaligned s 4 pa
    else if da % 64 ≠ 0 then misaligned s 64 da
    else
      match dp, localRange s blk pa len with
      | none, _ => outside s da
      | some _, none => outside s pa
      | some dq, some q =>
        let body := scratchBytes s q.1 q.2 len
        withKey s t (fieldAt d.1 11 1) permColl 0 fun s e =>
          Out.issued
            (issueOrder s t b.toNat
              (bareOrder .csend (.scratch q.1 q.2) (.global 0) 1 [localLock false dq 64, localLock false q len] [] []) false
              (some
                { dev := 0xFFFF, win := fieldAt e 2 1, key := fieldAt e 4 2, kix := fieldAt d.1 11 1, offset := fieldAt d.1 40 5
                  cls := fieldAt d.1 7 1 % 2, vc := fieldAt d.1 7 1 / 2 % 4, signal := 0, wait := false, bytes := len, data := 1
                  signals := false, port := some (entryPort (fieldAt d.1 16 2)) }))
            s.hub.nextCmd fun s' =>
              let id := s.hub.nextCmd
              if d.2 || body.2 then failLocal s' id 12
              else
                match s'.cmd id with
                | none => s'
                | some c =>
                  let p := collectivePacket s' d.1 e (zw.toNat % 65536) c.oseq c.cid body.1
                  s'.modHub fun h => { h with waiting := h.waiting ++ [⟨16, p.bytes, [id], none⟩] }

end Sys2Proof.Machine
end

