-- ==== Sys2Proof/Machine/Windows.lean ====
section
/-! DEFINITION. What an arriving packet may reach (R230, R238): the window table, the check of an access, and the write or the
signal it performs (R234, R235, R245). -/

namespace Sys2Proof.Machine

/-- How the check of R238 ends. -/
inductive WindowFate where
  /-- physical pieces of the access, the context and the launch of the window -/
  | ok (pieces : List (Nat × Nat)) (ctx : Nat) (launch : BitVec 64)
  | refused (translation : Bool)
  | absent (pa : Nat)
  deriving DecidableEq, Repr

/-- The physical pieces of a range of a context, cut at sector edges, as S reaches them; whether S may write is asked of a store
(R234). -/
def windowPieces (s : State) (ctx : Nat) (kind : AccessKind) : Nat → Nat → Nat → List (Nat × Nat) →
    Except XlateFault (List (Nat × Nat))
  | _, _, 0, acc => .ok acc
  | 0, _, _, acc => .ok acc
  | fuel + 1, va, n, acc =>
    let m := min n (128 - va % 128)
    if 2 ^ 56 ≤ va then .error (.cause 6 false)
    else
      match walk s ctx va .s kind with
      | .error e => .error e
      | .ok t =>
        let pa := t.pa + (va - t.base)
        match whereIs pa with
        | .absent => .error (.absent pa)
        | .aperture c off =>
          if apertureAllows s .s c off kind.writes then windowPieces s ctx kind fuel (va + m) (n - m) (acc ++ [(pa, m)])
          else .error (.cause 7 false)
        | .hbm => windowPieces s ctx kind fuel (va + m) (n - m) (acc ++ [(pa, m)])

/-- Check an access of `n` bytes at an offset of a window with a permission (R238). The state is in the DEVICE-scope view. -/
def checkWindow (s : State) (win key perm offset n : Nat) (kind : AccessKind) : WindowFate :=
  match tableEntry s (s.hub.wtbase.toNat + 32 * win) 32 with
  | .error pa => .absent pa
  | .ok e =>
    if !permits (fieldAt e 18 1) perm || fieldAt e 16 2 != key || decide (fieldAt e 8 8 < offset + n) then .refused false
    else
      match windowPieces s (fieldAt e 28 2) kind (n / 128 + 2) (fieldAt e 0 8 + offset) n [] with
      | .error (.absent pa) => .absent pa
      | .error (.cause _ _) => .refused true
      | .ok ps => .ok ps (fieldAt e 28 2) (BitVec.ofNat 64 (fieldAt e 20 8))

/-- Write bytes over physical pieces as home-slice writes (R152, R245). -/
def writeWindow : State → List (Nat × Nat) → List Byte → State
  | s, [], _ => s
  | s, (pa, n) :: ps, bs =>
    let s := match whereIs pa with
      | .aperture c off => apertureWrite s c off (bs.take n) false
      | _ => homeWrite s pa (bs.take n) false
    writeWindow s ps (bs.drop n)

/-- Read bytes over physical pieces as the home slices hold them, and the 32-byte granules of the run that are poisoned (R235,
R245, R272). -/
def readWindow (s : State) (ps : List (Nat × Nat)) : List Byte × List Nat :=
  ps.foldl
    (fun acc p =>
      let at' := acc.1.length
      match whereIs p.1 with
      | .aperture c off =>
        let xs := (List.range p.2).map fun i => (apertureByte s c (off + i)).getD (0#8, false)
        (acc.1 ++ xs.map (·.1),
          acc.2 ++ ((List.range ((p.2 + 31) / 32)).filter fun g => (bytesOfGranule xs g).any (·.2)).map (at' / 32 + ·))
      | _ =>
        (acc.1 ++ homeBytes s p.1 p.2,
          acc.2 ++ ((List.range ((p.2 + 31) / 32)).filter fun g => s.home.poisoned (p.1 + 32 * g)).map (at' / 32 + ·)))
    ([], [])
where
  /-- the bytes of one granule of a piece -/
  bytesOfGranule (xs : List (Byte × Bool)) (g : Nat) : List (Byte × Bool) := (xs.drop (32 * g)).take 32

/-- A launch of an id is deterministic (R260): as its record says, or, for one not made yet or gone, as the kernel of its node says in the
graph of its instance. -/
def launchDeterm (s : State) (id : BitVec 64) : Bool :=
  match s.launches.find? fun kl => kl.2.id == id with
  | some kl => kl.2.determ
  | none =>
    match s.hub.instances.find (id >>> 48).toNat with
    | none => false
    | some i =>
      let node := (id >>> 32).toNat % 65536
      match (s.image i.graph).map (·.dpa) with
      | none => false
      | some dpa => decide (node < graphNodes s dpa) && imageField s (((s.image (nodeField s dpa node 0 4)).map (·.dpa)).getD 0) 9 1 % 2 == 1

/-- A window whose launch is deterministic has what is performed into it captured (R269). -/
def capturePacket (s : State) (launch : BitVec 64) (header payload : List Byte) : State :=
  if launchDeterm s launch then capture s 1 (bytesAt header 0 128 ++ payload) else s

/-- The NACK record of a refusal (R238, R248). -/
def noteRefusal (s : State) (ucls unit : Nat) (p : Packet) (translation : Bool) : State :=
  emit s ucls unit 0x402 p.cid (p.win + if translation then 256 else 0)

/-- An answer to a packet goes back by the port it came on (R234, R238; log entry 31): ACK is 6, NACK 7. -/
def answer (s : State) (port kind : Nat) (p : Packet) : State :=
  if 16 ≤ port then s
  else
    transmit s port
      ({ Packet.blank s.dev p.src 2 p.vc kind p.cid with
        efmt := p.kind, nelem := p.cls, offset := p.offset, oseq := p.oseq, chunk := p.chunk, rank := p.rank
        sent := s.time } : Packet).bytes none

/-- A packet is performed: its identity is kept against repeats (R234). -/
def markPerformed (s : State) (p : Packet) : State := s.modHub fun h => { h with performed := p.identity :: h.performed }

/-- A packet has been performed already. -/
def wasPerformed (s : State) (p : Packet) : Bool := s.hub.performed.contains p.identity

end Sys2Proof.Machine
end

