-- ==== Sys2Proof/Machine/Collective.lean ====
section
/-! DEFINITION. The collective engine (R239–R244, R255, R256): the combining ops, the slots, DELIVER, FWD and BCAST. -/

namespace Sys2Proof.Machine

/-! ### The combining ops (R243) -/

/-- Words of a payload. -/
def payloadWord (bs : List Byte) (i : Nat) : Word := BitVec.ofNat 32 (fieldAt bs (4 * i) 4)

/-- A compressed partial or an escape as a cell; `count` is what a DELIVER states (R243, R244). -/
def partialCell (bs : List Byte) : Exa :=
  if fieldAt bs 14 2 = 0xFFFF then
    let st := fieldAt bs 13 1
    { value := BitVec.ofNat 320 (fieldAt bs 16 40), posInf := st % 2 == 1, negInf := st / 2 % 2 == 1, nan := st / 4 % 2 == 1, count := 0 }
  else
    { Exa.clear with value := BitVec.ofInt 320 ((BitVec.ofNat 112 (fieldAt bs 0 14)).toInt * 2 ^ fieldAt bs 14 2) }

/-- The cells of `n` compressed partials. -/
def partialCells : Nat → List Byte → List Exa
  | 0, _ => []
  | n + 1, bs =>
    let k := if fieldAt bs 14 2 = 0xFFFF then 64 else 16
    partialCell (bytesAt bs 0 k) :: partialCells n (bs.drop k)

/-- The cells of a SUMX input: its elements folded into zero cells, or its partials expanded. -/
def inputCells (p : Packet) : List Exa :=
  if p.efmt = 4 then partialCells p.nelem p.payload
  else
    (List.range p.nelem).map fun i =>
      Exa.clear.fold
        (match p.efmt with
          | 1 => FpFmt.bf16.read (fieldAt p.payload (2 * i) 2)
          | 2 => FpFmt.fp16.read (fieldAt p.payload (2 * i) 2)
          | _ => FpFmt.f32.read (fieldAt p.payload (4 * i) 4))

/-- Trailing zero bits of a number, at most `fuel`. -/
def trailingZeros : Nat → Nat → Nat
  | 0, _ => 0
  | fuel + 1, n => if n % 2 = 1 then 0 else 1 + trailingZeros fuel (n / 2)

/-- A cell as a partial, or as an escape (R243). -/
def cellBytes (x : Exa) : List Byte :=
  let v := x.value.toInt
  let b := if v = 0 then 0 else trailingZeros 319 v.natAbs
  let w := Int.fdiv v (2 ^ b : Nat)
  if x.status = 0 ∧ -(2 ^ 111) ≤ w ∧ w < 2 ^ 111 then leBytes 14 (BitVec.ofInt 112 w).toNat ++ leBytes 2 b
  else zeroBytes 13 ++ leBytes 1 x.status ++ leBytes 2 0xFFFF ++ leBytes 40 x.value.toNat ++ zeroBytes 8

/-- SUMX: the exact sums of all inputs, as partials. -/
def combineSum (n : Nat) (ps : List Packet) : List Byte :=
  let cells := ps.map inputCells
  (List.range n).flatMap fun i => cellBytes ((cells.map fun c => c.getD i Exa.clear).foldl Exa.combine Exa.clear)

/-- The factor of one side of an RSCL step. -/
def rescale (mi m : Word) : Word :=
  if Fp.eq (FpFmt.f32.read mi.toNat) (FpFmt.f32.read m.toNat) then 0x3F800000#32
  else if mi = 0xFF800000#32 ∨ m = 0x7F800000#32 then 0#32
  else (exp2Value (rnSub mi m)).1

/-- One RSCL step of two groups (m, s, v …). -/
def rescaleStep (n : Nat) (a b : List Word) : List Word :=
  let m1 := a.getD 0 0#32
  let m2 := b.getD 0 0#32
  let m := BitVec.ofNat 32 (FpFmt.f32.minmax true false m1.toNat m2.toNat).1
  if m = 0xFF800000#32 then m :: List.replicate (n - 1) 0#32
  else if isNan32 m then List.replicate n 0x7FC00000#32
  else
    let f1 := rescale m1 m
    let f2 := rescale m2 m
    m :: (List.range (n - 1)).map fun i =>
      rnAdd (f32Mul (a.getD (i + 1) 0#32) f1).1 (f32Mul (b.getD (i + 1) 0#32) f2).1

/-- RSCL: the groups folded from the least rank on. -/
def combineRescaled (n : Nat) (ps : List Packet) : List Byte :=
  let groups := ps.map fun p => (List.range n).map (payloadWord p.payload)
  match groups with
  | [] => []
  | g :: gs => (gs.foldl (rescaleStep n) g).flatMap fun w => leBytes 4 w.toNat

/-- Elementwise ops on words. -/
def combineWords (f : Word → Word → Word) (n : Nat) (ps : List Packet) : List Byte :=
  (List.range n).flatMap fun i =>
    match ps.map fun p => payloadWord p.payload i with
    | [] => []
    | x :: xs => leBytes 4 (xs.foldl f x).toNat

/-- MAXIX: the pair of the greater key (R123). -/
def combinePairs (n : Nat) (ps : List Packet) : List Byte :=
  (List.range n).flatMap fun i =>
    match ps.map fun p => (payloadWord p.payload (2 * i), payloadWord p.payload (2 * i + 1)) with
    | [] => []
    | x :: xs =>
      let w := xs.foldl (fun a b => if (key64 a.1 a.2).ult (key64 b.1 b.2) then b else a) x
      leBytes 4 w.1.toNat ++ leBytes 4 w.2.toNat

/-- The result's payload of a combining op over inputs in rank order. -/
def combinePayload (op n : Nat) (ps : List Packet) : List Byte :=
  let fp := fun (most : Bool) (a b : Word) => BitVec.ofNat 32 (FpFmt.f32.minmax most false a.toNat b.toNat).1
  match op with
  | 2 => combineSum n ps
  | 3 => combineWords (fp true) n ps
  | 4 => combineWords (fp false) n ps
  | 5 => combineRescaled n ps
  | 7 => combinePairs n ps
  | _ => combineWords (· + ·) n ps

/-- Inputs by ascending rank, earlier arrivals first among equals. -/
def byRank (ps : List Packet) : List Packet := ps.foldr (fun p qs => insert p qs) []
where
  /-- put a packet before the first of a greater or equal rank -/
  insert (p : Packet) : List Packet → List Packet
    | [] => [p]
    | q :: qs => if p.rank ≤ q.rank then p :: q :: qs else q :: insert p qs

/-! ### Drops and completions -/

/-- The reason for which the engine drops a packet before it acts (R240, R242, R244, R436). -/
def chunkReason (p : Packet) : Option Nat :=
  match p.route with
  | [] => some 6
  | e :: rest =>
    let op := entryOp e
    let arg := entryArg e
    if 9 ≤ op then some 3
    else if !acceptsFmt op p.efmt then some 4
    else if p.payload.length != payloadLength p.efmt p.nelem p.payload || decide (4096 < p.payload.length)
        || (op == 2 && decide (64 < p.nelem)) || (op == 5 && decide (p.nelem < 2)) then some 8
    else if !combines op && entryMore e != 0 || op == 0 && !rest.isEmpty || op == 6 && arg / 4 != 0 || combines op && arg % 8 != 0 then
      some 6
    else if op == 0 && (decide (8 ≤ arg) || arg / 2 == 3 || arg / 2 != 0 && p.efmt != 4) then some 7
    else none

/-- Local commands complete as their packet leaves or is delivered (R321). -/
def completeOrigins (s : State) (ids : List Nat) : State := ids.foldl completeLocal s

/-- A packet is dropped: its record, and the local commands it would have completed fault (R321, R436). -/
def dropChunk (s : State) (reason port : Nat) (p : Packet) (origins : List Nat) : State :=
  origins.foldl (fun s id => failLocal s id 1) (fabErr s unitCollective 0 reason port p.cid)

/-- A collective packet goes out of a port, from this device and with the next OSEQ of the link's stream (R234, R241; log entry 32). It waits
for room in the replay store. -/
def sendChunk (s : State) (c : Chunk) (port : Nat) : State :=
  let p := Packet.ofBytes c.bytes
  if storeRoom s port (storedSize c.bytes) then
    let q := { p with src := s.dev, oseq := if p.cls = 0 then nextOseq s (linkStream port) p.vc else 0 }
    let s := if p.cls ≠ 0 then s else takeOseq s (linkStream port) p.vc 1
    completeOrigins (enterStore s port q none []) c.origins
  else s.modHub fun h => { h with waiting := h.waiting ++ [{ c with out := some port }] }

/-! ### Slots (R240, R255) -/

/-- The collective map's entry for a slot: TMO, ROOT and RANKS (R255). -/
def mapEntry (s : State) (collid entry : Nat) : Option (Nat × Nat × List Nat) :=
  (List.range 256).findSome? fun i =>
    let e := homeBytes s (s.hub.cmtbase.toNat + 64 * i) 64
    let nin := fieldAt e 8 1
    if fieldAt e 9 1 % 2 = 1 ∧ fieldAt e 0 4 = collid ∧ fieldAt e 4 2 = s.dev ∧ fieldAt e 6 2 = entry ∧ nin = entryMore entry + 1 then
      some (if fieldAt e 12 4 = 0 then 2000 else fieldAt e 12 4, fieldAt e 10 2, (List.range nin).map fun j => fieldAt e (16 + 2 * j) 2)
    else none

/-- The slot of a set. -/
def slotOf (s : State) (p : Packet) (e : Nat) : Option (Nat × Slot) :=
  s.hub.slots.find? fun ks => ks.2.collid.toNat == p.collid && ks.2.chunk.toNat == p.chunk && ks.2.entry.toNat == e

/-- Open a slot on a set's first input; a map table beyond memory answers with its address. -/
def openSlot (s : State) (p : Packet) (e : Nat) : Except Nat Slot :=
  let s := syncDevice s
  if hbmTop < s.hub.cmtbase.toNat + 16384 then .error s.hub.cmtbase.toNat
  else
    let m := mapEntry s p.collid e
    .ok
      { collid := BitVec.ofNat 32 p.collid, chunk := BitVec.ofNat 16 p.chunk, entry := BitVec.ofNat 16 e, fired := false
        mapped := m.isSome, tmo := (m.map (·.1)).getD 2000, opened := s.time, ranks := (m.map (·.2.2)).getD []
        root := (m.map (·.2.1)).getD 0xFFFF, inputs := [], origins := [] }

/-- The ranks a mapped slot still awaits, in route order (R255). -/
def Slot.missing (x : Slot) : List Nat :=
  let here := x.inputs.map fun i => (Packet.ofBytes i.2).rank
  x.ranks.filter fun r => !here.contains r

/-- A full set combines (R240, R243): its result, or nothing when the set is dropped whole. -/
def fireSlot (s : State) (x : Slot) : State × Option Chunk :=
  let ps := x.inputs.map fun i => (i.1, Packet.ofBytes i.2)
  match byRank (ps.map (·.2)) with
  | [] => (s, none)
  | p :: rest =>
    if rest.any fun q => q.nelem != p.nelem || q.route.tail != p.route.tail then
      let s := ps.foldl (fun s q => fabErr s unitCollective 0 5 q.1 q.2.cid) s
      (x.origins.foldl (fun s id => failLocal s id 1) s, none)
    else
      let e := p.route.headD 0
      let c := newCollCid s
      let s := ps.foldl (fun s q => emit s unitCollective 0 0x403 c.1 q.2.cid.toNat) c.2
      let s := if x.fired then emit s unitCollective 0 0x405 c.1 (p.collid + 2 ^ 32 * p.chunk) else s
      let r : Packet :=
        { p with
          src := s.dev, cid := c.1, efmt := if entryOp e = 2 then 4 else p.efmt, route := p.route.tail
          oseq := 0, nsrc := (p :: rest).foldl (fun m q => m + q.nsrc) 0
          payload := combinePayload (entryOp e) p.nelem (p :: rest) }
      (s, some ⟨16, r.bytes, x.origins, if entryArg e / 8 = 1 then none else some (entryPort e)⟩)

/-- A packet joins its set; without a free slot it waits in its channel, not acknowledged. -/
def joinSlot (s : State) (c : Chunk) (p : Packet) (e : Nat) : Except Nat (State × List Chunk) :=
  let free := (List.range 2048).find? fun i => (s.hub.slots.find i).isNone
  let go := fun (i : Nat) (x : Slot) =>
    let s := answer (if c.port < 16 then markPerformed s p else s) c.port 6 p
    let x := { x with inputs := x.inputs ++ [(c.port, c.bytes)], origins := x.origins ++ c.origins }
    if x.inputs.length = entryMore e + 1 then
      let r := fireSlot (s.modHub fun h => { h with slots := h.slots.drop i }) x
      (r.1, r.2.toList)
    else (s.modHub fun h => { h with slots := h.slots.put i x }, [])
  match slotOf s p e with
  | some (i, x) => .ok (go i x)
  | none =>
    match free with
    | none => .ok (s.modHub fun h => { h with waiting := h.waiting ++ [c] }, [])
    | some i =>
      match openSlot s p e with
      | .error pa => .error pa
      | .ok x => .ok (go i x)

/-! ### DELIVER (R244) -/

/-- The bytes a DELIVER writes. -/
def deliverBytes (p : Packet) (form : Nat) : List Byte :=
  match form with
  | 1 => (inputCells p).flatMap fun x => leBytes 4 (x.round .rne).1.toNat
  | 2 => (inputCells p).flatMap fun x => leBytes 64 { x with count := min p.nsrc Exa.maxCount }.toNat
  | _ => p.payload

/-- Note a signalled delivery for the handle reads that come before its signal is observed (R291). -/
def recordDelivery (s : State) (launch : BitVec 64) (p : Packet) (ps : List (Nat × Nat)) (before now : List Byte) : State :=
  let at' := ps.flatMap fun q => (List.range q.2).map (q.1 + ·)
  let changed := (at'.zip (before.zip now)).filter fun x => x.2.1 != x.2.2
  s.modHub fun h =>
    { h with deliveries := h.deliveries ++ [⟨p.cid, launch, p.sigblk, p.sigbar, changed, none, none, []⟩] }

/-- DELIVER: the window check, the write, the signal. -/
def deliverChunk (s : State) (c : Chunk) (p : Packet) (arg : Nat) : Except Nat State :=
  let s := syncDevice s
  let bs := deliverBytes p (arg / 2 % 4)
  let finished := fun (s : State) =>
    completeOrigins (answer (if c.port < 16 then markPerformed s p else s) c.port 6 p) c.origins
  match checkWindow s p.win p.key permColl p.offset bs.length .store with
  | .absent pa => .error pa
  | .refused tr => .ok (finished (noteRefusal s unitCollective 0 p tr))
  | .ok ps _ launch =>
    let before := (readWindow s ps).1
    let s := capturePacket (writeWindow s ps bs) launch c.bytes bs
    let s := if arg % 2 = 1 then recordDelivery s launch p ps before bs else s
    .ok (finished (if arg % 2 = 1 then deliverArrival s launch p.sigblk p.sigbar p.cid else s))

/-! ### The engine acts -/

/-- The engine acts on the first entry of a packet; the packets that go on from here come back (R240). -/
def actChunk (s : State) (c : Chunk) : Except Nat (State × List Chunk) :=
  let p := Packet.ofBytes c.bytes
  match chunkReason p, p.route with
  | some r, _ => .ok (dropChunk s r c.port p c.origins, [])
  | none, [] => .ok (s, [])
  | none, e :: rest =>
    let next := { p with route := rest }.bytes
    let took := fun (s : State) => answer (if c.port < 16 then markPerformed s p else s) c.port 6 p
    match entryOp e with
    | 0 => (deliverChunk s c p (entryArg e)).map fun s => (s, [])
    | 1 => .ok (took s, [⟨16, next, c.origins, some (entryPort e)⟩])
    | 6 =>
      let mask := BitVec.ofNat 16 (if entryArg e % 2 = 1 then p.fan1 else p.fan0)
      let outs := (((List.range 16).filter fun i => mask.getLsbD i).map some) ++ (if entryArg e / 2 % 2 = 1 then [none] else [])
      match outs with
      | [] => .ok (completeOrigins (took s) c.origins, [])
      | o :: os => .ok (took s, ⟨16, next, c.origins, o⟩ :: os.map fun o => ⟨16, next, [], o⟩)
    | _ => joinSlot s c p e

/-- Let packets act and leave until each has left, been delivered, or waits. -/
def runChunks : Nat → State → List Chunk → Except Nat State
  | _, s, [] => .ok s
  | 0, s, cs => .ok (s.modHub fun h => { h with waiting := h.waiting ++ cs })
  | fuel + 1, s, c :: cs =>
    match c.out with
    | some port => runChunks fuel (sendChunk s c port) cs
    | none =>
      match actChunk s c with
      | .error pa => .error pa
      | .ok (s, more) => runChunks fuel s (more ++ cs)

/-- A packet would wait for a free combining slot. -/
def wantsSlot (s : State) (p : Packet) : Bool :=
  match p.route with
  | [] => false
  | e :: _ =>
    combines (entryOp e) && (chunkReason p).isNone && (slotOf s p e).isNone
      && ((List.range 2048).find? fun i => (s.hub.slots.find i).isNone).isNone

/-- The OSEQ that a link's stream performs next, and its advance (R234, R241). -/
def nextOnLink (s : State) (port : Nat) (p : Packet) : Nat := (s.hub.oseqIn.find (streamKey (linkStream port) p.vc)).getD 0
def advanceLink (s : State) (port : Nat) (p : Packet) : State :=
  s.modHub fun h => { h with oseqIn := h.oseqIn.put (streamKey (linkStream port) p.vc) ((nextOnLink s port p + 1) % 2 ^ 32) }

/-- Collective packets of links' streams held behind a gap, or for a slot, are performed in their turn. -/
def drainLinks : Nat → State → Except Nat State
  | 0, s => .ok s
  | fuel + 1, s =>
    let mine := fun (x : Nat × List Byte × Nat) =>
      let p := Packet.ofBytes x.2.1
      p.kind == 5 && p.oseq == nextOnLink s x.1 p && !wantsSlot s p
    match s.hub.ahead.find? mine with
    | none => .ok s
    | some x =>
      let s := advanceLink (s.modHub fun h => { h with ahead := h.ahead.erase x }) x.1 (Packet.ofBytes x.2.1)
      match runChunks 4096 s [⟨x.1, x.2.1, [], none⟩] with
      | .error pa => .error pa
      | .ok s => drainLinks fuel s

/-- The packets that wait at this hub try again. -/
def pumpChunks (s : State) : Except Nat State :=
  match (if s.hub.waiting.isEmpty then .ok s
    else runChunks 4096 (s.modHub fun h => { h with waiting := [] }) s.hub.waiting : Except Nat State) with
  | .error pa => .error pa
  | .ok s => drainLinks s.hub.ahead.length s

/-- A collective packet arrives on a port: a repeat of a performed one is acknowledged, a repeat of a waiting one ignored; an ORDERED one
is performed in the order of its link's stream (R234, R241). -/
def receiveChunk (s : State) (port : Nat) (bs : List Byte) : Except Nat State :=
  let p := Packet.ofBytes bs
  if wasPerformed s p then .ok (answer s port 6 p)
  else if (s.hub.waiting.any fun c => c.bytes == bs) || s.hub.ahead.any fun x => x.1 == port && x.2.1 == bs then .ok s
  else if p.cls ≠ 0 then
    match runChunks 4096 s [⟨port, bs, [], none⟩] with
    | .error pa => .error pa
    | .ok s => pumpChunks s
  -- a place the stream has passed without performing: the packet was dropped
  else if 2 ^ 31 ≤ (p.oseq + 2 ^ 32 - nextOnLink s port p) % 2 ^ 32 then .ok s
  else pumpChunks (s.modHub fun h => { h with ahead := h.ahead ++ [(port, bs, 0)] })

/-! ### Watchdogs (R256) -/

/-- The watchdog of an open slot expires: once for a slot, at OPENED + TMO. The root, if it is another device, gets a CONTROL
packet with the CID and the fields of the record; its KIND is not stated (log entry 33). -/
def fireWatchdog (s : State) (i : Nat) : State :=
  match s.hub.slots.find i with
  | none => s
  | some x =>
    if x.fired ∨ s.time < x.opened + 1000000 * x.tmo then s
    else
      let s := s.modHub fun h => { h with slots := h.slots.put i { x with fired := true } }
      let rank := if x.mapped then x.missing.headD 0xFFFF else 0xFFFF
      let c := newCollCid s
      let s := emit c.2 unitCollective 0 0x005 c.1 (x.collid.toNat + 2 ^ 32 * x.chunk.toNat + 2 ^ 48 * rank)
      if x.root = 0xFFFF ∨ x.root = s.dev then s
      else
        match choosePort s x.root 0 0 with
        | none => fabErr s unitPort 0 1 16 c.1
        | some port =>
          transmit s port
            ({ Packet.blank s.dev x.root 2 0 ((Config.freeWord s.tick 33).toNat % 6) c.1 with
              collid := x.collid.toNat, chunk := x.chunk.toNat, rank := rank, sent := s.time } : Packet).bytes none

end Sys2Proof.Machine
end

