-- ==== Sys2Proof/Machine/Spawn.lean ====
section
/-! DEFINITION. `SPAWN` and `HPASS` (R344, R345, R398–R400), and the walker's handling of them in its order (R198, R204). -/

namespace Sys2Proof.Machine

/-- A handle that a command may not carry: KIND 3, or a held one that is not live on the issuing core and of the issuing block
(R344, R399). -/
def badHandle (s : State) (t : Team) (h : BitVec 64) : Bool :=
  handleKind h == 3
    || (handleKind h == 1 && match heldBy s h with
      | none => true
      | some x => handleCore h != coreOfTeam s.cur || x.block != t.block)

/-- The device address of the graph image of a team's launch. -/
def graphOf (s : State) (t : Team) : Nat := (((s.launchOf t).bind fun l => s.image l.graph).map (·.dpa)).getD 0

/-- NNODES of the graph of a team's launch; 0 where there is no graph. -/
def graphSize (s : State) (t : Team) : Nat :=
  match (s.launchOf t).bind fun l => s.image l.graph with
  | some i => graphNodes s i.dpa
  | none => 0

/-- What a command asks of the walker: its handle, node, instance number, deadline, argument block. The queue is in `dev`. -/
structure WalkerAsk where
  handle   : Nat
  node     : Nat
  inum     : Nat
  deadline : Nat
  argva    : Nat
  queue    : Nat
  deriving DecidableEq, Repr

/-- Keep what a command asks of the walker. -/
def askWalker (s : State) (id : Nat) (a : WalkerAsk) : State :=
  s.modCmd id fun c => { c with index := [a.handle, a.node, a.inum, a.deadline, a.argva], dev := a.queue }

/-- Read it back. -/
def Cmd.ask (c : Cmd) : WalkerAsk :=
  ⟨c.index.getD 0 0, c.index.getD 1 0, c.index.getD 2 0, c.index.getD 3 0, c.index.getD 4 0, c.dev⟩

/-- A `SPAWN` waits for room in a queue, with a back-pressure event (R204). -/
def waitForRoom (s : State) (team id q : Nat) : State :=
  let x := s.queue q
  let s := s.setQueue q { x with blocked := x.blocked + 1, waiters := x.waiters ++ [⟨s.hub.walkSeq, team, id⟩] }
  let s := s.modHub fun h => { h with walkSeq := h.walkSeq + 1 }
  emit s unitWalker 0 0x304 0 (q + 2 ^ 32 * (x.blocked + 1))

/-- A `SPAWN` goes to the walker; one whose queue is full, the work ahead of it counted, blocks its team at the end of the run (R204,
R400). -/
def queueSpawn (s : State) (id q : Nat) : State :=
  if queueTaken s q < (s.queue q).size then toWalker s (.spawn id)
  else
    let s := waitForRoom s s.cur id q
    s.modTeam s.cur fun t => t.modRun fun r => { r with blocks := some (.spawn q), closes := true }

/-- `SPAWN`. -/
def execSpawn (x y z : BitVec 6) (b : BitVec 4) (s : State) : Out :=
  command s [x.toNat, y.toNat, z.toNat] fun s t blk =>
    let ra := (t.readS s.tick x.toNat).toNat
    let node := (t.readS s.tick y.toNat).toNat
    let inum := (t.readS s.tick z.toNat).toNat
    let place := localRange s blk ra 32
    let rec0 := match place with
      | some p => scratchBytes s p.1 p.2 32
      | none => (zeroBytes 32, false)
    let bs := rec0.1
    let handle := BitVec.ofNat 64 (fieldAt bs 16 8)
    let dpa := graphOf s t
    if graphSize s t ≤ node || inum == 0 || fieldAt bs 8 8 % 64 != 0 || fieldAt bs 24 8 != 0 || badHandle s t handle then refuseOp s
    else if ra % 32 ≠ 0 then misaligned s 32 ra
    else if place.isNone then outside s ra
    else if rec0.2 then .next (s.modTeam s.cur fun t => t.consume t.acting)
    else
      let q := nodeQueue s dpa node (nodeField s dpa node 0 4)
      let dead := fieldAt bs 0 8
      let ask : WalkerAsk :=
        { handle := handle.toNat, node := node, inum := inum, queue := q
          deadline := if dead = 0 then ((s.launchOf t).map (·.deadline.toNat)).getD 0 else dead
          argva := if fieldAt bs 8 8 = 0 then nodeField s dpa node 40 8 else fieldAt bs 8 8 }
      Out.issued (issueOrder s t b.toNat (bareOrder .spawn (.global 0) (.global 0) 0 [] [] []) false) s.hub.nextCmd fun s' =>
        queueSpawn (askWalker s' s.hub.nextCmd ask) s.hub.nextCmd q

/-- `HPASS`. -/
def execHpass (x y z : BitVec 6) (b : BitVec 4) (s : State) : Out :=
  command s [x.toNat, x.toNat + 1, y.toNat, z.toNat] fun s t _ =>
    let h := t.readPair s.tick x.toNat
    let node := (t.readS s.tick y.toNat).toNat
    let inum := (t.readS s.tick z.toNat).toNat
    let mine := ((s.launchOf t).map Launch.node).getD 0
    if x.getLsbD 0 || handleKind h == 0 || badHandle s t h || graphSize s t ≤ node || !(nodeSuccs s (graphOf s t) mine).contains node then
      refuseOp s
    else
      Out.issued (issueOrder s t b.toNat (bareOrder .hpass (.global 0) (.global 0) 0 [] [] []) false) s.hub.nextCmd fun s' =>
        let id := s.hub.nextCmd
        toWalker (askWalker s' id ⟨h.toNat, node, inum, 0, 0, 0⟩) (.pass id)

/-! ### The walker's order (R198, R204) -/

/-- A command leaves the walker's lists. -/
def leaveWalker (s : State) (id : Nat) : State :=
  s.modHub fun h => { h with
    walk := h.walk.filter fun i => i.work != .spawn id && i.work != .pass id
    queues := h.queues.map fun kq => (kq.1, { kq.2 with waiters := kq.2.waiters.filter fun w => w.cmd != id }) }

/-- `SPAWN_ACCEPT`: the walker builds a spawned launch's record and writes it into its queue (R199). A stopped instance's launch is made and
waits (R225); there is none to make once the instance has gone. -/
def execSpawnAccept (s : State) : Out :=
  let s := pumpWalker s
  match walkerNext s with
  | some (.spawn id) =>
    match s.cmd id with
    | none => .next (leaveWalker s id)
    | some c =>
      match (s.launch c.launch).bind s.instanceOf with
      | none => .next (completeLocal (leaveWalker s id) id)
      | some (_, inst) =>
        let a := c.ask
        if !queueHasRoom s a.queue then .next (waitForRoom (leaveWalker s id) c.team id a.queue)
        else
          let l := makeLaunch s inst a.node a.inum 1 (BitVec.ofNat 64 a.deadline) (BitVec.ofNat 64 a.argva) (BitVec.ofNat 64 a.handle)
          let r := addLaunch (leaveWalker s id) l
          .next (killDoomed (pumpWalker (completeLocal (acceptLaunch r.1 r.2) id)))
  | _ => .next s

/-- `PASS_RECORD`: the walker handles a pass (R345). -/
def execPassRecord (s : State) : Out :=
  let s := pumpWalker s
  match walkerNext s with
  | some (.pass id) =>
      let s := leaveWalker s id
      match s.cmd id with
      | none => .next s
      | some c =>
        let a := c.ask
        let tag := ((s.launch c.launch).map Launch.tag).getD 0
        let target := launchId tag a.node a.inum
        let h := BitVec.ofNat 64 a.handle
        let same := s.launches.filter fun kl => kl.2.id == target && kl.2.accepted != 0
        match (same.find? fun kl => !kl.2.ended).orElse fun _ => same.head? with
        | none => .next (pumpWalker (completeLocal (s.modHub fun hub => { hub with passed := hub.passed ++ [(target, h)] }) id))
        | some (n, l) =>
          if l.next = 0 ∧ l.handle = 0 ∧ ¬ l.ended then
            .next (killDoomed (pumpWalker (completeLocal (writeSlice (s.setLaunch n { l with handle := h }) n 40 8) id)))
          else .next (pumpWalker (failLocal s id 1))
  | _ => .next s

end Sys2Proof.Machine
end

