-- ==== Sys2Proof/Machine/Commands.lean ====
section
/-! DEFINITION. Host commands: records, acceptance, refusal and completion (R17–R20, R258), and the end of a STOP (R225). -/

namespace Sys2Proof.Machine

/-! ### Records (R19) -/

/-- Bytes of a record are zero. -/
def zeroAt (r : List Byte) (off n : Nat) : Bool := fieldAt r off n == 0

/-- The CRC of a record holds (R19). -/
def cmdCrcOk (r : List Byte) : Bool := (crc32c (bytesAt r 0 60)).toNat == fieldAt r 60 4

/-- The record in the slot at SQHEAD, when the device reads one: the channel is open, the ring holds a record, and the completion
ring has room (R18, R29). -/
def nextRecord (s : State) : Option (List Byte) :=
  let m := s.module
  if m.channel && m.sqHead != m.sqTail && (m.cqTail + 1) % m.cqSize != m.cqHead % m.cqSize then
    some ((List.range 64).map fun i => Sparse.get 0#8 m.sq (64 * m.sqHead + i))
  else none

/-- The device has read a slot. -/
def takeSlot (s : State) : State := s.modModule fun m => { m with sqHead := (m.sqHead + 1) % 4096 }

/-- A command is refused: its one entry is journaled and posted (R19, R20, R258). -/
def refuseCommand (s : State) (r : List Byte) (result : Result) (reason : Nat) : State :=
  (report (takeSlot s) (cmdInfo r result reason 0 []) 0).1

/-- Nothing is carried. -/
def Queued.empty : Queued := ⟨[], 0, none⟩

/-- A command is accepted: its acceptance entry is journaled and posted, and it is pending under that sequence. It executes now, or awaits
its turn with what it carries (R17). -/
def acceptAs (s : State) (r arg : List Byte) (started : Bool) (q : Queued) : State × Nat :=
  let x := report (takeSlot s) (cmdInfo r .accepted reasonNone 0 arg) 0
  (x.1.modModule fun m => { m with pending := m.pending ++ [⟨r, x.2, s.time, started, q⟩] }, x.2)

/-- A command that executes on acceptance. -/
def acceptCommand (s : State) (r arg : List Byte) : State × Nat := acceptAs s r arg true Queued.empty

/-! ### STOP (R225) -/

/-- A resident block of an instance. -/
def residentBlocks (s : State) (tag : Nat) (i : Instance) : List (Nat × Block) :=
  s.blocks.filter fun kb => (s.launch kb.2.launch).any fun l => l.tag == tag && l.graph == i.graph

/-- A stopping instance with no block resident has stopped, and its STOPs are done. -/
def checkStop (s : State) : State :=
  s.hub.instances.foldl
    (fun s ki =>
      if ki.2.stopping.isEmpty || !(residentBlocks s ki.1 ki.2).isEmpty then s
      else
        let s := s.modHub fun h => { h with instances := h.instances.update ki.1 fun i => { i with stopping := [] } }
        ki.2.stopping.foldl (fun s x => completeCommand s x.2 .done [] 0) s) s

end Sys2Proof.Machine
end

