-- ==== Sys2Proof/Machine/Matrix.lean ====
section
/-! DEFINITION. The cluster matrix engine: reservations, their grant and retirement, freezing, drain and restore
(R175–R193, R294, R295, R367–R369). -/

namespace Sys2Proof.Machine

/-! ### Reservations (R178, R185, R186) -/

/-- What a reservation does. -/
inductive ResKind where
  | mldwTile | mldwHandle | mma | mz | accrd | accrdF | accwr | accwrF
  deriving DecidableEq, Repr

/-- The kind that an instruction word of majors 0x2D and 0x2E reserves (R178). -/
def resKind (w : Nat) : Option ResKind :=
  if w / 2 ^ 25 % 64 = 0x2D then
    match w / 2 ^ 22 % 8 with
    | 0 => some (if w / 2 ^ 15 % 2 = 1 then .mldwHandle else .mldwTile)
    | 1 => some .mma
    | 2 => some .mz
    | _ => none
  else if w / 2 ^ 25 % 64 = 0x2E then
    match w / 8 % 8 with
    | 0 => some .accrd
    | 1 => some .accrdF
    | 2 => some .accwr
    | 3 => some .accwrF
    | _ => none
  else none

/-- It moves accumulator elements through the port and leaves the array alone (R187). -/
def ResKind.port : ResKind → Bool
  | .accrd => true
  | .accrdF => true
  | .accwr => true
  | .accwrF => true
  | _ => false

def Reservation.kind (r : Reservation) : ResKind := (resKind r.word).getD .mz
/-- It takes a turn of the array's weights, which freezing stops (R190). -/
def Reservation.freezes (r : Reservation) : Bool := r.kind = .mldwTile || r.kind = .mldwHandle || r.kind = .mma
/-- The captured tile descriptor. -/
def Reservation.tile (r : Reservation) : Tile := tileOf r.desc tileReady false
/-- The weight slot it names. -/
def Reservation.slot (r : Reservation) : Option Nat :=
  match r.kind with
  | .mldwTile => some (r.word / 2 ^ 14 % 2)
  | .mldwHandle => some (r.word / 2 ^ 14 % 2)
  | .mma => some (r.word / 2 ^ 6 % 2)
  | _ => none
/-- The block rows it names (R186). -/
def Reservation.rows (r : Reservation) : List Nat :=
  match r.kind with
  | .mma => (List.range r.tile.rows).map (r.opA + ·)
  | .mz => (List.range r.opB).map (r.opA + ·)
  | .mldwTile => []
  | .mldwHandle => []
  | _ => (lanesOf r.mask 1024).map (r.opA + ·)

/-- Two reservations of one block conflict (R186). -/
def Reservation.conflicts (a b : Reservation) : Bool :=
  a.block == b.block
    && ((a.slot.isSome && a.slot == b.slot) || a.rows.any fun x => b.rows.contains x)

/-- The reservations of a block in a table, in issue order. -/
def blockReservations (c : Cluster) (bk : Nat) : List (Nat × Reservation) :=
  let all := c.table.filter fun kr => kr.2.block == bk
  (List.range all.length).foldl
    (fun (acc : List (Nat × Reservation) × List (Nat × Reservation)) _ =>
      match acc.2.foldl (fun (m : Option (Nat × Reservation)) x =>
          match m with
          | none => some x
          | some y => if x.2.order < y.2.order then some x else some y) none with
      | none => acc
      | some x => (acc.1 ++ [x], acc.2.filter fun y => y.1 != x.1))
    ([], all) |>.1

/-- The earlier reservations that a reservation waits for (R186). -/
def blockers (c : Cluster) (r : Reservation) : List (Nat × Reservation) :=
  c.table.filter fun kq => decide (kq.2.order < r.order) && kq.2.conflicts r

/-- The engine is frozen (R190): a team at trap depth 1 or deeper is resident on a core of the cluster. -/
def frozen (s : State) (cl : Nat) : Bool :=
  s.teams.any fun kt => clusterOf (coreOfTeam kt.1) == cl && decide (1 ≤ kt.2.depth) && !kt.2.ended

/-- The lowest free entry. -/
def freeEntry (c : Cluster) : Option Nat := (List.range 16).find? fun i => (c.table.find i).isNone

/-! ### Weights and activations (R176, R180, R181) -/

/-- `n` values of a store from an address on, each unlisted one the default. -/
def Sparse.span {α : Type} (d : α) : Sparse α → Nat → Nat → List α
  | [], _, n => List.replicate n d
  | (k, v) :: m, a, n =>
    if k < a then Sparse.span d m a n
    else if a + n ≤ k then List.replicate n d
    else List.replicate (k - a) d ++ v :: Sparse.span d m (k + 1) (n - (k - a) - 1)

/-- A store that holds a list of values from address 0 on. -/
def Sparse.ofList {α : Type} [DecidableEq α] (d : α) (xs : List α) : Sparse α :=
  xs.zipIdx.filterMap fun xi => if xi.1 = d then none else some (xi.2, xi.1)

def Weights.dense (w : Weights) : List Byte := Sparse.span 0#8 w.bytes 0 slotBytes

/-- A local byte of a block with its poison, as the engine reads it; free where the byte no longer lies in an allocation. -/
def engineByte (s : State) (b : Block) (a : Nat) : Byte × Bool :=
  match localPlace s b a with
  | some p => let x := scratchBytes s p.1 p.2 1; (x.1.getD 0 0#8, x.2)
  | none => ((Config.freeWord s.tick a).setWidth 8, false)

/-- Local bytes from an address on: together where they lie in one allocation. -/
def engineBytes (s : State) (b : Block) (a n : Nat) : List Byte × Bool :=
  match localRange s b a n with
  | some p => scratchBytes s p.1 p.2 n
  | none =>
    let bs := (List.range n).map fun i => engineByte s b (a + i)
    (bs.map (·.1), bs.any (·.2))

/-- The image of a tile as contiguous lines, the lines' own order kept: element (line, position) at 256 × line + 2 × position. -/
def tileImage (s : State) (b : Block) (t : Tile) : List Byte × Bool :=
  if t.layout = 2 then engineBytes s b t.laddr t.extent
  else
    let ls := (List.range t.lines).map fun i => engineBytes s b (t.laddr + i * t.pitch) t.lineSize
    (ls.flatMap (·.1), ls.any (·.2))

/-- The slot bytes of a weight image (R192): the scales and planes of NPI as they stand, else w[k][j] at 1,024 + 256k + 2j. -/
def slotImage (layout : Nat) (bs : List Byte) : List Byte :=
  if layout = 2 then bs
  else
    let a := bs.toArray
    zeroBytes 1024 ++ (List.range 128).flatMap fun k => (List.range 128).flatMap fun j =>
      let p := if layout = 1 then 256 * j + 2 * k else 256 * k + 2 * j
      [a.getD p 0#8, a.getD (p + 1) 0#8]

/-- A vector of 128 operands: exact values, or the integer factors of an NPI vector with its four scales. -/
inductive DotVec where
  | plain (xs : List Fp)
  | npi (factors : List Int) (scales : List Fp)
  deriving DecidableEq, Repr

/-- The values of a vector, exactly (R116). -/
def DotVec.values : DotVec → List (Option Fp)
  | .plain xs => xs.map some
  | .npi ks scales => ks.zipIdx.map fun ki => npiValue (scales.getD (ki.2 / 32) (.fin false 0 0)) ki.1

/-- The integer dot of group `g` (R118). -/
def groupDot (xs ys : List Int) (g : Nat) : Int :=
  (((xs.drop (32 * g)).take 32).zip ((ys.drop (32 * g)).take 32)).foldl (fun n xy => n + xy.1 * xy.2) 0

/-- The products of two vectors (R118). -/
def dotProducts (a w : DotVec) : List (Option Fp) :=
  match a, w with
  | .npi xs sa, .npi ys sw =>
    (List.range 4).map fun g => npiGroup (groupDot xs ys g) (sa.getD g (.fin false 0 0)) (sw.getD g (.fin false 0 0))
  | _, _ => (a.values.zip w.values).map fun xy =>
    match xy.1, xy.2 with
    | some x, some y => Fp.mul x y
    | _, _ => none

/-- NPI vector `v` of an image (R115, R116). -/
def npiVector (byte : Nat → Byte) (p v : Nat) : DotVec :=
  .npi ((List.range 128).map fun k => npiFactor p (npiCode byte p (128 * v + k)))
    ((List.range 4).map fun g => npiScale byte (128 * v + 32 * g))

/-- A two-byte element. -/
def readHalf (fmt : Nat) (byte : Nat → Byte) (p : Nat) : Fp :=
  (if fmt = 2 then FpFmt.fp16 else FpFmt.bf16).read ((byte p).toNat + 256 * (byte (p + 1)).toNat)

/-- Output column `j` of a weight slot. -/
def weightColumn (fmt : Nat) (byte : Nat → Byte) (j : Nat) : DotVec :=
  if npiFmt fmt then npiVector byte (npiPlanes fmt) j
  else .plain ((List.range 128).map fun k => readHalf fmt byte (1024 + 256 * k + 2 * j))

/-- Activation row `i` of a tile from its lines (R135, R115). -/
def activationRow (t : Tile) (byte : Nat → Byte) (i : Nat) : DotVec :=
  if t.layout = 2 then npiVector byte (npiPlanes t.fmt) i
  else .plain ((List.range 128).map fun k =>
    readHalf t.fmt byte (if t.layout = 1 then k * t.lineSize + 2 * i else i * t.lineSize + 2 * k))

/-! ### The accumulators (R177, R183) -/

/-- The key of an element of a block row. -/
def accKey (b : Block) (row col : Nat) : Nat := 128 * (b.accBase + row) + col

/-- A half of an element: `hi` is the first (R177). -/
def accHalf (x : BitVec 64) (i : Nat) : Word := (x >>> (32 * i)).setWidth 32
def accElement (hi lo : Word) : BitVec 64 := pair64 hi lo

/-- Write an element with its poison. -/
def accWrite (s : State) (core key : Nat) (x : BitVec 64) (pois : Bool) : State :=
  s.modCore core fun c => { c with acc := Sparse.set 0#64 c.acc key x, accPoison := Sparse.set false c.accPoison key pois }

/-- The two halves that an accumulator move reads or leaves where a copy has written the element in an open phase: each is
one of two, the choice free (R295, log entry 2). -/
def eitherHalf (s : State) (key : Nat) (x y : BitVec 64) : BitVec 64 :=
  let pick := fun i => if Config.pickNew s.tick (2 * key + i) then accHalf x i else accHalf y i
  accElement (pick 0) (pick 1)

/-- The copy's other value of an element. -/
def openElement (s : State) (core key : Nat) : Option (BitVec 64) :=
  ((s.core core).accOpen.find? fun x => x.1 == key).map (·.2.1)

/-- Read an element as an accumulator move does. -/
def accRead (s : State) (core key : Nat) : BitVec 64 × Bool :=
  let c := s.core core
  let x := Sparse.get 0#64 c.acc key
  (match openElement s core key with
    | some y => eitherHalf s key x y
    | none => x, Sparse.get false c.accPoison key)

/-- Write an element as an accumulator move does. -/
def accMove (s : State) (core key : Nat) (x : BitVec 64) (pois : Bool) : State :=
  let old := Sparse.get 0#64 (s.core core).acc key
  accWrite s core key
    (match openElement s core key with
      | some _ => eitherHalf s key x old
      | none => x) pois

/-! ### Grant -/

/-- Write a weight slot. -/
def setSlot (s : State) (cl bk n : Nat) (w : Option Weights) : State :=
  s.modCluster cl fun c => { c with slots := match w with
    | some w => c.slots.put (2 * bk + n) w
    | none => c.slots.drop (2 * bk + n) }

/-- Change an entry. -/
def modEntry (s : State) (cl e : Nat) (f : Reservation → Reservation) : State :=
  s.modCluster cl fun c => { c with table := c.table.update e f }

/-- A trap that the issuing team takes before its next run (R189, R191). -/
def oweMatrix (s : State) (r : Reservation) (cause : Nat) (detail : Word) (addr : Nat) (inH : Bool) : State :=
  owe s r.team r.block (((s.block r.block).map (·.launch)).getD 0) r.cid (.owed cause detail addr inH)

/-- The fields of a global tile handle (R137). -/
def tileHandleVa (h : BitVec 64) : Nat := h.toNat % 2 ^ 56 / 128 * 128
def tileHandleLayout (h : BitVec 64) : Nat := h.toNat / 32 % 4
def tileHandleFmt (h : BitVec 64) : Nat := h.toNat % 32

/-- The formats of the engine (R179). -/
def engineFmt (f : Nat) : Bool := f == 1 || f == 2 || npiFmt f

/-- A handle keeps the rules of R133 and R137 and names a format of the engine. -/
def tileHandleOk (h : BitVec 64) : Bool :=
  h.toNat / 2 ^ 56 == 0 && engineFmt (tileHandleFmt h)
    && (if npiFmt (tileHandleFmt h) then tileHandleLayout h == 2 else decide (tileHandleLayout h < 2))

/-- Bytes of a handle's image. -/
def tileHandleSize (h : BitVec 64) : Nat := if tileHandleLayout h = 2 then 1024 + 2048 * npiPlanes (tileHandleFmt h) else 32768

/-- A tile keeps what R179 asks of weights. -/
def Tile.weights (t : Tile) : Bool := t.rows == 128 && t.cols == 128 && engineFmt t.fmt

/-- The element of an image that bit `j` of byte `i` belongs to: an NPI scale, an NPI code, or a half (R115, R135). -/
def imageElement (layout i j : Nat) : Nat :=
  if layout = 2 ∧ 1024 ≤ i then 2 ^ 20 + 8 * ((i - 1024) % 2048) + j else i / 2

/-- A byte of which each bit goes with its element: the new one's or the old one's, the choice free (R291, R369; log entry 2). -/
def blendByte (tick layout i : Nat) (old new : Byte) : Byte :=
  (List.range 8).foldl
    (fun x j => x ||| ((if Config.pickNew tick (2 ^ 30 + imageElement layout i j) then new else old) &&& (1#8 <<< j))) 0#8

/-- The image of a reservation's tile as the engine reads it: an element that was stored to since the issue is the old or the new one
(R369). -/
def Reservation.read (s : State) (r : Reservation) (b : Block) : List Byte × Bool :=
  let img := tileImage s b r.tile
  (img.1.zipIdx.map fun x =>
    match r.seen[x.2]? with
    | some old => if old = x.1 then x.1 else blendByte s.tick r.tile.layout x.2 old x.1
    | none => x.1, img.2)

/-- A weight load from a tile (R180); a restored record whose descriptor is no weight tile leaves free bytes (log entry 22). -/
def loadTile (s : State) (cl : Nat) (r : Reservation) (b : Block) : State :=
  let t := r.tile
  let img := r.read s b
  let bs := if t.weights then img.1 else (List.range slotBytes).map fun i => (Config.freeWord s.tick i).setWidth 8
  setSlot s cl r.block (r.slot.getD 0) (some ⟨t.fmt, Sparse.ofList 0#8 (slotImage t.layout bs), img.2⟩)

/-- A reservation's team had not observed a delivery's signal when it issued (R291). -/
def Reservation.missed (s : State) (r : Reservation) (b : Block) (d : Delivery) : Bool :=
  d.launch == s.launchIdOf b.launch
    && !(d.block == b.index && (match d.seen.find r.number with
      | some t => decide (t < r.tick)
      | none => false))

/-- A byte of a handle's image where deliveries that the team has not observed stand (R291). -/
def undeliveredByte (tick layout i pa : Nat) (ds : List Delivery) (x : Byte) : Byte :=
  ds.reverse.foldl
    (fun x d => match d.bytes.find? fun y => y.1 == pa with
      | some y => if x = y.2.2 then blendByte tick layout i y.2.1 x else x
      | none => x) x

/-- A handle's image as the team of a reservation may read it (R291). -/
def deliveredImage (s : State) (r : Reservation) (ctx : Nat) (bs : List Byte) : List Byte :=
  match s.block r.block with
  | none => bs
  | some b =>
    let ds := s.hub.deliveries.filter (r.missed s b)
    if ds.isEmpty then bs
    else
      bs.zipIdx.map fun x =>
        match physicalOf s r.core ctx r.mode .load (tileHandleVa r.handle + x.2) with
        | some pa => undeliveredByte s.tick (tileHandleLayout r.handle) x.2 pa ds x.1
        | none => x.1

/-- A weight load from a handle's image at DEVICE scope (R137, R180, R189): whether it went through. A restored handle that
breaks R137 traps as the read executes (log entry 22). -/
def loadHandle (s : State) (cl : Nat) (r : Reservation) : State × Except Nat Bool :=
  let h := r.handle
  if !tileHandleOk h then
    (oweMatrix (setSlot s cl r.block (r.slot.getD 0) none) r 1 (BitVec.ofNat 32 r.word) r.pc false, .ok false)
  else
  let n := tileHandleSize h
  let ctx := ((s.block r.block).bind fun b => s.launch b.launch).map (·.ctx) |>.getD 0
  let x := readChunks r.core ctx r.mode (syncDevice s) (.global (tileHandleVa h)) (n / 32)
  match x.2 with
  | .error (.absent pa) => (x.1, .error pa)
  | .error (.cause c va st2) =>
    (oweMatrix (setSlot x.1 cl r.block (r.slot.getD 0) none) r c 0x80000100#32 va st2, .ok false)
  | .ok cs =>
    (setSlot x.1 cl r.block (r.slot.getD 0)
      (some ⟨tileHandleFmt h, Sparse.ofList 0#8 (slotImage (tileHandleLayout h) (deliveredImage x.1 r ctx (cs.flatMap (·.1)))), cs.any (·.2 != 0#8)⟩), .ok true)

/-- A tile keeps what R179 asks of the activations of a pass. -/
def Tile.passes (t : Tile) : Bool :=
  engineFmt t.fmt && (t.layout == 2 || (decide (t.layout < 2) && t.cols == 128 && decide (t.rows ≤ 128)))

/-- A row of a restored record's activations whose descriptor is none of those: free values (log entry 22). -/
def freeRow (tick i : Nat) : DotVec :=
  .plain ((List.range 128).map fun k => FpFmt.bf16.read ((Config.freeWord tick (128 * i + k)).toNat % 65536))

/-- A pass of activations through a slot (R181); poison of the tile or of the weights goes with every element written
(R368). -/
def runPass (s : State) (r : Reservation) (b : Block) (w : Weights) : State :=
  let t := r.tile
  let img := r.read s b
  let acts := img.1.toArray
  let wts := w.dense.toArray
  let cols := (List.range 128).map fun j => weightColumn w.fmt (fun i => wts.getD i 0#8) j
  let pois := img.2 || w.poison
  let folds := r.word / 32 % 2 == 1
  ((List.range t.rows).filter fun i => r.mask.getLsbD i && decide (r.opA + i < b.accRows)).foldl
    (fun s i =>
      let row := if t.passes then activationRow t (fun i => acts.getD i 0#8) i else freeRow s.tick i
      (cols.zipIdx).foldl
        (fun s cj =>
          let d := dotResult (dotProducts row cj.1)
          let key := accKey b (r.opA + i) cj.2
          let old := accRead s r.core key
          let x := if folds then let y := df32Fold (accHalf old.1 0) (accHalf old.1 1) d; accElement y.1 y.2 else accElement d 0#32
          accMove s r.core key x (pois || (folds && old.2))) s) s

/-- A reservation that read its tile at grant: what it read is kept until it retires (R369). -/
def keepPass (s : State) (cl e : Nat) (image : List Byte) (undo : List (Nat × BitVec 64 × Bool)) : State :=
  s.modCluster cl fun c => { c with passes := c.passes.put e ⟨image, undo⟩ }

/-- The accumulator elements that a pass may write, as they stand. -/
def passElements (s : State) (r : Reservation) (b : Block) : List (Nat × BitVec 64 × Bool) :=
  ((List.range r.tile.rows).filter fun i => r.mask.getLsbD i && decide (r.opA + i < b.accRows)).flatMap fun i =>
    (List.range 128).map fun j =>
      let key := accKey b (r.opA + i) j
      (key, Sparse.get 0#64 (s.core r.core).acc key, Sparse.get false (s.core r.core).accPoison key)

/-- A reservation retires whose tile has been stored to since the grant: each element that it read is the old or the new one, and the load
or the pass is made with those (R369). -/
def rereadTile (s : State) (cl e : Nat) (r : Reservation) : State :=
  match (s.cluster cl).passes.find e, s.block r.block with
  | some p, some b =>
    if (tileImage s b r.tile).1 = p.image then s
    else
      match r.kind, (s.cluster cl).slots.find (2 * r.block + r.slot.getD 0) with
      | .mldwTile, _ => loadTile s cl r b
      | .mma, some w => runPass (p.undo.foldl (fun s x => accWrite s r.core x.1 x.2.1 x.2.2) s) r b w
      | _, _ => s
  | _, _ => s

/-- A reservation retires: its entry is freed and its flag goes down (R185). -/
def retireEntry (s : State) (cl e : Nat) : State :=
  match (s.cluster cl).table.find e with
  | none => s
  | some r =>
    let s := rereadTile s cl e r
    let s := s.modCluster cl fun c => { c with table := c.table.drop e, passes := c.passes.drop e }
    let s := emit s unitMatrix cl 0x203 r.cid e
    let mine := ((s.team r.team).map fun t => t.block == r.block).getD false
    if mine then
      let s := match r.op with
        | some n => s.modTeam r.team fun t => t.finishOp s.tick n
        | none => s
      tryEnter (settleConsumption s r.team) r.team
    else s

/-- `MZ` (R182). -/
def zeroRows (s : State) (r : Reservation) (b : Block) : State :=
  (r.rows.filter fun x => decide (x < b.accRows)).foldl (fun s row => (List.range 128).foldl (fun s j => accMove s r.core (accKey b row j) 0#64 false) s) s

/-- The elements that `ACCRD` and `ACCRD.F` leave for their operation (R183, R294). -/
def readRows (s : State) (r : Reservation) (b : Block) : State :=
  let ls := lanesOf r.mask 1024
  let val := fun l => accRead s r.core (accKey b (r.opA + l) r.opB)
  match r.op with
  | none => s
  | some n =>
    if r.kind = .accrd then
      s.modTeam r.team fun t => t.modOp n fun o => { o with
        vDest := ls.map (fun l => (vKey r.mode r.vd l, accHalf (val l).1 0, (val l).2))
          ++ ls.map fun l => (vKey r.mode (r.vd + 1) l, accHalf (val l).1 1, (val l).2) }
    else
      let rnd := fun l => df32Round .rne (accHalf (val l).1 0) (accHalf (val l).1 1)
      let clean := ls.filter fun l => !(val l).2
      (noteInvalidAt s r.team (invalidLane clean fun l => (rnd l).2) r.pc).modTeam r.team fun t => t.modOp n fun o => { o with
        vDest := ls.map fun l => (vKey r.mode r.vd l, (rnd l).1, (val l).2)
        fflags := gatherFlags clean fun l => (rnd l).2 }

/-- `ACCWR` and `ACCWR.F` (R183). -/
def writeRows (s : State) (r : Reservation) (b : Block) : State :=
  r.data.foldl
    (fun s d =>
      let key := accKey b (r.opA + d.1) r.opB
      if r.kind = .accwr then accMove s r.core key (accElement d.2.1 d.2.2.1) d.2.2.2
      else
        let x := accRead s r.core key
        let y := df32Fold (accHalf x.1 0) (accHalf x.1 1) d.2.1
        accMove s r.core key (accElement y.1 y.2) (x.2 || d.2.2.2)) s

/-- A reservation is granted and has its effect (R180–R183); one that faults retires at once (R189). -/
def grantEntry (s : State) (cl e : Nat) : Out :=
  match (s.cluster cl).table.find e with
  | none => .next s
  | some r =>
    match s.block r.block with
    | none => .next (retireEntry s cl e)
    | some b =>
      let s := emit (modEntry s cl e fun r => { r with granted := true }) unitMatrix cl 0x202 r.cid e
      match r.kind with
      | .mldwTile => .next (keepPass (loadTile s cl r b) cl e (tileImage s b r.tile).1 [])
      | .mldwHandle =>
        let x := loadHandle s cl r
        match x.2 with
        | .error pa => .fault (.noSuchAddress pa)
        | .ok ok => if ok then .next x.1 else .next (retireEntry x.1 cl e)
      | .mma =>
        match (s.cluster cl).slots.find (2 * r.block + r.slot.getD 0) with
        | some w => .next (keepPass (runPass s r b w) cl e (tileImage s b r.tile).1 (passElements s r b))
        | none => .next (retireEntry (oweMatrix s r 18 (BitVec.ofNat 32 e) r.pc false) cl e)
      | .mz => .next (zeroRows s r b)
      | .accrd => .next (readRows s r b)
      | .accrdF => .next (readRows s r b)
      | .accwr => .next (writeRows s r b)
      | .accwrF => .next (writeRows s r b)

/-! ### The arbiter (R187, R188) -/

/-- 4,096 cycles have passed since the issue (R187). -/
def Reservation.old (r : Reservation) (now : Nat) : Bool := r.promoted || decide (r.issued + 4096 ≤ now)

/-- An entry may be granted: nothing of its block is in its way, and the engine is not frozen for it. -/
def grantable (s : State) (cl : Nat) (r : Reservation) : Bool :=
  let c := s.cluster cl
  !r.granted && (blockers c r).isEmpty && !(r.freezes && frozen s cl)
    && (r.kind.port || !(c.table.any fun kq => kq.2.granted && !kq.2.kind.port))

/-- `a` goes before `b` (R187). -/
def Reservation.before (now : Nat) (a b : Nat × Reservation) : Bool :=
  let key := fun (x : Nat × Reservation) =>
    (if x.2.old now then 0 else 1, if x.2.old now then 0 else 3 - x.2.cls, x.2.issued, x.2.core, x.1)
  let p := key a
  let q := key b
  p.1 < q.1 || (p.1 == q.1 && (p.2.1 < q.2.1 || (p.2.1 == q.2.1 && (p.2.2.1 < q.2.2.1 || (p.2.2.1 == q.2.2.1
    && (p.2.2.2.1 < q.2.2.2.1 || (p.2.2.2.1 == q.2.2.2.1 && p.2.2.2.2 < q.2.2.2.2)))))))

/-- What a weight load names: a scratchpad extent with its format and layout, or a handle (R188). -/
def Reservation.image (s : State) (r : Reservation) : Option (Nat × Nat × Nat × Nat × Nat) :=
  match r.kind, s.block r.block with
  | .mldwTile, some b => (localRange s b r.tile.laddr r.tile.extent).map fun p => (p.1, p.2, r.tile.extent, r.tile.fmt, r.tile.layout)
  | .mldwHandle, some _ => some (r.handle.toNat, 0, 0, 0, 4)
  | _, _ => none

/-- The two reservations are of blocks of one cluster group (R40). -/
def sameGroup (s : State) (a b : Reservation) : Bool :=
  match s.block a.block, s.block b.block with
  | some x, some y => x.launch == y.launch && x.grouped && y.grouped && x.index / 4 == y.index / 4
  | _, _ => false

/-- The arbiter's next grant: the first entry under R187 and those granted with it (R188). -/
def nextGrants (s : State) (cl : Nat) : List Nat :=
  let c := s.cluster cl
  let can := c.table.filter fun kr => grantable s cl kr.2
  match can.foldl (fun (m : Option (Nat × Reservation)) x =>
      match m with
      | none => some x
      | some y => if Reservation.before s.cycles x y then some x else some y) none with
  | none => []
  | some x =>
    let with' := can.filter fun y =>
      y.1 != x.1 && (x.2.image s).isSome && x.2.image s == y.2.image s && sameGroup s x.2 y.2
    x.1 :: with'.map (·.1)

/-- `RESERVATION_GRANT`. -/
def grantNext (s : State) (cl : Nat) : Out :=
  (nextGrants s cl).foldl (fun o e => o.andThen fun s => grantEntry s cl e) (.next s)

/-! ### Drain and restore (R190–R193) -/

/-- The reservation that a drain completes next: a granted one, an accumulator move, or what one awaits (R191). -/
def nextDrained (c : Cluster) (bk : Nat) : Option (Nat × Reservation) :=
  let rs := blockReservations c bk
  match rs.find? fun x => x.2.granted with
  | some x => some x
  | none =>
    match rs.find? fun x => x.2.kind.port with
    | none => none
    | some m =>
      -- the earliest of those in the way of the move, directly or through another
      let need := (List.range 16).foldl
        (fun (acc : List (Nat × Reservation)) _ =>
          acc ++ (acc.flatMap fun x => blockers c x.2).filter fun y => !(acc.any fun z => z.1 == y.1)) [m]
      rs.find? fun x => need.any fun y => y.1 == x.1

/-- Complete what a drain completes. -/
def drainBlock (cl bk : Nat) : Nat → State → Out
  | 0, s => .next s
  | fuel + 1, s =>
    match nextDrained (s.cluster cl) bk with
    | none => .next s
    | some x =>
      let o := if x.2.granted then .next s else grantEntry s cl x.1
      o.andThen fun s => drainBlock cl bk fuel (retireEntry s cl x.1)

/-- A reservation record (R193). -/
def Reservation.record (r : Reservation) : List Byte :=
  leBytes 4 r.word ++ leBytes 1 (16 * r.flag.getD 15 + r.number) ++ leBytes 1 r.depth ++ zeroBytes 2 ++ leBytes 4 r.opA
    ++ leBytes 4 r.opB ++ leBytes 8 r.handle.toNat ++ leBytes 16 r.mask.toNat ++ leBytes 8 r.cid.toNat
    ++ (List.range 4).flatMap fun i => leBytes 4 (r.desc.getD i 0#32).toNat

/-- The save area of a block (R192), in pieces with their poison. -/
def saveArea (c : Cluster) (bk : Nat) : List (List Byte × Bool) :=
  let slot := fun n => c.slots.find (2 * bk + n)
  let rs := (blockReservations c bk).map (·.2)
  let bytes := fun n => match slot n with
    | some w => (w.dense, w.poison)
    | none => (zeroBytes slotBytes, false)
  let fmt := fun n => ((slot n).map (·.fmt)).getD 0
  [(leBytes 4 0x4D450001 ++ leBytes 1 ((if (slot 0).isSome then 1 else 0) + if (slot 1).isSome then 2 else 0)
      ++ leBytes 1 rs.length ++ leBytes 1 (fmt 0) ++ leBytes 1 (fmt 1) ++ zeroBytes 56, false),
    bytes 0, bytes 1, (rs.flatMap Reservation.record ++ zeroBytes (64 * (16 - rs.length)), false)]

/-- Remove a block's reservations, which stay counted on their flags, and empty its slots (R191). -/
def clearEngine (s : State) (cl bk : Nat) : State :=
  let rs := blockReservations (s.cluster cl) bk
  let s := rs.foldl
    (fun s x => match x.2.op with
      | some n => s.modTeam x.2.team fun t => { t with ops := t.ops.filter fun o => o.num != n }
      | none => s) s
  s.modCluster cl fun c =>
    { c.without bk with slots := (c.slots.drop (2 * bk)).drop (2 * bk + 1) }

/-- A record of the area (R193), for a team of the block; nothing when it fails a check of R191. -/
def readRecord (s : State) (bk : Nat) (b : Block) (bs : List Byte) : Option Reservation :=
  let f := fun o n => fieldAt bs o n
  let w := f 0 4
  let team := (s.teamsOfBlock bk).find? fun kt => kt.2.number == f 4 1 % 16
  let flag := f 4 1 / 16
  let r : Reservation :=
    { word := w, core := b.core, block := bk, team := (team.map (·.1)).getD noBlock, number := f 4 1 % 16
      cls := ((s.launch b.launch).map (·.cls)).getD 0, issued := s.cycles, order := 0, cid := BitVec.ofNat 64 (f 40 8)
      flag := if flag = 15 then none else some flag, depth := f 5 1 % 4, op := none, opA := f 8 4, opB := f 12 4
      handle := BitVec.ofNat 64 (f 16 8), mask := BitVec.ofNat 1024 (f 24 16)
      desc := (List.range 4).map fun i => BitVec.ofNat 32 (f (48 + 4 * i) 4), data := [], vd := 0, promoted := false, granted := false
      pc := (Config.freeWord s.tick 9).toNat, mode := (team.map (·.2.mode)).getD .u, tick := s.tick, seen := [] }
  let word := match decodeWord w with
    | .ok _ => resKind w
    | .error _ => none
  let inside := (localRange s b r.tile.laddr r.tile.extent).isSome
  let kind := match word with
    | some .mldwTile => inside
    | some .mldwHandle => true
    | some .mma => inside
    | some .mz => true
    | _ => false
  let seen := if word = some .mldwTile ∨ word = some .mma then (tileImage s b r.tile).1 else []
  if kind && w < 2 ^ 31 && f 5 1 / 4 == 0 && f 6 2 == 0 then some { r with seen := seen } else none

/-- The records and the slots of an area, or nothing when it fails a check of R191. -/
def readArea (s : State) (bk : Nat) (b : Block) (bs : List Byte) (pois : Nat → Bool) :
    Option (List Reservation × List (Option Weights)) :=
  let n := fieldAt bs 5 1
  let recs := (List.range (min n 16)).map fun i => readRecord s bk b (bytesAt bs (67648 + 64 * i) 64)
  let slots := (List.range 2).map fun i =>
    if fieldAt bs 4 1 / 2 ^ i % 2 = 1 then
      some (Weights.mk (fieldAt bs (6 + i) 1) (Sparse.ofList 0#8 (bytesAt bs (64 + slotBytes * i) slotBytes)) (pois i))
    else none
  if fieldAt bs 0 4 == 0x4D450001 && fieldAt bs 4 1 / 4 == 0 && decide (n ≤ 16) && (bytesAt bs 8 56).all (· == 0#8)
      && slots.all (fun w => (w.map fun x => engineFmt x.fmt).getD true)
      && ((List.range 2).all fun i => fieldAt bs 4 1 / 2 ^ i % 2 == 1 || fieldAt bs (6 + i) 1 == 0)
      && (bytesAt bs (67648 + 64 * n) (64 * (16 - n))).all (· == 0#8) && recs.all (·.isSome) then
    some (recs.filterMap id, slots)
  else none

/-- Enter a reservation: its place in the table, its order. -/
def enterTable (s : State) (cl : Nat) (r : Reservation) : State :=
  let c := s.cluster cl
  match freeEntry c with
  | none => s
  | some e => s.setCluster cl { c with table := c.table.put e { r with order := c.order }, order := c.order + 1 }

/-- The operation of a restored reservation, which its flag counts already (R191). -/
def Team.resumeOp (t : Team) (flag : Nat) (depth : Nat) : Team × Nat :=
  let o : Op :=
    { num := t.nextOp, classA := false, flag := some flag, depth := depth, vDest := [], sDest := [], fflags := 0, dirty := []
      waits := true, till := none, index := 0, pc := t.pc, past := true, area := none }
  ({ t with ops := t.ops ++ [o], nextOp := t.nextOp + 1 }, o.num)

/-- Write the slots and enter the records of an area, in their saved order (R191). -/
def restoreEngine (s : State) (cl bk : Nat) (x : List Reservation × List (Option Weights)) : State :=
  let s := (x.2.zipIdx).foldl (fun s wn => setSlot s cl bk wn.2 wn.1) s
  x.1.foldl
    (fun s r =>
      match r.flag, s.team r.team with
      | some f, some t => enterTable (s.setTeam r.team (t.resumeOp f r.depth).1) cl { r with op := some (t.resumeOp f r.depth).2 }
      | _, _ => enterTable s cl r) s

/-- Write pieces at a place of a scratchpad. -/
def writePieces (s : State) (core : Nat) : Nat → List (List Byte × Bool) → State
  | _, [] => s
  | off, p :: ps => writePieces (scratchWrite s core off p.1 p.2) core (off + p.1.length) ps

/-! ### The instructions -/

/-- The cluster of the issuing team. -/
def State.curCluster (s : State) : Nat := clusterOf (coreOfTeam s.cur)

/-- `MATRIX` raised at issue (R179). -/
def matrixTrap (s : State) : Out := .next (s.modTeam s.cur fun t => t.raiseAll 18 16)

/-- What a form captures. -/
structure Capture2 where
  opA    : Nat
  opB    : Nat
  handle : BitVec 64
  mask   : Mask
  desc   : List Word
  data   : List (Nat × Word × Word × Bool)
  vd     : Nat

/-- A reservation that has passed its checks stalls for a free entry and its flag, and enters the table (R179, R185). -/
def reserve (s : State) (t : Team) (classA : Bool) (x : Capture2) : Out :=
  let k := s.cur
  let cl := s.curCluster
  if (freeEntry (s.cluster cl)).isNone || t.flagFull classA then .next (stallInstr s)
  else
    let c := newMatrixCid s cl
    let o : Team × Option Nat :=
      if (t.countsOn classA).isNone && !classA then (t, none)
      else let o := t.startOp classA true [] [] 0; (if (t.countsOn classA).isNone then o.1.holdOn o.2 else o.1, some o.2)
    let r : Reservation :=
      { word := t.itemWord.toNat, core := coreOfTeam k, block := t.block, team := k, number := t.number
        cls := ((s.launchOf t).map (·.cls)).getD 0, issued := s.cycles, order := 0, cid := c.1, flag := t.countsOn classA
        depth := t.depth, op := o.2, opA := x.opA, opB := x.opB, handle := x.handle, mask := x.mask, desc := x.desc, data := x.data
        vd := x.vd, promoted := false, granted := false, pc := t.itemAddr, mode := t.mode, tick := s.tick
        seen := match x.desc, s.blockOf t with
          | _ :: _, some b => (tileImage s b (tileOf x.desc tileReady false)).1
          | _, _ => [] }
    .next (enterTable (c.2.setTeam k o.1) cl r)

/-- The descriptor words of a tile. -/
def Tile.words (t : Tile) : List Word := [t.d0, t.d1, t.d2, t.d3]

/-- `MLDW` from a tile. -/
def execMldwTile (t : BitVec 6) (s : State) : Out :=
  command s [] fun s tm blk =>
    let tile := blk.tile t.toNat
    if !tile.fits tileReady then wrongTile s tile t.toNat
    else if tile.rows ≠ 128 || tile.cols ≠ 128 || !engineFmt tile.fmt then refuseOp s
    else reserve s tm false ⟨0, 0, 0, 0, tile.words, [], 0⟩

/-- `MLDW` from a handle. -/
def execMldwHandle (p : BitVec 6) (s : State) : Out :=
  command s [p.toNat, p.toNat + 1] fun s tm _ =>
    let h := tm.readPair s.tick p.toNat
    if p.getLsbD 0 || !tileHandleOk h then refuseOp s else reserve s tm false ⟨0, 0, h, 0, [], [], 0⟩

/-- `MMA`. -/
def execMma (t : BitVec 6) (g : BitVec 3) (sb : BitVec 6) (s : State) : Out :=
  command s [sb.toNat] fun s tm blk =>
    let tile := blk.tile t.toNat
    let base := (tm.readS s.tick sb.toNat).toNat
    if !tile.fits tileReady then wrongTile s tile t.toNat
    else if !engineFmt tile.fmt || (tile.layout != 2 && (tile.cols != 128 || decide (128 < tile.rows)))
        || decide ((tm.lanes + 127) / 128 ≤ g.toNat) then refuseOp s
    else if blk.accRows < base + tile.rows then matrixTrap s
    else
      reserve s tm false
        ⟨base, tile.rows, 0, (tm.acting >>> (128 * g.toNat)) &&& laneMask 128, tile.words, [], 0⟩

/-- `MZ`. -/
def execMz (sb n : BitVec 6) (s : State) : Out :=
  command s [sb.toNat, n.toNat] fun s tm blk =>
    let base := (tm.readS s.tick sb.toNat).toNat
    let count := (tm.readS s.tick n.toNat).toNat
    if 512 < count then refuseOp s
    else if 0 < count && decide (blk.accRows < base + count) then matrixTrap s
    else reserve s tm false ⟨base, count, 0, 0, [], [], 0⟩

/-- The local range of a save area, or the check of R179 that fails. -/
def areaPlace (s : State) (b : Block) (a : Nat) (act : Nat × Nat → Out) : Out :=
  if a % 128 ≠ 0 then misaligned s 128 a
  else
    match localRange s b a areaSize with
    | none => outside s a
    | some p => act p

/-- `MDRN` or `MRST` has acted and is counted: until its flag goes down its area is open (R369). -/
def Team.issueArea (core off : Nat) (old : List Byte) (t : Team) : Team :=
  if (t.countsOn false).isNone then t
  else let o := t.startOp false false [] [] 0; o.1.modOp o.2 fun x => { x with area := some (core, off, old) }

/-- `MDRN` (R191): the drain is made as the instruction acts. -/
def execMdrn (sb : BitVec 6) (s : State) : Out :=
  command s [sb.toNat] fun s tm blk =>
    areaPlace s blk (tm.readS s.tick sb.toNat).toNat fun p =>
      let cl := s.curCluster
      if tm.flagFull false || (freeEntry (s.cluster cl)).isNone then .next (stallInstr s)
      else
        (drainBlock cl tm.block 17 s).andThen fun s =>
          let old := (scratchBytes s p.1 p.2 areaSize).1
          .next ((clearEngine (writePieces s p.1 p.2 (saveArea (s.cluster cl) tm.block)) cl tm.block).modTeam s.cur (Team.issueArea p.1 p.2 old))

/-- `MRST` (R191). -/
def execMrst (sb : BitVec 6) (s : State) : Out :=
  command s [sb.toNat] fun s tm blk =>
    let cl := s.curCluster
    let c := s.cluster cl
    if (c.slots.find (2 * tm.block)).isSome || (c.slots.find (2 * tm.block + 1)).isSome || !(blockReservations c tm.block).isEmpty then
      matrixTrap s
    else
      areaPlace s blk (tm.readS s.tick sb.toNat).toNat fun p =>
        if tm.flagFull false || (freeEntry c).isNone then .next (stallInstr s)
        else
          let bs := (scratchBytes s p.1 p.2 areaSize).1
          match readArea s tm.block blk bs fun i => (scratchBytes s p.1 (p.2 + 64 + slotBytes * i) slotBytes).2 with
          | none =>
            .next (s.modTeam s.cur fun t => { t.issueB with due := t.due ++ [.owed 18 17 t.itemAddr false] })
          | some x =>
            if 16 < c.table.length + x.1.length then .next (stallInstr s)
            else .next ((restoreEngine s cl tm.block x).modTeam s.cur (Team.issueArea p.1 p.2 []))

/-- `MREL` (R184). -/
def execMrel (s : State) : Out :=
  onBlock s [] false fun s tm _ =>
    let cl := s.curCluster
    if !(blockReservations (s.cluster cl) tm.block).isEmpty then .next (stallInstr s)
    else .next (setSlot (setSlot s cl tm.block 0 none) cl tm.block 1 none)

/-- The accumulator moves (R294): the checks, then the reservation. -/
def accMoveForm (s : State) (d : BitVec 7) (a b : BitVec 6) (reads pair : Bool) : Out :=
  match s.team s.cur with
  | none => .next s
  | some t0 =>
    let rs := if pair then [d.toNat, d.toNat + 1] else [d.toNat]
    let bad := if reads then 0#1024 else t0.taint (ownLane rs) []
    command s [a.toNat, b.toNat] fun s tm blk =>
      let base := (tm.readS s.tick a.toNat).toNat
      let col := (tm.readS s.tick b.toNat).toNat
      let ls := tm.actingLanes.filter fun l => !bad.getLsbD l
      if 127 < col then refuseOp s
      else if ls.any fun l => decide (blk.accRows ≤ base + l) then matrixTrap s
      else
        let s := s.modTeam s.cur fun t => t.consume bad
        let tm := tm.consume bad
        reserve s tm reads
          ⟨base, col, 0, maskOf ls, [], if reads then [] else ls.map fun l =>
            (l, tm.readV s.tick d.toNat l, (if pair then tm.readV s.tick (d.toNat + 1) l else 0#32), false), d.toNat⟩

/-- `ACCRD`. -/
def execAccrd (d : BitVec 7) (a b : BitVec 6) (s : State) : Out := accMoveForm s d a b true true
/-- `ACCRD.F`. -/
def execAccrdF (d : BitVec 7) (a b : BitVec 6) (s : State) : Out := accMoveForm s d a b true false
/-- `ACCWR`. -/
def execAccwr (d : BitVec 7) (a b : BitVec 6) (s : State) : Out := accMoveForm s d a b false true
/-- `ACCWR.F`. -/
def execAccwrF (d : BitVec 7) (a b : BitVec 6) (s : State) : Out := accMoveForm s d a b false false

end Sys2Proof.Machine
end

