-- ==== Sys2Proof/Machine/Monitor.lean ====
section
/-! DEFINITION. The monitor: `LMON` and `WAITM` (R362, R363, R414), and the wake of a waiting team. -/

namespace Sys2Proof.Machine

/-- The lane that supplies the address: the lowest that is active and not held (R362, R414). -/
def Team.addressLane (t : Team) : Option Nat := t.actingLanes.head?

/-- `LMON` (R362). -/
def execLmon (a : BitVec 7) (sb : BitVec 6) (s : State) : Out :=
  match s.team s.cur with
  | none => .next s
  | some t =>
    match t.addressLane with
    | none => .next s
    | some l =>
      let k := s.cur
      if t.poisonV a.toNat l || t.poisonV (a.toNat + 1) l then onTeam s fun t => t.consume (bitMask l)
      else
        let va := (t.readVPair s.tick a.toNat l).toNat
        let r := checkLanes s k t Access.monitor false [(l, va)]
        match (r.2.head?.map (·.2.2)).getD .park with
        | .absent pa => .fault (.noSuchAddress pa)
        | .trap c d h _ => .next (r.1.modTeam k fun t => t.raise t.trapSet c (BitVec.ofNat 32 d) va h 0)
        | .walkFault c d h => .next (r.1.modTeam k fun t => t.raise t.trapSet c (BitVec.ofNat 32 d) va h 0)
        | .go pa _ _ =>
          let m := monitorRead r.1 k t pa
          .next (m.1.modTeam k fun t =>
            if m.2.2 then t.consume t.acting else (t.arm (sectorOf pa) s.time).writeS sb.toNat m.2.1)
        | .park =>
          if t.logFull then .next (stallInstr s)
          else
            .next (r.1.modTeam k fun t =>
              let o := t.startUncounted
              (o.1.parkAs o.2 ((lanesOf t.trapSet t.lanes).map fun i => (i, va, [])) [] false).holdOn o.2)

/-- A team goes on past `WAITM`: the word is read as `LMON` reads it, and the monitor is disarmed (R414). A poisoned word is
consumed at this run boundary (R273). -/
def endMonitor (s : State) (k : Nat) (t : Team) (pa sb cause : Nat) : State :=
  let m := monitorRead s k t pa
  m.1.modTeam k fun t =>
    let t := { t with monitor := Monitor.clear, waitCause := cause }
    if m.2.2 then { t with rolling := t.rolling ++ [⟨t.trapSet, 12, 0, t.itemAddr, 0, false, false, false, 0⟩] }
    else t.writeS sb m.2.1

/-- `WAITM` (R414). A walk it waits for is made at once. -/
def execWaitm (a : BitVec 7) (sb : BitVec 6) (s : State) : Out :=
  match s.team s.cur with
  | none => .next s
  | some t =>
    let k := s.cur
    let closing := fun (t : Team) => t.modRun fun r => { r with closes := true }
    match t.addressLane with
    | none => onTeam s fun t => { closing t with waitCause := 4 }
    | some l =>
      if t.poisonV a.toNat l || t.poisonV (a.toNat + 1) l then onTeam s fun t => (closing t).consume (bitMask l)
      else
        let va := (t.readVPair s.tick a.toNat l).toNat
        let r := checkAccess s k t (Access.load 4) true va
        let trap := fun (c d : Nat) (h : Bool) =>
          (Host.Outcome.next (r.1.modTeam k fun t => t.raise t.trapSet c (BitVec.ofNat 32 d) va h 0) : Out)
        match r.2 with
        | .absent pa => .fault (.noSuchAddress pa)
        | .trap c d h _ => trap c d h
        | .walkFault c d h => trap c d h
        | .park => .next (stallInstr r.1)
        | .go pa _ _ =>
          let s := r.1
          if !t.monitor.armed then .next (s.modTeam k fun t => { closing t with waitCause := 4 })
          else if sectorOf pa ≠ t.monitor.sector then .next (s.modTeam k Team.illegalOp)
          else if t.monitor.written then .next (endMonitor (s.modTeam k closing) k t pa sb.toNat 3)
          else
            .next (s.modTeam k fun t =>
              { t.modRun fun r => { r with blocks := some (.monitor va pa sb.toNat) } with
                monitor := { t.monitor with waiting := true, waitTime := s.time } })

end Sys2Proof.Machine
end

