-- ==== Sys2Proof/Machine/Fetch.lean ====
section
/-! DEFINITION. A run is fetched, checked, chosen and started (R44–R47, R59, R63, R64, R68–R73, R416). -/

namespace Sys2Proof.Machine

/-! ### The bits of a run (R58, R63, R64) -/

/-- Fields of a run header (R63). -/
def headerWait (h : Nat) : Nat := h / 8192 % 4096
def headerSetA (h : Nat) : Nat := h / 512 % 16
def headerSetB (h : Nat) : Nat := h / 32 % 16
def headerLen (h : Nat) : Nat := h % 32 + 1

/-- A failed fetch check: its cause, `v119`, the code address and the index of the instruction concerned (R435), and the WAIT of the
run's header, 0 where there is none (R44, R63). -/
structure FetchFail where
  cause  : Nat
  detail : Word
  addr   : Nat
  index  : Nat
  wait   : Nat
  deriving DecidableEq, Repr

/-- One instruction of a run as the checks see it: the item, the slot of its word's packet, whether a window put a register field
beyond `v119` (R71), and whether the sum left the seven bits of its field. -/
structure FetchItem where
  item   : RunItem
  slot   : Nat
  breaks : Bool
  wide   : Bool
  deriving DecidableEq, Repr

/-- The instructions of a run word: itself, or the two references of a dictionary word under their windows (R71, R435). -/
def fetchItems (dict : List Nat) (addr slot w : Nat) : List FetchItem :=
  if isDictWord w then
    let d := DictRef.ofWord w
    let passes := fun (limit i win : Nat) =>
      let e := dict.getD i 0 % 2147483648
      windowPasses limit (vectorLows e) win e
    ((expandRef vectorLows dict addr (chainBit w) d).zip [(d.idx0, d.win0), (d.idx1, d.win1)]).map fun x =>
      ⟨x.1, slot, passes 119 x.2.1 x.2.2, passes 127 x.2.1 x.2.2⟩
  else [⟨⟨w % 2147483648, addr, chainBit w⟩, slot, false, false⟩]

/-- The item as a run keeps it: a dictionary word stays whole until it is reached. -/
def bufferItem (w addr : Nat) : RunItem := ⟨w % 2147483648, addr, chainBit w⟩

/-! ### The checks (R73) -/

/-- A vector register, or a pair, is one that R69 allows in a mode: below VREGS, a bank register in S or H, or a run
temporary. -/
def registerOk (mode : Mode) (vregs : Nat) (r : Nat × Bool) : Bool :=
  let last := if r.2 then r.1 + 1 else r.1
  let inBank := mode != .u && decide (112 ≤ r.1 ∧ last < 120)
  (!r.2 || r.1 % 2 == 0) && (decide (last < vregs) || inBank || decide (120 ≤ r.1 ∧ last < 128))

/-- Order 4: the word is an instruction and its registers are allowed. -/
def itemOk (mode : Mode) (vregs : Nat) (x : FetchItem) : Bool :=
  !x.breaks && match decodeWord x.item.word with
    | .ok i => (vectorRegs i).all (registerOk mode vregs)
    | .error _ => false

/-- An instruction of R68; a word that is no instruction closes nothing (R81, R83). -/
def itemCloses (x : FetchItem) : Bool :=
  match decodeWord x.item.word with
  | .ok i => closes i
  | .error _ => false

/-- The chains of a run (R61): maximal sequences in which every instruction but the last is chained. -/
def chainsOf : List FetchItem → List (List FetchItem)
  | [] => []
  | x :: xs =>
    match x.item.chain, chainsOf xs with
    | true, c :: cs => (x :: c) :: cs
    | _, cs => [x] :: cs

/-- How often a value occurs. -/
def occurrences {α : Type} [BEq α] (a : α) (xs : List α) : Nat := (xs.filter fun x => x == a).length

/-- The destinations of a word. -/
def wordDestinations (w : Nat) : List Nat :=
  match decodeWord w with
  | .ok i => destinations i
  | .error _ => []

/-- No value occurs in two lists of a list. -/
def disjointLists : List (List Nat) → Bool
  | [] => true
  | x :: xs => xs.all (fun y => x.all fun a => !y.contains a) && disjointLists xs

/-- A chain keeps R61 and R62. -/
def chainOk (c : List FetchItem) : Bool :=
  let pipes := c.map fun x => pipeOf x.item.word
  decide (c.length ≤ 3)
    && pipes.all (fun p => decide (occurrences p pipes ≤ if p = .v then 2 else 1))
    && disjointLists (c.map fun x => wordDestinations x.item.word)
    -- a word in slot 2 chained to the next packet; the first reference of its dictionary word may be chained to the second
    && (c.zip (c.drop 1)).all (fun xy => xy.1.slot == xy.2.slot || xy.1.slot != 2)

/-- The word that an `ILLEGAL_OP` of order 4 shows: the entry after its window (R434, R435); one whose window pushes a field beyond its
seven bits is no word (log entry 35). -/
def failWord (n : Nat) (x : FetchItem) : Word := if x.wide then Config.freeWord n 35 else BitVec.ofNat 32 x.item.word

/-- A run that passed its checks. -/
structure Fetched where
  wait    : Nat
  setA    : Nat
  setB    : Nat
  items   : List RunItem
  through : Nat
  whole   : List FetchItem
  deriving DecidableEq, Repr

/-- An item with its index in the run (R435): those before it on the list. -/
def indexOf (xs : List FetchItem) (p : FetchItem → Bool) : Nat := (xs.takeWhile fun x => !p x).length

/-- Make the checks of R73 in their order on the words that follow a header at `pc`. -/
def checkRun (n : Nat) (mode : Mode) (vregs pc header : Nat) (words pads dict : List Nat) : Except FetchFail Fetched :=
  let addr := fun (i : Nat) => pc + 4 * (i + 1)
  let items := (words.zipIdx).flatMap fun wi => fetchItems dict (addr wi.2) ((wi.2 + 1) % 3) wi.1
  let w := headerWait header
  let bad := (words.zipIdx).findSome? fun wi =>
    let before := ((words.take wi.2).map fun x => if isDictWord x then 2 else 1).sum
    if isDictWord wi.1 then
      let d := DictRef.ofWord wi.1
      if dict.length ≤ d.idx0 then some (d.idx0, addr wi.2, before)
      else if dict.length ≤ d.idx1 then some (d.idx1, addr wi.2, before + 1) else none
    else none
  match bad with
  | some x => .error ⟨4, BitVec.ofNat 32 x.1, x.2.1, x.2.2, w⟩
  | none =>
    if 24 < items.length ∨ words.any (fun w => majorOf w == 0) ∨ pads.any (fun w => w != 0x02000000) ∨ items.dropLast.any itemCloses then
      .error ⟨2, 0, pc, 0, w⟩
    else
      match items.find? fun x => !itemOk mode vregs x with
      | some x => .error ⟨1, failWord n x, x.item.addr, indexOf items fun x => !itemOk mode vregs x, w⟩
      | none =>
        let broken := fun (c : List FetchItem) => !chainOk c || ((c.getLast?).map fun x => x.item.chain).getD false
        match (chainsOf items).find? broken with
        | some c =>
          .error ⟨3, 0, ((c.head?).map fun x => x.item.addr).getD pc, (((chainsOf items).takeWhile fun c => !broken c).map List.length).sum, w⟩
        | none =>
          .ok
            { wait := headerWait header, setA := headerSetA header, setB := headerSetB header
              items := (words.zipIdx).map fun wi => bufferItem wi.1 (addr wi.2)
              through := pc + 12 * ((words.length + 3) / 3), whole := items }

/-- Fetch the run at a team's pc (R59, R72, R77): the words in the DEVICE-scope view. -/
def fetchRun (s : State) (t : Team) : Except FetchFail Fetched :=
  let len := (textLength s (if t.mode = .u then 1 else 3) t.textBase).getD 0
  let word := fun (a : Nat) => homeNat s (t.textBase + a) 4
  let h := word t.pc
  let n := headerLen h
  let packets := (n + 3) / 3
  let badSet := fun (x : Nat) => decide (12 ≤ x ∧ x ≤ 14)
  if len < t.pc + 12 then .error ⟨2, 0, t.pc, 0, 0⟩
  else if majorOf h ≠ 0 then .error ⟨2, 0, t.pc, 0, 0⟩
  else if chainBit h ∨ badSet (headerSetA h) ∨ badSet (headerSetB h) ∨ 24 < n ∨ len < t.pc + 12 * packets then
    .error ⟨2, 0, t.pc, 0, headerWait h⟩
  else
    checkRun s.tick t.mode (((s.blockOf t).map (·.vregs)).getD 0) t.pc h
      ((List.range n).map fun i => word (t.pc + 4 * (i + 1)))
      ((List.range (3 * packets - 1 - n)).map fun i => word (t.pc + 4 * (n + 1 + i))) (dictOf s t)

/-! ### Tiles (R44, R136) -/

/-- What an instruction asks of the tiles it names: a tile, the state it needs, the state it leaves and whether an engine then holds
it. -/
def tileUse : Instr → Option (Nat × BitVec 2 × BitVec 2 × Bool)
  | .tdef _ t _ => some (t.toNat, tileEmpty, tileEmpty, false)
  | .tacq _ t => some (t.toNat, tileEmpty, tileFilling, false)
  | .trdy _ t => some (t.toNat, tileFilling, tileReady, false)
  | .trel _ t => some (t.toNat, tileReady, tileEmpty, false)
  | .ldt _ _ t _ => some (t.toNat, tileReady, tileReady, false)
  | .stt _ _ t _ => some (t.toNat, tileFilling, tileFilling, false)
  | .mma _ t _ _ _ _ => some (t.toNat, tileReady, tileReady, false)
  | .mldwTile _ t _ => some (t.toNat, tileReady, tileReady, false)
  | .cpyG2t _ x _ _ _ => some (x.toNat, tileEmpty, tileFilling, true)
  | .gather _ x _ _ _ => some (x.toNat, tileEmpty, tileFilling, true)
  | .cpyT2g _ _ y _ _ => some (y.toNat, tileReady, tileDraining, true)
  | _ => none

/-- The tiles of a run are as its instructions need them, its own earlier transitions counted (R44). -/
def tilesFit (b : Block) : List (Nat × BitVec 2 × Bool) → List Instr → Bool
  | _, [] => true
  | now, i :: is =>
    match tileUse i with
    | none => tilesFit b now is
    | some (n, need, next, eng) =>
      let cur := ((now.find? fun x => x.1 == n).map fun x => x.2).getD ((b.tile n).state, (b.tile n).eng)
      cur.1 == need && !cur.2 && tilesFit b ((n, next, eng) :: now) is

/-! ### The arbiter (R44, R46, R47, R416) -/

/-- A flag named by WAIT is not zero. -/
def Team.waitsFlag (t : Team) (wait : Nat) : Bool := (List.range 12).any fun f => wait.testBit f && t.flag f != 0

/-- The run that a team would issue is eligible (R44), once a checkpoint that waits for stores has been taken (R274) and its bank has
room (R90). A run that fails its checks is eligible as to its tiles: its trap is taken in place of it. -/
def eligible (s : State) (k : Nat) (t : Team) : Bool :=
  if t.ended || t.gone || t.run.isSome || t.wait.isSome || !t.rolling.isEmpty || !t.owes.isEmpty || t.opening.isSome
      || bankWaits s k t.mode then false
  else
    match s.blockOf t with
    | none => false
    | some b =>
      if b.leaving || (s.core (coreOfTeam k)).slotA == some k || (s.core (coreOfTeam k)).slotB == some k then false
      else
        match fetchRun s t with
        | .error f => !t.waitsFlag f.wait
        | .ok f =>
          !t.waitsFlag f.wait && tilesFit b [] (f.whole.filterMap fun x => (decodeRaw x.item.word))

/-- A team is promoted (R47). -/
def Team.isPromoted (t : Team) : Bool := t.promoted || decide (256 ≤ t.passed)

/-- The arbiter prefers one team to another (R46). -/
def prefers (s : State) (a b : Nat × Team) : Bool :=
  let cls := fun (t : Team) => ((s.launchOf t).map (·.cls)).getD 0
  let older := decide (a.2.lastIssue < b.2.lastIssue) || (a.2.lastIssue == b.2.lastIssue && decide (a.1 < b.1))
  if a.2.isPromoted != b.2.isPromoted then a.2.isPromoted
  else if a.2.isPromoted then older
  else if cls a.2 != cls b.2 then decide (cls b.2 < cls a.2)
  else older

/-- The best of a list of teams. -/
def bestTeam (s : State) : List (Nat × Team) → Option (Nat × Team)
  | [] => none
  | x :: xs =>
    match bestTeam s xs with
    | none => some x
    | some y => if prefers s x y then some x else some y

/-- The eligible teams of a core. -/
def eligibleTeams (s : State) (core : Nat) : List (Nat × Team) :=
  s.teams.filter fun kt => coreOfTeam kt.1 == core && eligible s kt.1 kt.2

/-- The team a freed slot's arbiter chooses: one that has yielded only when no other is eligible. -/
def chooseTeam (s : State) (es : List (Nat × Team)) : Option (Nat × Team) :=
  match bestTeam s (es.filter fun kt => kt.2.yielded.isEmpty) with
  | some x => some x
  | none => bestTeam s es

/-- A run as it starts (R46, R55, R69). -/
def startRun (t : Team) (f : Fetched) (order : Nat) : Run :=
  { start := t.pc, setA := f.setA, setB := f.setB, items := f.items, index := 0, through := f.through, target := none, newText := none
    helper := false, fills := false, traps := [], consumed := [], hold := none, opens := none, closes := false, advances := false
    exits := 0, yields := false, blocks := none, item := ⟨0, 0, false⟩, itemIdx := 0, inChain := false, sgRead := t.sg, sg0 := t.sg
    lclk0 := t.lclk, mode := t.mode, order := order }

/-- Count the issue: the chosen team's count restarts, the other eligible teams' counts rise (R47), and a yielded team has seen
this slot start another's run (R416). DESIGN CHOICE (log entry 49): a team whose run fails its checks, or whose budget is spent, counts as issued
too. -/
def countIssue (s : State) (core slot k : Nat) (es : List (Nat × Team)) : State :=
  { s with
    teams := s.teams.map fun kt =>
      if kt.1 = k then (kt.1, { kt.2 with lastIssue := s.time, passed := 0, promoted := false, yielded := [] })
      else if coreOfTeam kt.1 = core then
        (kt.1, { kt.2 with
          passed := if es.any (fun e => e.1 == kt.1) then kt.2.passed + 1 else kt.2.passed
          yielded := kt.2.yielded.filter fun x => x != slot })
      else kt }

/-- A block's first run starts with an acquire at DEVICE scope (R329). -/
def firstAcquire (s : State) (bk core : Nat) : State :=
  match (s.block bk).bind (·.firstAcq) with
  | none => s
  | some b => acquire (s.modBlock bk fun x => { x with firstAcq := none }) core 3 b

/-- `RUN_START`: a free issue slot takes the run of the team its arbiter chooses; a run that fails a fetch check, or a spent
budget, is a trap instead (R73, R208). -/
def execRunStart (core slot : Nat) (s : State) : Out :=
  let busy := if slot = 0 then (s.core core).slotA else (s.core core).slotB
  if busy.isSome || decide (2 ≤ slot) || s.module.tripped then .next s
  else
    let s := syncDevice s
    let es := eligibleTeams s core
    match chooseTeam s es with
    | none => .next s
    | some (k, t) =>
      let s := firstAcquire (countIssue s core slot k es) t.block core
      -- a bank written back for room is made resident again (R90)
      let (s, f) := residentBank s k t.mode
      let trap := fun (x : LaneTrap) => (Host.Outcome.next (tryEnter (s.modTeam k fun t => { t with due := t.due ++ [x] }) k) : Out)
      let spent := t.depth == 0 && ((s.launchOf t).map fun l => l.budget == 0).getD false
      match f, fetchRun s t with
      | some c, _ => .next (enterDouble s k [(t.trapSet, .owed c.1 0 t.pc false)] t.trapSet t.pc c.1)
      | none, .error f =>
        if spent then trap (.owed 14 0 t.pc false) else trap ⟨0, f.cause, f.detail, f.addr, f.index, true, false, false, 0⟩
      | none, .ok f =>
        if spent then trap (.owed 14 0 t.pc false)
        else
          let order := (s.core core).runs
          let s := s.modCore core fun c =>
            { c with runs := c.runs + 1, slotA := if slot = 0 then some k else c.slotA, slotB := if slot = 0 then c.slotB else some k }
          -- LDCLK counts the instructions of the runs issued at depth 0 (R262)
          let clock := if t.depth = 0 && s.deterministic t then t.ldclk + f.whole.length else t.ldclk
          .next { s.modTeam k fun t => { t with run := some (startRun t f order), ldclk := clock } with cur := k }

/-- `TEAM_PROMOTE` (R47). -/
def execTeamPromote (team : Nat) (s : State) : Out :=
  .next (s.modTeam team fun t => if 256 ≤ t.passed then { t with promoted := true } else t)

end Sys2Proof.Machine
end

