-- ==== Sys2Proof/Machine/Regroup.lean ====
section
/-! DEFINITION. Regrouping a block's lanes by target and their return (R51–R53, R98, R262, R384, R385). -/

namespace Sys2Proof.Machine

/-! ### Moving lanes -/

/-- Where one lane goes: target, its home team's key and lane, its place in its column (R52). -/
structure Placing where
  target : Nat
  home   : Nat
  lane   : Nat
  place  : Nat
  deriving DecidableEq, Repr

/-- The new team of its target, and the lane there (R52). -/
def Placing.team (p : Placing) : Nat := p.place / 32
def Placing.newLane (p : Placing) : Nat := 32 * (p.place % 32) + p.lane % 32

/-- Rows of the vector registers move from lanes to lanes; run temporaries do not (R52, R69). -/
def moveRows {α : Type} [DecidableEq α] (d : α) (lanes : List (Nat × Nat)) (src dst : Sparse α) : Sparse α :=
  let kept := dst.filter fun kv => isTempKey kv.1 || !lanes.any fun x => x.2 == kv.1 % 1024
  src.foldl
    (fun m kv =>
      if isTempKey kv.1 then m
      else
        match lanes.find? fun x => x.1 == kv.1 % 1024 with
        | some x => Sparse.set d m (kv.1 / 1024 * 1024 + x.2) kv.2
        | none => m) kept

/-- Bits of a mask move from lanes to lanes. -/
def moveBits (lanes : List (Nat × Nat)) (src dst : Mask) : Mask :=
  lanes.foldl (fun m x => if src.getLsbD x.1 then m ||| bitMask x.2 else m &&& ~~~(bitMask x.2)) dst

/-- The keys of `k1`–`k15` in every bank (R88). -/
def maskKeys : List Nat := (List.range 13).map (· + 1) ++ (List.range 6).map (· + 16)

/-- Rows and mask bits of lanes of one team become those of lanes of another. -/
def moveLanes (lanes : List (Nat × Nat)) (src dst : Regs) : Regs :=
  let move := fun (a b m : Sparse Mask) (key : Nat) =>
    Sparse.set 0#1024 m key (moveBits lanes (Sparse.get 0#1024 a key) (Sparse.get 0#1024 b key))
  { dst with
    v := moveRows 0#32 lanes src.v dst.v
    vPoison := moveRows false lanes src.vPoison dst.vPoison
    k := maskKeys.foldl (fun m key => move src.k dst.k m key) dst.k
    kDiff := maskKeys.foldl (fun m key => move src.kDiff dst.kDiff m key) dst.kDiff }

/-- Traps due to some lanes, as the team they move to owes them (R98); a trap of the whole team stays one of all those lanes. -/
def moveTraps (lanes : List (Nat × Nat)) (xs : List LaneTrap) : List LaneTrap :=
  xs.filterMap fun x =>
    let m := moveBits (lanes.filter fun l => x.lanes = 0#1024 || x.lanes.getLsbD l.1) (BitVec.allOnes 1024) 0#1024
    if m = 0#1024 then none else some { x with lanes := m }

/-- Traps that stay with the lanes a team keeps. -/
def keepTraps (gone : Mask) (xs : List LaneTrap) : List LaneTrap :=
  xs.filterMap fun x =>
    if x.lanes = 0#1024 then none
    else if x.lanes &&& ~~~gone = 0#1024 then none else some { x with lanes := x.lanes &&& ~~~gone }

/-! ### Formation (R51, R52) -/

/-- The lanes of a block's arrived teams with their targets, in the order of R52: home team, then home word. -/
def placings (ts : List (Nat × Nat × Nat)) : List Placing :=
  ts.foldl
    (fun acc t =>
      (List.range (32 * t.2.1)).foldl
        (fun acc l =>
          let d := t.2.2 / 8 ^ l % 8
          if d = 0 then acc
          else
            let n := (acc.filter fun q => q.target + 1 == d && q.lane % 32 == l % 32).length
            acc ++ [(⟨d - 1, t.1, l, n⟩ : Placing)]) acc)
    []

/-- The longest column of a target. -/
def columnWords (ps : List Placing) (j : Nat) : Nat := (ps.filter fun p => p.target == j).foldl (fun n p => max n (p.place + 1)) 0

/-- The new teams in their order: target, number among the target's, words. -/
def newTeams (ps : List Placing) : List (Nat × Nat × Nat) :=
  (List.range 4).flatMap fun j =>
    let w := columnWords ps j
    (List.range ((w + 31) / 32)).map fun i => (j, i, min 32 (w - 32 * i))

/-- A team that has arrived at `REGRP` or `ENDRG` and drained (R51): no operation counted, an empty operand log. -/
def Team.arrivedRegroup (t : Team) (endForm : Bool) : Bool :=
  (match t.wait with
    | some (.regroup e _ _) => e == endForm
    | _ => false)
    && (List.range 12).all (fun f => t.flag f == 0) && t.parked.isEmpty && t.rolling.isEmpty

/-- The trap that a code address gives every lane before a team's first run there (R59, R384). -/
def codeTraps (s : State) (t : Team) (target : Nat) : List LaneTrap :=
  match codeAddressCause s t true target with
  | some c => [.ofTarget 0 c (if c = 6 then 2 else Config.freeWord s.tick 8) target]
  | none => []

/-- The table of a team, when it is in `REGRP`. -/
def Team.regroupTable (t : Team) : Nat :=
  match t.wait with
  | some (.regroup _ a _) => a
  | _ => 0
/-- What it records of each lane. -/
def Team.regroupDigits (t : Team) : Nat :=
  match t.wait with
  | some (.regroup _ _ d) => d
  | _ => 0

/-- Teams of a block in the order of their numbers. -/
def sortByNumber : List (Nat × Team) → List (Nat × Team)
  | [] => []
  | x :: xs => insert x (sortByNumber xs)
where
  insert (x : Nat × Team) : List (Nat × Team) → List (Nat × Team)
    | [] => [x]
    | y :: ys => if x.2.number ≤ y.2.number then x :: y :: ys else y :: insert x ys

/-- A new team's registers and clocks from the home teams that give it lanes (R52, R262). DESIGN CHOICE (log entry 49): it counts as having
issued when its first home team last did (R46). -/
def formTeam (s : State) (bk : Nat) (homes : List (Nat × Team)) (ps : List Placing) (number words tbase target : Nat) : Option Team :=
  match homes.find? fun h => ps.any fun p => p.home == h.1 with
  | none => none
  | some (_, first) =>
    let mine := homes.filter fun h => ps.any fun p => p.home == h.1
    let lanesOfHome := fun (h : Nat) => (ps.filter fun p => p.home == h).map fun p => (p.lane, p.newLane)
    let base := Team.fresh bk number words tbase first.textBase
    let placed := maskOf (ps.map Placing.newLane)
    let sp := fun (m : Mode) (own : BitVec 64) => if first.depth = 0 then BitVec.ofNat 64 (strideBase s base m + 196608) else own
    let regs0 : Regs := { Regs.zero with s := first.regs.s, sPoison := first.regs.sPoison, cbt := first.regs.cbt, part := first.regs.part, fflags := first.regs.fflags }
    let regs := mine.foldl (fun g h => moveLanes (lanesOfHome h.1) h.2.regs g) regs0
    let t : Team := { base with
      regs := { regs with k := Sparse.set 0#1024 regs.k 0 placed }
      exited := laneMask (32 * words) &&& ~~~placed
      sg := first.sg, lclk := mine.foldl (fun n h => max n h.2.lclk) 0, ldclk := mine.foldl (fun n h => max n h.2.ldclk) 0
      pc := target, mode := first.mode, depth := first.depth, xtsp := sp .s first.xtsp, xhtsp := sp .h first.xhtsp
      lastIssue := first.lastIssue
      homes := ps.foldl (fun m p => m.put p.newLane (((homes.find? fun h => h.1 == p.home).map (·.2.number)).getD 0, p.lane)) []
      due := mine.flatMap fun h => moveTraps (lanesOfHome h.1) h.2.due }
    some { t with due := t.due ++ codeTraps s t target }

/-- The team contexts that a block's new teams take: its own homes', then the lowest that no team and no home team of the core has. -/
def regroupContexts (s : State) (core : Nat) (own : List Nat) : List Nat :=
  let taken := (s.teams.map (·.1)) ++ s.blocks.flatMap fun kb => kb.2.homes.map (·.1)
  own ++ (((List.range 16).map (16 * core + ·)).filter fun k => !taken.contains k)

/-- `REGRP_FORM`. -/
def execRegrpForm (block : Nat) (s : State) : Out :=
  match s.block block with
  | none => .next s
  | some b =>
    let ts := sortByNumber (s.teamsOfBlock block)
    let live := ts.filter fun kt => !kt.2.ended
    if b.regrouped || live.isEmpty || !live.all fun kt => kt.2.arrivedRegroup false then .next s
    else
      let s := syncDevice s
      let text := fun (t : Team) => (textLength s (if t.mode = .u then 1 else 3) t.textBase).getD 0
      let go := fun (t : Team) => { t with wait := none, waitSince := 0 }
      if live.any fun kt => decide (text kt.2 < kt.2.regroupTable + 16) then
        let x := fun (t : Team) => LaneTrap.ofTarget 0 6 2 t.regroupTable
        let s := live.foldl (fun s kt => s.modTeam kt.1 fun t => go { t with due := t.due ++ [x t] }) s
        .next (live.foldl (fun s kt => tryEnter s kt.1) s)
      else
        let ps := placings (live.map fun kt => (kt.1, kt.2.words, kt.2.regroupDigits))
        let gives := fun (k : Nat) => ps.any fun p => p.home == k
        -- a team that gives no lane ends, once it has taken the traps it owes (R98, R385)
        let without := live.filter fun kt => !gives kt.1
        let s := without.foldl
          (fun s kt => s.modTeam kt.1 fun t =>
            if t.due.isEmpty then go { (t.writeK0 0#1024 0#1024) with exited := laneMask t.lanes, stack := [] }
            else go { t with ends := true }) s
        let takes := fun (s : State) => without.foldl (fun s kt => tryEnter s kt.1) s
        let homes := live.filter fun kt => gives kt.1
        if homes.isEmpty then .next (takes s)
        else
          -- lanes that took no part keep what they owe until the return
          let kept := homes.map fun kt =>
            let gone := maskOf ((ps.filter fun p => p.home == kt.1).map (·.lane))
            (kt.1, { go kt.2 with due := keepTraps gone kt.2.due, bankS := .unwritten, bankH := .unwritten })
          let keys := homes.map (·.1)
          let tbase := homes.foldl (fun n kt => min n kt.2.tbase) 524288
          let s := { s with teams := s.teams.filter fun kt => !keys.contains kt.1 }
          let s := s.modCore b.core fun c => { c with banks := c.banks.filter fun x => !keys.contains x.1 }
          let s := s.setBlock block { b with regrouped := true, homes := kept.foldl (fun m kt => m.put kt.1 kt.2) [] }
          let ctxs := regroupContexts s b.core keys
          let made := (newTeams ps).zipIdx.foldl
            (fun (acc : State × Nat × List Nat) x =>
              let mine := ps.filter fun p => p.target == x.1.1 && p.team == x.1.2.1
              let first := homes.find? fun h => mine.any fun p => p.home == h.1
              let target := match first with
                | some h => homeNat s (h.2.textBase + h.2.regroupTable + 4 * x.1.1) 4
                | none => 0
              match ctxs[x.2]?, formTeam s block homes mine x.2 x.1.2.2 acc.2.1 target with
              | some k, some t => (acc.1.setTeam k t, acc.2.1 + 128 * x.1.2.2 * b.vregs, acc.2.2 ++ [k])
              | _, _ => acc)
            (s, tbase, [])
          .next (takes (made.2.2.foldl tryEnter made.1))

/-! ### Return (R53) -/

/-- A home team takes its lanes back from the new teams. -/
def returnHome (h : Team) (news : List (Nat × Team)) (pc : Nat) : Team :=
  let mine := news.filter fun kt => kt.2.homes.any fun x => x.2.1 == h.number
  let lanes := fun (t : Team) => (t.homes.filter fun x => x.2.1 == h.number).map fun x => (x.1, x.2.2)
  let regs := mine.foldl (fun g kt => moveLanes (lanes kt.2) kt.2.regs g) h.regs
  let left := mine.foldl (fun m kt => moveBits ((lanes kt.2).filter fun x => kt.2.exited.getLsbD x.1) kt.2.exited m) h.exited
  let t : Team := { h with
    regs := regs, exited := left, stack := [], pc := pc, wait := none, waitSince := 0
    lclk := mine.foldl (fun n kt => max n kt.2.lclk) (if mine.isEmpty then h.lclk else 0)
    ldclk := mine.foldl (fun n kt => max n kt.2.ldclk) h.ldclk
    due := h.due ++ mine.flatMap fun kt => moveTraps (lanes kt.2) kt.2.due }
  t.writeK0 (laneMask t.lanes &&& ~~~left) 0#1024

/-- `ENDRG_RETURN`. Where every new team has exited and some home lanes remain, the manual gives no run to resume at: the code
address is free (log entry 2). -/
def execEndrgReturn (block : Nat) (s : State) : Out :=
  match s.block block with
  | none => .next s
  | some b =>
    let ts := sortByNumber (s.teamsOfBlock block)
    let news := ts.filter fun kt => !kt.2.homes.isEmpty
    if !b.regrouped || !news.all fun kt => kt.2.ended || kt.2.arrivedRegroup true then .next s
    else
      let pc := match news.find? fun kt => !kt.2.ended with
        | some kt => kt.2.regroupTable
        | none => (Config.freeWord s.tick 53).toNat
      let gone := news.map (·.1)
      let s := { s with teams := s.teams.filter fun kt => !gone.contains kt.1 }
      let s := s.modCore b.core fun c => { c with banks := c.banks.filter fun x => !gone.contains x.1 }
      let s := b.homes.foldl (fun s kh => s.setTeam kh.1 (returnHome kh.2 news pc)) s
      let s := s.setBlock block { b with regrouped := false, homes := [] }
      .next (b.homes.foldl (fun s kh => tryEnter s kh.1) s)

end Sys2Proof.Machine
end

