-- ==== Sys2Proof/Machine/Teams.lean ====
section
/-! DEFINITION. What comes about in a team between its runs: operations complete, walks end, traps are taken, regions roll back, the
ladle is granted, waits end, teams and blocks end (R65, R99, R198, R208, R212, R223, R263, R264, R276, R329). -/

namespace Sys2Proof.Machine

/-- Traps and consumptions a team owes are taken, if it stands where they may be. -/
def settle (s : State) (k : Nat) : State := tryEnter (settleConsumption s k) k

/-- `OPERATION_COMPLETE` (R65): an operation whose effect is known completes; a parked access is tried again, with no walk ending
(R158). -/
def execOperationComplete (team op : Nat) (s : State) : Out :=
  match s.team team with
  | none => .next s
  | some t =>
    match t.ops.find? fun o => o.num == op with
    | none => .next s
    | some o =>
      if !o.waits then .next (settle (s.setTeam team (t.finishOp s.tick op)) team)
      else if t.isParkedOp op then retryParked s team none
      else .next s

/-- `WALK_COMPLETE` (R212): the walk of a 64 KiB page of a context ends for the teams of a die. -/
def execWalkComplete (die ctx page : Nat) (s : State) : Out :=
  let ks := (s.teams.filter fun kt =>
    dieOfCore (coreOfTeam kt.1) == die && s.ctxOf kt.2 == ctx
      && kt.2.parked.any fun p => !p.framed && p.openLanes.any fun x => x.2.1 / 65536 == page).map (·.1)
  ks.foldl (fun o k => o.andThen fun s => retryParked s k (some page)) (.next s)

/-- `TRAP_ENTRY` (R99). -/
def execTrapEntry (team : Nat) (s : State) : Out := .next (tryEnter s team)

/-- `REGION_ROLLBACK` (R276). -/
def execRegionRollback (team : Nat) (s : State) : Out := .next (settle s team)

/-! ### The ladle (R264) -/

/-- A team's key: LDCLK, BLOCK, TEAM. -/
def ladleKey (s : State) (t : Team) (clock : Nat) : Nat × Nat × Nat := (clock, ((s.blockOf t).map (·.index)).getD 0, t.number)

/-- Keys compare lexicographically. -/
def keyLess (a b : Nat × Nat × Nat) : Bool :=
  a.1 < b.1 || (a.1 == b.1 && (a.2.1 < b.2.1 || (a.2.1 == b.2.1 && a.2.2 < b.2.2)))

/-- W at a grid barrier (R264). -/
def gridClock (s : State) (n : Nat) (l : Launch) : Nat :=
  1 + ((l.gridArr ++ l.gridEnd).map (fun a => a.2.2) ++ gridOthers s n l).foldl max 0

/-- The clock in a team's effective key. -/
def effectiveClock (s : State) (n : Nat) (l : Launch) (t : Team) : Nat :=
  if t.depth != 0 then t.ldclk
  else
    match t.wait with
    | some (.barrier b _ none) => match s.blockOf t with
      | some blk => barrierClock s t.block (blk.barrier b)
      | none => t.ldclk
    | some .grid =>
      let g := gridNumber (((s.blockOf t).map (·.index)).getD 0) t.number
      if l.gridArr.any fun a => a.1 == g then gridClock s n l else max t.ldclk l.gridBound.2
    | _ => t.ldclk

/-- The team of a launch that wants the ladle with the least key, if that key is less than every other team's effective key. -/
def ladleWinner (s : State) (n : Nat) (l : Launch) : Option Nat :=
  let ts := s.teams.filter fun kt => !kt.2.ended && s.launchNo kt.2 == some n
  let own := fun (t : Team) => ladleKey s t t.ldclk
  let best := (ts.filter fun kt => kt.2.wants).foldl
    (fun (m : Option (Nat × Team)) x => match m with
      | none => some x
      | some y => if keyLess (own x.2) (own y.2) then some x else some y) none
  match best with
  | none => none
  | some x =>
    if ts.all fun y => y.1 == x.1 || keyLess (own x.2) (ladleKey s y.2 (effectiveClock s n l y.2)) then some x.1 else none

/-- `LADLE_GRANT`: nothing is granted to a launch that has a block evicted (R265). A parked access that waits for the turn is
performed in it (R263). -/
def execLadleGrant (launch : Nat) (s : State) : Out :=
  match s.launch launch with
  | none => .next s
  | some l =>
    if !l.determ || l.ended || l.ladle.isSome || s.hub.evicted.any fun ke => ke.2.launch == launch then .next s
    else
      match ladleWinner s launch l with
      | none => .next s
      | some k =>
        let s := s.setLaunch launch { l with ladle := some k }
        let stalled := ((s.team k).bind (·.run)).any fun r => r.hold == some .retry
        if stalled then .next s else retryParked s k none

/-! ### Waking (R223, R304, R339, R414) -/

/-- A team's budget is spent (R208). -/
def budgetSpent (s : State) (t : Team) : Bool := t.depth == 0 && ((s.launchOf t).map fun l => l.budget == 0).getD false

/-- The trap of a spent budget. -/
def budgetTrap (pc : Nat) : LaneTrap := .owed 14 0 pc false

/-- A team goes on: what it owes is taken; `BUDGET` only if the budget is still spent (R208). -/
def resumeTeam (s : State) (k : Nat) : State :=
  let s := s.modTeam k fun t =>
    let due := t.due.filter fun x => x.cause != 14
    { t with wait := none, waitSince := 0, due := if budgetSpent s t then due ++ [budgetTrap t.pc] else due }
  settle (noteOwedBudget s k) k

/-- A team is past a wait with a wake code. -/
def wakeWith (s : State) (k cause : Nat) : State := s.modTeam k fun t => { t with waitCause := cause }

/-- A barrier's waiter bit goes down. -/
def dropWaiter (s : State) (t : Team) (b : Nat) : State :=
  s.modBlock t.block fun blk =>
    let x := blk.barrier b
    blk.setBarrier b { x with waiters := x.waiters &&& ~~~(1#16 <<< t.number) }

/-- `TEAM_WAKE`. -/
def execTeamWake (team : Nat) (s : State) : Out :=
  match s.team team with
  | none => .next s
  | some t =>
    let record := fun (s : State) (cause : Nat) => emit s unitCore (coreOfTeam team) 0x102 0 (cause + 256 * ctxOfTeam team)
    match t.wait with
    | some (.barrier b phase woken) =>
      let owed := match woken with
        | some a => some a
        | none => (s.blockOf t).bind fun blk => if (blk.barrier b).phase = phase then none else some ((blk.barrier b).owedFrom phase)
      match owed with
      | none => .next s
      | some a =>
        let s := progress (noteSeen (observe (dropWaiter s t b) team a) team b phase) team b true
        .next (resumeTeam (record (wakeWith s team 1) 1) team)
    | some .grid =>
      match s.blockOf t, s.launchOf t with
      | some b, some l =>
        if l.gridArr.any fun a => a.1 == gridNumber b.index t.number then .next s
        else
          let s := s.modTeam team fun t => { t with ldclk := if l.determ then max t.ldclk l.gridBound.2 else t.ldclk }
          let s := progress (seeStores (acquire s (coreOfTeam team) 3 l.gridBound.1) team) team 0xFF true
          .next (resumeTeam (record (wakeWith s team 2) 2) team)
      | _, _ => .next s
    | some (.monitor _ pa sb) =>
      if !t.monitor.written then .next s else .next (resumeTeam (record (endMonitor s team t pa sb 3) 3) team)
    | some (.spawn q) =>
      if (s.queue q).waiters.any fun w => (s.cmd w.cmd).any fun c => c.team == team && c.block == t.block then .next s
      else .next (resumeTeam (record (wakeWith s team 5) 5) team)
    | some (.get cmd) =>
      if (s.cmd cmd).any fun c => c.team == team && c.block == t.block then .next s
      else .next (resumeTeam (record (wakeWith s team 6) 6) team)
    | _ => .next s

/-! ### Ends (R329, R198) -/

/-- A counted operation of the current flag set that is no matrix reservation (R329). -/
def Team.owesOps (t : Team) (reserved : List (Nat × Nat)) (k : Nat) : Bool :=
  t.ops.any fun o => o.flag.isSome && o.depth == t.depth && !reserved.contains (k, o.num)

/-- The operations of the reservations of a cluster, with their teams. -/
def reservedOps (c : Cluster) : List (Nat × Nat) := c.table.filterMap fun kr => kr.2.op.map fun o => (kr.2.team, o)

/-- The exit event of a team on every barrier of its block (R173). -/
def exitEvents (s : State) (bk number : Nat) : State :=
  let bit := 1#16 <<< number
  let s := s.modBlock bk fun b =>
    (List.range 16).foldl (fun b n => b.setBarrier n { b.barrier n with exited := (b.barrier n).exited ||| bit })
      { b with exited := b.exited ||| bit }
  (List.range 16).foldl (fun s n => evalBarrier s bk n) s

/-- `TEAM_END` (R329). A team formed by `REGRP` releases and ends; the exit events are those of the home teams (log entry 36). Lanes
that a handler removed leave the launch a failure record (R208). -/
def execTeamEnd (team : Nat) (s : State) : Out :=
  match s.team team with
  | none => .next s
  | some t =>
    if t.ended || !t.gone || t.run.isSome || t.wait.isSome
        || t.owesOps (reservedOps (s.cluster (clusterOf (coreOfTeam team)))) team then .next s
    else
      let r := releaseTeam s team 3
      let s := r.1.modTeam team fun t =>
        { t with ended := true, due := [], rolling := [], opening := none, parked := [], monitor := Monitor.clear, region := none, wants := false }
      if !t.homes.isEmpty then .next s
      else
        let n := (s.launchNo t).getD 0
        let s := if t.depth = 0 then s else s.modLaunch n fun l => { l with failure := l.failure.orElse fun _ => some .killed }
        let s := progress s team 0xFF false
        let s := exitEvents s t.block t.number
        .next (gridEnded s n (((s.blockOf t).map (·.index)).getD 0) t.number r.2 t.ldclk)

/-- The releases that end a block: one of its context, or of each team's entries in a deterministic launch (R329, R266). The greatest
stamp comes back. -/
def releaseBlock (s : State) (bk : Nat) (b : Block) (l : Launch) : State × Nat :=
  let ts := sortByNumber (s.teamsOfBlock bk)
  if l.determ then
    ts.foldl (fun acc kt => let r := releaseTeam acc.1 kt.1 3; (r.1, max acc.2 r.2)) (s, 0)
  else
    let tag := s.tagOn b.core l.ctx
    publish s b.core tag ((s.core b.core).tail tag) 3 (Publisher.all 16)

/-- Every block of a launch has been placed and has gone (R198). -/
def launchDone (s : State) (n : Nat) (l : Launch) : Bool :=
  decide (l.nblocks ≤ l.next) && !s.blocks.any (fun kb => kb.2.launch == n) && !s.hub.evicted.any fun ke => ke.2.launch == n

/-- `BLOCK_END` (R329): a held extent of the block begins its hold time (R206, R207). -/
def execBlockEnd (block : Nat) (s : State) : Out :=
  match s.block block with
  | none => .next s
  | some b =>
    let ts := s.teamsOfBlock block
    if b.regrouped || !ts.all (fun kt => kt.2.ended) || (s.cluster (clusterOf b.core)).table.any (fun kr => kr.2.block == block)
        || b.barriers.any (fun x => x.2.pend != 0) then .next s
    else
      match s.launch b.launch with
      | none => .next (removeBlock s block)
      | some l =>
        let r := releaseBlock s block b l
        let s := r.1.modHub fun h => { h with endStamp := max h.endStamp r.2 }
        let s := s.modCore b.core fun c =>
          { c with holds := c.holds.map fun x => if x.2.block = block ∧ x.2.exitAt.isNone then (x.1, { x.2 with exitAt := some s.time }) else x }
        let s := removeBlock s block
        .next (checkStop (if launchDone s b.launch l then endLaunch s b.launch l.failure else s))

/-- `BUDGET_OUT` (R208): the teams of a slice with a spent budget owe `BUDGET`; those that stand between runs take it now, the others
at the end of their run or when they wake. -/
def execBudgetOut (launch : Nat) (s : State) : Out :=
  let ks := (s.teams.filter fun kt =>
    s.launchNo kt.2 == some launch && budgetSpent s kt.2 && !kt.2.ended && !kt.2.due.any fun x => x.cause == 14).map (·.1)
  if ks.isEmpty then .next s
  else
    let s := noteBudgetOut s launch
    .next (ks.foldl (fun s k => settle (s.modTeam k fun t => { t with due := t.due ++ [budgetTrap t.pc] }) k) s)

end Sys2Proof.Machine
end

