-- ==== Sys2Proof/Machine/Units.lean ====
section
/-! DEFINITION. The engines' own steps: the fold engine and the rebase (R151, R160), stalled commands that issue, copy units and
completions (R165, R166), the matrix engine's grants, retirements and promotions (R185, R187). -/

namespace Sys2Proof.Machine

/-- `FOLD` (R151): the first published entry of a core's log is folded and freed. -/
def execFold (core : Nat) (s : State) : Out :=
  match (s.core core).log.find? fun e => e.pub with
  | none => .next s
  | some x => .next (foldSome s core fun e => e == x)

/-- `REBASE` (R160), with the launch stamps (R266). Bounds that are owed by an acquire are of entries now folded, and become 0. -/
def execRebase (s : State) : Out :=
  if !s.cores.any fun kc => decide (2 ^ 47 ≤ kc.2.counter) then .next s
  else
    let s := foldAcross s fun _ _ _ => true
    let s := s.modHome fun h => { h with fold := [], sync := h.sync.map fun kt => (kt.1, { kt.2 with stamp := 0 }) }
    let barrier := fun (b : Barrier) => { b with openAcq := (b.openAcq.1, 0), acqs := b.acqs.map fun x => (x.1, (x.2.1, 0)) }
    let s := { s with
      cores := s.cores.map fun kc => (kc.1, { kc.2 with counter := 0, segs := [] })
      launches := s.launches.map fun kl => (kl.1, { kl.2 with
        ls := 0, gridBound := (0, kl.2.gridBound.2), gridArr := kl.2.gridArr.map fun a => (a.1, 0, a.2.2)
        gridEnd := kl.2.gridEnd.map fun a => (a.1, 0, a.2.2) })
      blocks := s.blocks.map fun kb => (kb.1, { kb.2 with barriers := kb.2.barriers.map fun x => (x.1, barrier x.2) })
      teams := s.teams.map fun kt => (kt.1, { kt.2 with wait := match kt.2.wait with
        | some (.barrier b p (some a)) => some (.barrier b p (some (a.1, 0)))
        | w => w })
      cmds := s.cmds.map fun kc => (kc.1, { kc.2 with stamp := kc.2.stamp.map fun _ => 0 })
      hub := { s.hub with
        endStamp := 0
        evicted := s.hub.evicted.map fun ke => (ke.1, { ke.2 with
          barriers := ke.2.barriers.map fun x => (x.1, barrier x.2)
          waits := ke.2.waits.map fun w => match w.2 with
            | .barrier b p (some a) => (w.1, Wait.barrier b p (some (a.1, 0)))
            | _ => w }) } }
    .next (emit s unitWalker 0 0x103 0 0)

/-- The meaning of an engine command by its word, for a stalled one that is tried again. -/
def engineMeaning (w : Nat) : Option (State → Out) :=
  match decodeWord w with
  | .ok (.cpyG2t _ x y z b) => some (execCpyG2t x y z b)
  | .ok (.cpyT2g _ x y z b) => some (execCpyT2g x y z b)
  | .ok (.cpyL2l _ x y z b) => some (execCpyL2l x y z b)
  | .ok (.cpyG2g _ x y z b) => some (execCpyG2g x y z b)
  | .ok (.cpyG2l _ x y z b) => some (execCpyG2l x y z b)
  | .ok (.cpyL2g _ x y z b) => some (execCpyL2g x y z b)
  | .ok (.gather _ x y z b) => some (execGather x y z b)
  | .ok (.put _ x y z b) => some (execPut x y z b)
  | .ok (.puts _ x y z b) => some (execPuts x y z b)
  | .ok (.get _ x y z b) => some (execGet x y z b)
  | .ok (.csend _ x y z b) => some (execCsend x y z b)
  | .ok (.rsig _ x y z b) => some (execRsig x y z b)
  | .ok (.spawn _ x y z b) => some (execSpawn x y z b)
  | .ok (.hpass _ x y z b) => some (execHpass x y z b)
  | _ => none

/-- `ENGINE_COMMAND_ISSUE`: a stalled command of a team issues once what it waits for allows (R165, R169, R232, R263). -/
def execEngineCommandIssue (team : Nat) (s : State) : Out :=
  match (s.team team).bind (·.run) with
  | none => .next s
  | some r =>
    match r.items, r.hold with
    | it :: _, some .retry =>
      match engineMeaning (it.word % 2147483648 + if it.chain then 2147483648 else 0) with
      | none => .next s
      | some f =>
        let s := { s with cur := team }
        (f (s.modTeam team Team.begin)).andThen fun s => .next (finishInstr s)
    | _, _ => .next s

/-- The kinds that move units by `COPY_UNIT`. -/
def Cmd.copies (c : Cmd) : Bool := c.kind == .copy || c.kind == .gather || c.kind == .adopt

/-- `COPY_UNIT` (R166). -/
def execCopyUnit (cmd unit : Nat) (s : State) : Out :=
  if (s.cmd cmd).any Cmd.copies then moveUnit s cmd unit else .next s

/-- `COPY_COMPLETE` (R166). -/
def execCopyComplete (cmd : Nat) (s : State) : Out :=
  .next (if (s.cmd cmd).any Cmd.copies then completeCopy s cmd else s)

/-- `RESERVATION_GRANT` (R187, R188). -/
def execReservationGrant (cluster : Nat) (s : State) : Out := grantNext s cluster

/-- `RESERVATION_RETIRE` (R185): a granted reservation whose work is done. -/
def execReservationRetire (cluster entry : Nat) (s : State) : Out :=
  .next (if ((s.cluster cluster).table.find entry).any (·.granted) then retireEntry s cluster entry else s)

/-- `RESERVATION_PROMOTE` (R187). -/
def execReservationPromote (cluster entry : Nat) (s : State) : Out :=
  .next (modEntry s cluster entry fun r => if r.issued + 4096 ≤ s.cycles then { r with promoted := true } else r)

end Sys2Proof.Machine
end

