-- ==== Sys2Proof/Machine/Placement.lean ====
section
/-! DEFINITION. Placement (R39, R40, R48, R88, R130, R132, R159, R172, R177, R200, R206, R329, R399). -/

namespace Sys2Proof.Machine

/-! ### What a block needs and what a core has -/

/-- What a block of a launch takes: scratchpad bytes, accumulator rows, teams, lanes, `VREGS`, carve-out in KiB, team contexts. -/
structure Shape where
  alloc   : Nat
  accRows : Nat
  teams   : Nat
  lanes   : Nat
  vregs   : Nat
  carve   : Nat
  ctxs    : Nat
  deriving DecidableEq, Repr

/-- A word is a `REGRP`. -/
def isRegrp (w : Nat) : Bool :=
  match decodeWord (w % 2147483648) with
  | .ok (.regrp _ _) => true
  | _ => false

/-- A kernel contains `REGRP` (R38, R39): in its text or its dictionary. -/
def kernelRegroups (s : State) (dpa : Nat) : Bool :=
  let f := fun (o : Nat) => imageField s dpa o 4
  (List.range (f 36 / 4)).any (fun i => isRegrp (homeNat s (dpa + f 32 + 4 * i) 4))
    || (List.range (f 44)).any fun i => isRegrp (homeNat s (dpa + f 40 + 4 * i) 4)

/-- The device address of a kernel image. -/
def kernelDpa (s : State) (kernel : Nat) : Nat := ((s.image kernel).map (·.dpa)).getD 0

/-- The shape that a kernel image and a template's ALLOC and ACCROWS give. -/
def shapeOf (s : State) (kernel alloc accRows : Nat) : Shape :=
  let dpa := kernelDpa s kernel
  let teams := imageField s dpa 12 1
  { alloc := 2048 * alloc, accRows := accRows, teams := teams, lanes := imageField s dpa 10 2, vregs := imageField s dpa 13 1
    carve := 128 * imageField s dpa 14 1, ctxs := if kernelRegroups s dpa then 4 * teams else teams }

/-- The shape of a launch's blocks. -/
def Launch.shape (s : State) (l : Launch) : Shape := shapeOf s l.kernel l.alloc l.accRows

/-- Register-file bytes of a block (R39). -/
def Shape.regBytes (x : Shape) : Nat := x.teams * x.lanes * x.vregs * 4

/-- The shape fits an idle core set to its carve-out (R38, R39, R130, R177). -/
def Shape.fitsIdle (x : Shape) : Bool :=
  decide (x.ctxs ≤ 16 ∧ x.regBytes ≤ 524288 ∧ x.alloc + 1024 * x.carve ≤ 1048576 ∧ x.accRows ≤ 512)

/-- The lowest start, a multiple of `step`, of `n` free places below `limit`, the used ones given as start and length. -/
def firstFit (used : List (Nat × Nat)) (limit n step : Nat) : Option Nat :=
  let starts := 0 :: used.map fun u => (u.1 + u.2 + step - 1) / step * step
  (starts.filter fun a => decide (a + n ≤ limit) && used.all fun u => decide (a + n ≤ u.1 ∨ u.1 + u.2 ≤ a)).foldl
    (fun best a => match best with
      | none => some a
      | some b => some (min a b)) none

/-- Blocks of a core, some of them reckoned as gone. -/
def blocksBut (s : State) (core : Nat) (gone : List Nat) : List (Nat × Block) :=
  (s.blocksOfCore core).filter fun kb => !gone.contains kb.1

/-- Team contexts that a block has taken (R39). -/
def blockContexts (s : State) (b : Block) : Nat :=
  match s.launch b.launch with
  | some l => (l.shape s).ctxs
  | none => b.nteams

/-- The scratchpad that is taken: allocations, and the held extents of blocks that have exited (R206). -/
def takenScratch (s : State) (core : Nat) (gone : List Nat) (but : Option Nat) : List (Nat × Nat) :=
  (blocksBut s core gone).map (fun kb => (kb.2.base, kb.2.size))
    ++ ((s.core core).holds.filter fun kh => kh.2.exitAt.isSome && but != some kh.1).map fun kh => (kh.2.base, kh.2.extent)

/-- The register-file extent of a team (R221): start and bytes. -/
def regExtent (s : State) (t : Team) : Nat × Nat := (t.tbase, 128 * t.words * (((s.blockOf t).map (·.vregs)).getD 0))

/-- Register-file extents of a core's teams, and of the home teams of its regrouped blocks (R53, R221). -/
def takenRegs (s : State) (core : Nat) (gone : List Nat) : List (Nat × Nat) :=
  ((s.teams.filter fun kt => coreOfTeam kt.1 == core && !gone.contains kt.2.block).map fun kt => regExtent s kt.2)
    ++ (blocksBut s core gone).flatMap fun kb => kb.2.homes.map fun kt => regExtent s kt.2

/-- Extents for some teams of `n` bytes each. -/
def regExtents (n : Nat) : Nat → List (Nat × Nat) → Option (List Nat)
  | 0, _ => some []
  | m + 1, used =>
    match firstFit used 524288 n 128 with
    | none => none
    | some a => (regExtents n m ((a, n) :: used)).map (a :: ·)

/-- Where the teams of a core lie once their extents are moved together, which R39's sum calls for and R221 leaves to the core (log entry
26): team key and start. Those of regrouped blocks stay. -/
def packedRegs (s : State) (core : Nat) (gone : List Nat) : Option (List (Nat × Nat) × List (Nat × Nat)) :=
  let bs := blocksBut s core gone
  let fixed := bs.filter fun kb => kb.2.regrouped
  let stays := (s.teams.filter fun kt => fixed.any fun kb => kb.1 == kt.2.block).map (fun kt => regExtent s kt.2)
    ++ fixed.flatMap fun kb => kb.2.homes.map fun kt => regExtent s kt.2
  (s.teams.filter fun kt => bs.any fun kb => kb.1 == kt.2.block && !kb.2.regrouped).foldl
    (fun acc kt => acc.bind fun x =>
      (firstFit x.2 524288 (regExtent s kt.2).2 128).map fun a => (x.1 ++ [(kt.1, a)], (a, (regExtent s kt.2).2) :: x.2))
    (some ([], stays))

/-- The context tag a context has or may take in a core's log (R144, R159): its own, a free one, or one whose context has no block
there. -/
def tagFree (s : State) (core ctx : Nat) (gone : List Nat) : Option Nat :=
  let c := s.core core
  match c.tagOf ctx with
  | some t => some t
  | none =>
    (List.range 4).find? fun t =>
      match c.ctxLogs.find t with
      | none => true
      | some r =>
        !(blocksBut s core gone).any (fun kb => ((s.launch kb.2.launch).map (·.ctx)) == some r.ctx)
          && !c.log.any fun e => e.ctx == t && !e.pub

/-- Where a block would lie on a core. -/
structure Spot where
  slot    : Nat
  base    : Nat
  accBase : Nat
  tag     : Nat
  tbases  : List Nat
  /-- resident teams whose register-file extents move first: team key and start -/
  moves   : List (Nat × Nat)
  deriving DecidableEq, Repr

/-- A place for a block of a shape on a core whose carve-out agrees, some blocks reckoned as gone (R39, R130, R177); with `at'` its
allocation lies at a hold's extent (R206). -/
def spotOn (s : State) (core ctx : Nat) (x : Shape) (gone : List Nat) (at' : Option Nat) : Option Spot :=
  let bs := blocksBut s core gone
  let used := takenScratch s core gone at'
  let limit := 1048576 - 1024 * x.carve
  let base := match at'.bind fun h => (s.core core).holds.find h with
    | some h =>
      if h.extent ≤ x.alloc ∧ h.base + x.alloc ≤ limit ∧ used.all fun u => decide (h.base + x.alloc ≤ u.1 ∨ u.1 + u.2 ≤ h.base) then some h.base
      else none
    | none => firstFit used limit x.alloc 2048
  if (s.core core).carve ≠ x.carve ∨ 16 < x.ctxs + bs.foldl (fun n kb => n + blockContexts s kb.2) 0
      ∨ 524288 < x.regBytes + bs.foldl (fun n kb => n + kb.2.nteams * kb.2.lanes * kb.2.vregs * 4) 0 then none
  else
    let regs := match regExtents (4 * x.lanes * x.vregs) x.teams (takenRegs s core gone) with
      | some ts => some (ts, [])
      | none => (packedRegs s core gone).bind fun p =>
        (regExtents (4 * x.lanes * x.vregs) x.teams p.2).map fun ts => (ts, p.1)
    match (List.range 4).find? (fun i => !bs.any fun kb => kb.2.slot == i), base,
        firstFit (bs.map fun kb => (kb.2.accBase, kb.2.accRows)) 512 x.accRows 32, tagFree s core ctx gone, regs with
    | some slot, some base, some acc, some tag, some ts => some ⟨slot, base, acc, tag, ts.1, ts.2⟩
    | _, _, _, _, _ => none

/-! ### Placing a block -/

/-- Move register-file extents (R221). -/
def moveRegs (s : State) (ms : List (Nat × Nat)) : State := ms.foldl (fun s m => s.modTeam m.1 fun t => { t with tbase := m.2 }) s

/-- A context takes its tag on a core (R145). Positions go on from where they stood when it last had one there, so that marks stay
valid (R157). -/
def takeTag (s : State) (core ctx tag : Nat) : State :=
  if (s.core core).tagOf ctx = some tag then s
  else
    let s := foldSome s core fun e => e.ctx == tag
    s.modCore core fun c =>
      let old := c.ctxLogs.find tag
      let tails := match old with
        | some r => c.tails.put r.ctx r.tail
        | none => c.tails
      let n := (tails.find ctx).getD 0
      { c with tails := tails, ctxLogs := c.ctxLogs.put tag ⟨ctx, n, n, (old.map (·.ovfBase)).getD 0⟩ }

/-- The team contexts of a core that no team, and no home team of a regrouped block, has. -/
def freeContexts (s : State) (core : Nat) : List Nat :=
  let taken := (s.teams.map (·.1)) ++ s.blocks.flatMap fun kb => kb.2.homes.map (·.1)
  ((List.range 16).map (16 * core + ·)).filter fun k => !taken.contains k

/-- A team at its first run (R88): `s2:s3` the argument block, `s4:s5` DATAVA, its stack pointers at the top of its strides (R90).
DESIGN CHOICE (log entry 49): a team that has issued no run counts as having issued when it was placed (R46). -/
def launchTeam (s : State) (l : Launch) (bk number words tbase : Nat) : Team :=
  let dpa := kernelDpa s l.kernel
  let t := Team.fresh bk number words tbase (dpa + imageField s dpa 32 4)
  let data := if imageField s dpa 52 4 = 0 then 0#64 else ((s.image l.kernel).map (·.datava)).getD 0
  let t := { (t.writePair 2 l.argva).writePair 4 data with lastIssue := s.time }
  { t with
    xtsp := BitVec.ofNat 64 (strideBase s t .s + 196608), xhtsp := BitVec.ofNat 64 (strideBase s t .h + 196608) }

/-- Clear an allocation and its accumulator rows (R130, R177). -/
def clearBlock (s : State) (core base size acc rows : Nat) : State :=
  s.modCore core fun c => { c with
    scratch := c.scratch.filter fun kv => kv.1 < base || base + size ≤ kv.1
    scratchPoison := c.scratchPoison.filter fun kv => kv.1 < base / 4 || (base + size) / 4 ≤ kv.1
    acc := c.acc.filter fun kv => kv.1 / 128 < acc || acc + rows ≤ kv.1 / 128
    accPoison := c.accPoison.filter fun kv => kv.1 / 128 < acc || acc + rows ≤ kv.1 / 128 }

/-- The arrivals held for a block are applied in order (R236). -/
def applyArrivals (s : State) (id : BitVec 64) (index bk : Nat) : State :=
  let mine := fun (a : HeldArrival) => a.launch == id && a.block == index
  let xs := s.hub.arrivals.filter mine
  xs.foldl (fun s a => externalResident s bk a.barrier a.cid) (s.modHub fun h => { h with arrivals := h.arrivals.filter fun a => !mine a })

/-- The block record of a place. -/
def newBlock (s : State) (l : Launch) (n core : Nat) (x : Shape) (p : Spot) (index : Nat) (grouped : Bool) : Block :=
  let dpa := kernelDpa s l.kernel
  { launch := n, index := index, core := core, slot := p.slot, base := p.base, size := x.alloc, accBase := p.accBase
    accRows := x.accRows, vregs := x.vregs, lanes := x.lanes, nteams := x.teams
    dict := (List.range (imageField s dpa 44 4)).map fun i => homeNat s (dpa + imageField s dpa 40 4 + 4 * i) 4
    tiles := [], barriers := (List.range 16).map fun i => (i, Barrier.fresh s.time), grouped := grouped, homes := []
    regrouped := false, leaving := false, exited := 0, firstAcq := some s.hub.endStamp }

/-- Place block NEXT of a launch at a spot (R199, R200). A hold it is placed on keeps its extent and its contents (R206). -/
def placeBlock (s : State) (n core : Nat) (p : Spot) (at' : Option Nat) (grouped : Bool) : State :=
  match s.launch n with
  | none => s
  | some l =>
    let x := l.shape s
    let bk := State.blockKey core p.slot
    let s := if l.next = 0 then writeHandle s core n else s
    let kept := ((at'.bind fun h => (s.core core).holds.find h).map (·.extent)).getD 0
    let s := clearBlock (takeTag (moveRegs s p.moves) core l.ctx p.tag) core (p.base + kept) (x.alloc - kept) p.accBase x.accRows
    let index := l.next
    let s := s.setBlock bk (newBlock s l n core x p index grouped)
    let s := s.setLaunch n { l with next := index + 1, readyAt := s.time, cls := slackClass s.time l }
    let keys := (freeContexts s core).take x.teams
    let s := (keys.zip p.tbases).zipIdx.foldl (fun s kb => s.setTeam kb.1.1 (launchTeam s l bk kb.2 (x.lanes / 32) kb.1.2)) s
    let s := takeBlock s bk
    let s := emit s unitWalker 0 0x300 0 (l.id.toNat % 2 ^ 32 + 2 ^ 32 * index)
    let s := applyArrivals (writeSlice s n 12 4) l.id index bk
    if index + 1 < l.nblocks then s else pumpWalker (leaveQueue s l.queue n)

/-! ### Choosing (R132, R200) -/

/-- A core takes work: its cluster is not marked moving, and no XLANEMAP value waits (R203, R281). -/
def coreOpen (s : State) (core : Nat) : Bool :=
  (s.cluster (clusterOf core)).moving.isNone && (s.core core).newmap.isNone && !s.module.tripped

/-- The cores that place from a queue. -/
def coresOf (s : State) (q : Nat) : List Nat :=
  (List.range 256).filter fun c => (s.cluster (clusterOf c)).queue == q && coreOpen s c

/-- The hold of a core that a record's handle names, whose extent its blocks are large enough for (R200 step 1, R206). -/
def holdFor (s : State) (core : Nat) (l : Launch) : Option Nat :=
  match heldBy s l.handle with
  | some h => if handleCore l.handle = core ∧ h.extent ≤ 2048 * l.alloc then some (handleSlot l.handle) else none
  | none => none

/-- The hold on whose extent the next block of launch `n` is laid (R206): none once a block of the launch lies there. -/
def holdBase (s : State) (core n : Nat) (l : Launch) : Option Nat :=
  (holdFor s core l).filter fun i =>
    !(s.blocksOfCore core).any fun kb => kb.2.launch == n && (((s.core core).holds.find i).map (·.base)) == some kb.2.base

/-- Place all blocks of a list of cores in turn, while each fits. -/
def placeEach (s : State) (n : Nat) (grouped : Bool) : List Nat → Option State
  | [] => some s
  | c :: cs =>
    match s.launch n with
    | none => none
    | some l =>
      match spotOn s c l.ctx (l.shape s) [] (holdBase s c n l) with
      | some p => placeEach (placeBlock s n c p (holdBase s c n l) grouped) n grouped cs
      | none => none

/-- Place the group of four consecutive blocks that comes next on a cluster's cores (R40). DESIGN CHOICE (log entry 26): where the count of
blocks is no multiple of four, the last group's blocks lie on the first cores of the cluster. -/
def placeGroup (s : State) (n cl : Nat) : Option State :=
  match s.launch n with
  | none => none
  | some l =>
    if (List.range 4).all fun i => coreOpen s (4 * cl + i) then
      placeEach s n true ((List.range (min 4 (l.nblocks - l.next))).map (4 * cl + ·))
    else none

/-- Place every block of a launch at once, core after core (R48). -/
def placeAll (s : State) (n : Nat) : List Nat → Nat → Option State
  | _, 0 => none
  | cores, fuel + 1 =>
    match s.launch n with
    | none => none
    | some l =>
      if l.nblocks ≤ l.next then some s
      else
        match cores with
        | [] => none
        | c :: cs =>
          if l.grouping then
            match if c % 4 = 0 then placeGroup s n (c / 4) else none with
            | some s' => placeAll s' n (c :: cs) fuel
            | none => placeAll s n cs fuel
          else
            match placeEach s n false [c] with
            | some s' => placeAll s' n (c :: cs) fuel
            | none => placeAll s n cs fuel

/-- Place the next work of a record through a core: one block, a group, or the whole launch. -/
def placeRecord (s : State) (core n : Nat) : Option State :=
  match s.launch n with
  | none => none
  | some l =>
    if !mayPlace s l then none
    else if l.cores then
      let cs := coresOf s l.queue
      placeAll s n (core :: cs.filter fun c => c != core) (256 + l.nblocks)
    else if l.grouping then placeGroup s n (clusterOf core)
    else placeEach s n false [core]

/-- The records of a queue that may be placed. -/
def recordsOf (s : State) (q : Nat) : List (Nat × Launch) :=
  (s.queue q).records.filterMap fun n => match s.launch n with
    | some l => if mayPlace s l then some (n, l) else none
    | none => none

/-! ### Evicted blocks that may run again (R210, R223, R224) -/

/-- The evicted blocks that return to a queue as runnable records. -/
def runnable (s : State) (q : Nat) : List (Nat × Evicted) :=
  s.hub.evicted.filter fun ke => evictedRuns s ke.1 ke.2 && ((s.launch ke.2.launch).map (·.queue)) == some q

/-- A record of a queue: the next block of a launch, or an evicted block (R210: ahead of the records of equal deadline). -/
inductive Work where
  | place (launch : Nat)
  | resume (image : Nat)
  deriving DecidableEq, Repr

/-- The launch behind a piece of work. -/
def Work.launch (s : State) : Work → Option Launch
  | .place n => s.launch n
  | .resume k => (s.hub.evicted.find k).bind fun e => s.launch e.launch

/-- A piece of work with its place: deadline, evicted blocks before records, acceptance or eviction order. No deadline is the
greatest. -/
abbrev Ranked := Nat × Nat × Nat × Work

/-- Deadline order. -/
def rankedBefore (a b : Ranked) : Bool :=
  a.1 < b.1 || (a.1 == b.1 && (a.2.1 < b.2.1 || (a.2.1 == b.2.1 && a.2.2.1 < b.2.2.1)))

/-- Insert in order. -/
def insertRanked (x : Ranked) : List Ranked → List Ranked
  | [] => [x]
  | y :: ys => if rankedBefore x y then x :: y :: ys else y :: insertRanked x ys

/-- The work of a queue in order (R200, R210). -/
def workOf (s : State) (q : Nat) : List Work :=
  let rs : List Ranked := (recordsOf s q).map fun x => (x.2.deadline.toNat, 1, x.2.accepted, Work.place x.1)
  let es : List Ranked := (runnable s q).map fun e =>
    (((s.launch e.2.launch).map (·.deadline.toNat)).getD 0, 0, e.1, Work.resume e.1)
  ((es ++ rs).foldl (fun xs x => insertRanked x xs) []).map (·.2.2.2)

/-- The deciding record of a core (R132): one with a held handle for it, else the first whose block would fit the idle core. -/
def decides (s : State) (core : Nat) (ws : List Work) : Option Work :=
  let held := ws.find? fun w => match w with
    | .place n => ((s.launch n).bind (holdFor s core)).isSome
    | .resume _ => false
  match held with
  | some w => some w
  | none => ws.find? fun w => ((w.launch s).map fun l => (l.shape s).fitsIdle).getD false

/-- The carve-out a piece of work needs. -/
def Work.carve (s : State) (w : Work) : Nat := ((w.launch s).map fun l => (l.shape s).carve).getD 0

/-- `CARVE_CHANGE` (R132): an idle core whose deciding record needs another setting takes it, its whole L1 is invalidated, and the waiting
block is offered its place. -/
def execCarveChange (core : Nat) (s : State) : Out :=
  let s := syncDevice s
  if !(s.blocksOfCore core).isEmpty || !coreOpen s core then .next s
  else
    match decides s core (workOf s (s.cluster (clusterOf core)).queue) with
    | none => .next s
    | some w =>
      .next (if w.carve s = (s.core core).carve then s
        else offerCores (s.modCore core fun c => { c with carve := w.carve s, l1 := [], l1Poison := [] }) [core])

end Sys2Proof.Machine
end

