-- ==== Sys2Proof/Machine/Eviction.lean ====
section
/-! DEFINITION. Blocks leave their cores and return (R90, R159, R209, R210, R219–R224). -/

namespace Sys2Proof.Machine

/-! ### Evictable blocks (R209) -/

/-- A team stands where its block may be evicted. -/
def Team.evictable (t : Team) : Bool :=
  t.ended
    || ((match t.wait with
      | none => false
      | some (.regroup _ _ _) => false
      | some _ => true) && t.depth == 0 && t.parked.isEmpty && t.run.isNone && t.rolling.isEmpty)

/-- A block is evictable. -/
def evictable (s : State) (bk : Nat) (b : Block) : Bool := !b.regrouped && (s.teamsOfBlock bk).all fun kt => kt.2.evictable

/-- A resident team's wake condition holds (R223). -/
def teamWakes (s : State) (k : Nat) (t : Team) : Bool :=
  match t.wait with
  | some (.barrier b phase woken) => woken.isSome || ((s.blockOf t).map fun blk => (blk.barrier b).phase != phase).getD false
  | some .grid => match s.blockOf t, s.launchOf t with
    | some b, some l => !l.gridArr.any fun a => a.1 == gridNumber b.index t.number
    | _, _ => false
  | some (.monitor _ _ _) => t.monitor.written
  | some (.spawn q) => !(s.queue q).waiters.any fun w => (s.cmd w.cmd).any fun c => c.team == k && c.block == t.block
  | some (.get cmd) => !(s.cmd cmd).any fun c => c.team == k && c.block == t.block
  | _ => false

/-- A block's operations have drained (R219 step 2): no counted operation but matrix reservations, and no command that still moves
data of the block, but a `GET` not counted, which goes on while the block is away (R340). -/
def drainedForEviction (s : State) (bk : Nat) (b : Block) : Bool :=
  let reserved := reservedOps (s.cluster (clusterOf b.core))
  (s.teamsOfBlock bk).all (fun kt => !kt.2.owesOps reserved kt.1)
    && s.cmds.all fun kc => kc.2.block != bk || kc.2.localDone || kc.2.kind == .spawn || kc.2.kind == .hpass
      || (kc.2.kind == .get && kc.2.op.isNone)

/-! ### The image (R220) -/

/-- The WAITCAUSE code a wait awaits (R220, R223). -/
def Wait.code : Wait → Nat
  | .barrier _ _ _ => 1
  | .grid => 2
  | .monitor _ _ _ => 3
  | .spawn _ => 5
  | .get _ => 6
  | .regroup _ _ _ => 0

/-- WAKEARG (R220). -/
def Wait.arg : Wait → Nat
  | .barrier b phase _ => b + 256 * phase.toNat
  | .monitor va _ _ => va
  | _ => 0

/-- Bytes in 32-byte chunks, each with its poison. -/
def poisonedChunks (bs : List Byte) (pois : Nat → Bool) : List (List Byte × Bool) :=
  (List.range ((bs.length + 31) / 32)).map fun i => (bytesAt bs (32 * i) 32, pois i)

/-- TSIZE (R220). -/
def teamSize (lanes vregs : Nat) : Nat := 11520 + 64 * lanes + 4 * lanes * vregs

/-- Where the VREGS field of a team record begins. -/
def vregsAt (lanes : Nat) : Nat := 11520 + 64 * lanes

/-- The sixteen bytes pairs of the codebook. -/
def cbtBytes (t : Team) : List Byte := (List.range 16).flatMap fun i => leBytes 2 (Sparse.get 0#16 t.regs.cbt i).toNat

/-- The team record's bytes (R220). -/
def teamBytes (t : Team) (vregs : Nat) : List Byte :=
  leBytes 4 t.pc ++ leBytes 1 ((t.wait.map Wait.code).getD 0) ++ leBytes 1 t.number ++ leBytes 1 (if t.ended then 1 else 0)
    ++ leBytes 1 t.stack.length ++ leBytes 8 t.lclk ++ leBytes 4 t.sg.toNat ++ leBytes 1 t.regs.part.toNat
    ++ leBytes 1 t.regs.fflags.toNat ++ zeroBytes 2 ++ leBytes 8 ((t.wait.map Wait.arg).getD 0)
    ++ (List.range 12).flatMap (fun f => leBytes 1 (Sparse.get 0 t.flags f)) ++ zeroBytes 4 ++ cbtBytes t ++ leBytes 8 t.waitSince
    ++ zeroBytes 40
    ++ (List.range 64).flatMap (fun i => leBytes 4 (Sparse.get 0#32 t.regs.s (sKey .u i)).toNat)
    ++ (List.range 16).flatMap (fun i => maskBytes (Sparse.get 0#1024 t.regs.k (kKey .u i)))
    ++ stackBytes t.stack ++ bankBytes t .s ++ bankBytes t .h
    ++ (List.range vregs).flatMap fun v => (List.range t.lanes).flatMap fun l => leBytes 4 (Sparse.get 0#32 t.regs.v (vKey .u v l)).toNat

/-- Elements of a register file whose chunk of eight, in the order of the record, is poisoned. -/
def chunkPoison (bad : Nat → Bool) (first i : Nat) : Bool := (List.range 8).any fun j => bad (8 * (i - first) + j)

/-- The team record in chunks (R220, R272). -/
def teamChunks (t : Team) (vregs : Nat) : List (List Byte × Bool) :=
  let v0 := vregsAt t.lanes / 32
  poisonedChunks (teamBytes t vregs) fun i =>
    if 4 ≤ i ∧ i < 12 then chunkPoison (fun e => Sparse.get false t.regs.sPoison (sKey .u e)) 4 i
    else if v0 ≤ i then chunkPoison (fun e => Sparse.get false t.regs.vPoison (vKey .u (e / t.lanes) (e % t.lanes))) v0 i
    else false

/-- The fixed part of an image, up to the engine's save area. -/
def imageHead (s : State) (b : Block) (l : Launch) (size : Nat) : List Byte :=
  leBytes 4 0x45560001 ++ leBytes 4 size ++ leBytes 8 l.id.toNat ++ leBytes 4 b.index ++ leBytes 1 b.nteams
    ++ leBytes 1 ((s.core b.core).carve / 128) ++ leBytes 2 (b.size / 2048) ++ leBytes 2 b.accRows ++ leBytes 2 b.lanes
    ++ leBytes 1 b.vregs ++ zeroBytes 3 ++ leBytes 8 s.time ++ zeroBytes 24
    ++ (List.range 64).flatMap (fun n => (b.tile n).bytes) ++ (List.range 16).flatMap fun n => (b.barrier n).bytes

/-- SIZE of a block's image. -/
def imageSize (b : Block) : Nat := 71808 + b.size + 1024 * b.accRows + b.nteams * teamSize b.lanes b.vregs

/-- The accumulator rows of a block in chunks of four elements. -/
def accChunks (s : State) (b : Block) : List (List Byte × Bool) :=
  let c := s.core b.core
  (List.range (32 * b.accRows)).map fun i =>
    let k := fun (j : Nat) => 128 * b.accBase + 4 * i + j
    ((List.range 4).flatMap fun j => leBytes 8 (Sparse.get 0#64 c.acc (k j)).toNat, (List.range 4).any fun j => Sparse.get false c.accPoison (k j))

/-- A block's image (R220). -/
def blockImage (s : State) (bk : Nat) (b : Block) (l : Launch) : List (List Byte × Bool) :=
  chunked (imageHead s b l (imageSize b))
    ++ ((saveArea (s.cluster (clusterOf b.core)) bk).flatMap fun p => poisonedChunks p.1 fun _ => p.2)
    ++ ((List.range (b.size / 32)).map fun i => scratchBytes s b.core (b.base + 32 * i) 32)
    ++ accChunks s b
    ++ (sortByNumber (s.teamsOfBlock bk)).flatMap fun kt => teamChunks kt.2 b.vregs

/-! ### Eviction (R219) -/

/-- The place for an image: the lowest 4 KiB-aligned offset of the spill buffer at which it fits. -/
def imageSpot (i : Instance) (size : Nat) : Option Nat := firstFit (i.spills.map fun x => (x.1, x.2.1)) (i.spillSz * 1048576) size 4096

/-- Write the resident banks of a block's teams back (R90); the team whose bank could not be written, with the cause. -/
def writeBanks (s : State) : List (Nat × Bool) → State × Option (Nat × Nat)
  | [] => (s, none)
  | x :: xs =>
    let r := writeBackBank s x.1 x.2
    match r.2 with
    | some c => (r.1, some (x.1, c.1))
    | none => writeBanks r.1 xs

/-- What the hub keeps of a block that leaves. -/
def evictedRecord (s : State) (bk : Nat) (b : Block) (l : Launch) (pa offset size : Nat) : Evicted :=
  let ts := (sortByNumber (s.teamsOfBlock bk)).map (·.2)
  let by' := fun {α : Type} (f : Team → Option α) => (ts.filterMap fun t => (f t).map fun x => (t.number, x) : Table α)
  let used := s.hub.evicted.foldl (fun n ke => n + ke.2.monEntries.length) 0
  let monitors := by' fun t => match t.wait with
    | some (.monitor _ _ _) => some t.monitor
    | _ => none
  { launch := b.launch, index := b.index, image := pa, bytes := size, core := b.core, base := b.base, offset := offset, evicted := s.time
    ctx := l.ctx, barriers := b.barriers, ready := false, exited := by' fun t => some t.exited, monitors := monitors
    ldclks := by' fun t => some t.ldclk, waits := by' (·.wait), phases := by' fun t => some t.phases
    dues := by' fun t => if t.due.isEmpty then none else some t.due
    banks := by' fun t => some (t.bankS != .unwritten, t.bankH != .unwritten)
    monEntries := (monitors.map (·.1)).take (4096 - used), nextSpur := s.time + 64000, spurious := false, since := none }

/-- The commands of a block that leaves: they are the evicted block's, its teams by their numbers, its allocation in the image; their locks
go with it (log entry 27). -/
def retagCmds (s : State) (bk ek : Nat) (b : Block) : State :=
  let number := fun (k : Nat) => ((s.team k).map (·.number)).getD 0
  let place := fun (p : Place) => match p with
    | .scratch c o => if c = b.core ∧ b.base ≤ o ∧ o < b.base + b.size then Place.saved ek (o - b.base) else .scratch c o
    | p => p
  let mine := s.cmds.filter fun kc => kc.2.block == bk
  let s := dropLocks s b.core (mine.flatMap fun kc => kc.2.locks)
  { s with cmds := s.cmds.map fun kc =>
      if kc.2.block = bk then
        (kc.1, { kc.2 with block := noBlock + 1 + ek, team := number kc.2.team, dst := place kc.2.dst, locks := [] })
      else kc }

/-- An unpublished entry of a block's teams in its core's log. -/
def ofBlock (s : State) (bk tag : Nat) (e : LogEntry) : Bool :=
  e.ctx == tag && !e.pub && e.det.isNone && (s.teamsOfBlock bk).any fun kt => ctxOfTeam kt.1 == e.tctx

/-- The unpublished entries of a block's teams become the block's detached log, in its context's overflow region: they keep their places
and count as spilled, their team contexts as team numbers (R158, R159). -/
def detachLog (s : State) (bk : Nat) (b : Block) (tag ek : Nat) : State :=
  let ts := s.teamsOfBlock bk
  let number := fun (e : LogEntry) => ((ts.find? fun kt => ctxOfTeam kt.1 == e.tctx).map (·.2.number)).getD 0
  let move := fun (e : LogEntry) =>
    if ofBlock s bk tag e then { e with tctx := number e, rgn := false, spl := true, det := some ek } else e
  let c := s.core b.core
  let log := c.log.map move
  writeOverflow (s.setCore b.core { c with log := log }) b.core tag (log.filter fun e => e.det == some ek)

/-- A context's overflow region has room for a block's detached log (R158, R159). -/
def detachRoom (s : State) (bk : Nat) (b : Block) (tag : Nat) : Bool :=
  let c := s.core b.core
  decide (c.spilled tag + (c.log.filter fun e => ofBlock s bk tag e && !e.spl).length ≤ overflowSize)

/-- The banks of a block's teams are written back before it leaves (R90). Where that fails, as a trap entry's write would, the team enters
DOUBLE: none comes back. -/
def leaveBanks (s : State) (bk : Nat) (b : Block) : State × Bool :=
  let keys := (s.teamsOfBlock bk).map (·.1)
  let banks := writeBanks s ((s.core b.core).banks.filter fun x => keys.contains x.1)
  match banks.2 with
  | none => (banks.1, true)
  | some (k, cause) =>
    let s := banks.1.modTeam k fun t => { t with wait := none, waitSince := 0 }
    let xs := match s.team k with
      | some t => [(t.trapSet, LaneTrap.owed cause 0 t.pc false)]
      | none => []
    (enterDouble s k xs ((xs.head?.map (·.1)).getD 0) (((s.team k).map (·.pc)).getD 0) cause, false)

/-- Evict one block whose operations have drained and whose banks lie in memory: engine, image, log, resources (R219). It stays where its
image does not fit or cannot be written. -/
def evictBlock (s : State) (bk : Nat) : Out :=
  match s.block bk with
  | none => .next s
  | some b =>
    match s.launch b.launch with
    | none => .next s
    | some l =>
      match s.instanceOf l with
      | none => .next s
      | some (itag, _) =>
        let s := ((s.core b.core).holds.filter fun x => x.2.block == bk && x.2.exitAt.isNone).foldl (fun s x => fallBack s b.core x.1) s
        let cl := clusterOf b.core
        (drainBlock cl bk 17 s).andThen fun s =>
          let size := imageSize b
          let tag := s.tagOn b.core l.ctx
          match (s.hub.instances.find itag).bind fun i => (imageSpot i size).map fun o => (i, o), s.block bk with
          | some (i, off), some b =>
            let chunks := blockImage s bk b l
            let w := spillWrite b.core l.ctx (chunks.length + 1) s (i.spillVa + off) chunks
            match w.2 && detachRoom w.1 bk b tag, (translateNow w.1 b.core l.ctx (i.spillVa + off) .s .store).2 with
            | true, .ok (pa, _) =>
              let ek := w.1.hub.nextEvict
              let s := detachLog (clearEngine w.1 cl bk) bk b tag ek
              let e := evictedRecord s bk b l pa off size
              let s := s.modHub fun h => { h with
                instances := h.instances.put itag { i with spills := i.spills.put off (size, false) }
                evicted := h.evicted.put ek e, nextEvict := ek + 1 }
              let s := removeBlock (retagCmds s bk ek b) bk
              .next (emit s unitWalker 0 0x301 0 (l.id.toNat % 2 ^ 32 + 2 ^ 32 * b.index))
            | _, _ => .next w.1
          | _, _ => .next s

/-- Evict blocks that leave together: all of them, or none where a bank, an image or a log finds no place (R48, R209, R219). -/
def evictAll (s : State) (ks : List Nat) : Out :=
  let banks := ks.foldl
    (fun (acc : State × Bool) k => if !acc.2 then acc else match acc.1.block k with
      | some b => leaveBanks acc.1 k b
      | none => acc) (s, true)
  let stay := ks.foldl (fun s k => s.modBlock k fun b => { b with leaving := false }) banks.1
  if !banks.2 then .next stay
  else
    (ks.foldl (fun (o : Out) k => o.andThen fun s => evictBlock s k) (.next banks.1)).andThen fun s' =>
      .next (if ks.any fun k => (s'.block k).isSome then stay else s')

/-- The blocks that leave together with a block: all of a `.coresident` or deterministic launch (R209). -/
def evictedTogether (s : State) (bk : Nat) (b : Block) : List Nat :=
  match s.launch b.launch with
  | some l => if l.cores then (s.blocks.filter fun kb => kb.2.launch == b.launch).map (·.1) else [bk]
  | none => [bk]

/-- A block's instance has been stopped. -/
def blockStopped (s : State) (b : Block) : Bool :=
  (((s.launch b.launch).bind s.instanceOf).map fun ti => ti.2.stopped).getD false

/-- `BLOCK_EVICT` (R219). An eviction in hand is given up when a team's wake condition holds or the block can no longer be evicted. -/
def execBlockEvict (block : Nat) (s : State) : Out :=
  match s.block block with
  | none => .next s
  | some b =>
    let ks := evictedTogether s block b
    let bs := ks.filterMap fun k => (s.block k).map fun b => (k, b)
    let stay := fun (s : State) => ks.foldl (fun s k => s.modBlock k fun b => { b with leaving := false }) s
    if !b.leaving && !blockStopped s b then .next s
    else if !bs.all (fun kb => evictable s kb.1 kb.2) then .next (stay s)
    else if !bs.all (fun kb => drainedForEviction s kb.1 kb.2) then .next s
    else if bs.any (fun kb => (s.teamsOfBlock kb.1).any fun kt => teamWakes s kt.1 kt.2) then .next (stay s)
    else (evictAll s ks).andThen fun s => .next (checkStop s)

/-! ### Resumption (R159, R222) -/

/-- Read 32-byte chunks of an image through the tables, at DEVICE scope. -/
def imageChunks (core ctx va : Nat) : Nat → State → State × Option (List (List Byte × Bool))
  | 0, s => (s, some [])
  | n + 1, s =>
    let r := imageChunks core ctx va n s
    match r.2 with
    | none => (r.1, none)
    | some xs =>
      let x := translateNow r.1 core ctx (va + 32 * n) .s .load
      match x.2 with
      | .ok (pa, _) => if whereIs pa = .hbm then (x.1, some (xs ++ [(homeBytes x.1 pa 32, x.1.home.poisoned pa)])) else (x.1, none)
      | .error _ => (x.1, none)

/-- Chunks of an image from an offset on, and their bytes. -/
def chunkSpan (xs : List (List Byte × Bool)) (off n : Nat) : List (List Byte × Bool) := (xs.drop (off / 32)).take (n / 32)
def chunkBytes (xs : List (List Byte × Bool)) : List Byte := xs.flatMap (·.1)

/-- A team as its record has it (R220, R222); what the record does not hold, as the hub kept it, and its stack pointers at the top of
its strides. DESIGN CHOICE (log entry 49): a resumed team counts as having issued when it resumed (R46). -/
def resumedTeam (s : State) (l : Launch) (e : Evicted) (bk : Nat) (b : Block) (tbase : Nat) (xs : List (List Byte × Bool)) : Team :=
  let bs := chunkBytes xs
  let f := fun (o n : Nat) => fieldAt bs o n
  let dpa := kernelDpa s l.kernel
  let number := f 5 1
  let t := Team.fresh bk number (b.lanes / 32) tbase (dpa + imageField s dpa 32 4)
  let kept := fun {α : Type} (m : Table α) => m.find number
  let pois := fun (o : Nat) => ((xs.drop (o / 32)).head?.map (·.2)).getD false
  let v0 := vregsAt b.lanes
  let elems := List.range (b.vregs * b.lanes)
  let regs : Regs :=
    { v := elems.foldl (fun m i => Sparse.set 0#32 m (vKey .u (i / b.lanes) (i % b.lanes)) (BitVec.ofNat 32 (f (v0 + 4 * i) 4))) []
      s := (List.range 64).foldl (fun m i => Sparse.set 0#32 m (sKey .u i) (BitVec.ofNat 32 (f (128 + 4 * i) 4))) []
      k := (List.range 16).foldl (fun m i => Sparse.set 0#1024 m (kKey .u i) (maskAt bs (384 + 128 * i))) []
      kDiff := []
      vPoison := (elems.filter fun i => pois (v0 + 4 * i)).foldl (fun m i => Sparse.set false m (vKey .u (i / b.lanes) (i % b.lanes)) true) []
      sPoison := ((List.range 64).filter fun i => pois (128 + 4 * i)).foldl (fun m i => Sparse.set false m (sKey .u i) true) []
      cbt := (List.range 16).foldl (fun m i => Sparse.set 0#16 m i (BitVec.ofNat 16 (f (48 + 2 * i) 2))) []
      part := BitVec.ofNat 3 (f 20 1), fflags := BitVec.ofNat 5 (f 21 1) }
  let place := fun (w : Option Bool) => if w = some true then BankPlace.inMemory else .unwritten
  let t : Team := { t with
    regs := regs, pc := f 0 4, lclk := f 8 8, sg := BitVec.ofNat 32 (f 16 4), stack := stackAt bs 2432 (min (f 7 1) 32)
    flags := (List.range 12).foldl (fun m i => Sparse.set 0 m i (f (32 + i) 1)) []
    waitSince := f 80 8, ended := f 6 1 % 2 == 1, wait := kept e.waits, exited := (kept e.exited).getD 0
    monitor := (kept e.monitors).getD Monitor.clear, ldclk := (kept e.ldclks).getD 0
    phases := (kept e.phases).getD 0, due := (kept e.dues).getD []
    bankS := place ((kept e.banks).map (·.1)), bankH := place ((kept e.banks).map (·.2)), lastIssue := s.time }
  let t := bankAt (bankAt t .s bs 10880) .h bs (11200 + 32 * b.lanes)
  { t with
    xtsp := BitVec.ofNat 64 (strideBase s t .s + 196608), xhtsp := BitVec.ofNat 64 (strideBase s t .h + 196608) }

/-- The detached entries of an evicted block are appended to a core's ring in their order; their former positions stay names of theirs, so
that marks stay valid (R157, R159). None where the ring finds no room. -/
def reattach (s : State) (ek from' core tag bk : Nat) : Option State :=
  let es := (s.core from').log.filter fun e => e.det == some ek
  let s := s.modCore from' fun c => { c with log := c.log.filter fun e => e.det != some ek }
  es.foldl
    (fun (acc : Option State) e => (acc.bind fun s => makeRoom s core tag overflowReserve).map fun s =>
      let k := (s.teamsOfBlock bk).find? fun kt => kt.2.number == e.tctx
      let c := s.core core
      let r := (c.ctxLogs.find tag).getD ⟨0, 0, 0, 0⟩
      let e' : LogEntry := { e with
        ctx := tag, pos := r.tail, tctx := (k.map fun x => ctxOfTeam x.1).getD 0, spl := false, det := none, past := e.names from' }
      s.setCore core { c with log := c.log ++ [e'], ctxLogs := c.ctxLogs.put tag { r with tail := r.tail + 1 } }) (some s)

/-- The commands of an evicted block are those of the resumed one again. -/
def regainCmds (s : State) (bk ek : Nat) (b : Block) : State :=
  let key := fun (n : Nat) => (((s.teamsOfBlock bk).find? fun kt => kt.2.number == n).map (·.1)).getD 0
  let place := fun (p : Place) => match p with
    | .saved e o => if e = ek then Place.scratch b.core (b.base + o) else .saved e o
    | p => p
  { s with cmds := s.cmds.map fun kc =>
      if kc.2.block = noBlock + 1 + ek then (kc.1, { kc.2 with block := bk, team := key kc.2.team, dst := place kc.2.dst }) else kc }

/-- Resume a block on a core at a spot (R222); nothing when its image cannot be read or its log finds no room in the ring. -/
def resumeAt (s : State) (ek core : Nat) (e : Evicted) (l : Launch) (p : Spot) : Option State :=
  match s.instanceOf l with
  | none => none
  | some (itag, i) =>
    let x := l.shape s
    let read := imageChunks core l.ctx (i.spillVa + e.offset) ((e.bytes + 31) / 32) s
    match read.2 with
    | none => none
    | some xs =>
      let bk := State.blockKey core p.slot
      let s := takeTag (moveRegs read.1 p.moves) core l.ctx p.tag
      let bytes := fun (o n : Nat) => chunkBytes (chunkSpan xs o n)
      let fresh := newBlock s l e.launch core x p e.index false
      let size := teamSize x.lanes x.vregs
      let t0 := 71808 + x.alloc + 1024 * x.accRows
      let recs := (List.range x.teams).map fun n => chunkSpan xs (t0 + n * size) size
      let ended := recs.foldl (fun m r => let h := bytesAt (chunkBytes (r.take 1)) 0 32
        if fieldAt h 6 1 % 2 = 1 then m ||| (1#16 <<< fieldAt h 5 1) else m) 0#16
      let b : Block := { fresh with
        tiles := (List.range 64).foldl (fun m n => let t := Tile.ofBytes (bytes (64 + 32 * n) 32); if t = Tile.none then m else m.put n t) []
        barriers := (List.range 16).map fun n => (n, Barrier.ofBytes (e.barrier n) (bytes (2112 + 64 * n) 64))
        grouped := l.grouping, exited := ended, firstAcq := none }
      let s := clearBlock (s.setBlock bk b) core b.base b.size b.accBase b.accRows
      let s := writePieces s core b.base (chunkSpan xs 71808 b.size)
      let acc := chunkSpan xs (71808 + b.size) (1024 * b.accRows)
      let s := (acc.zipIdx).foldl
        (fun s ci => (List.range 4).foldl
          (fun s j => accWrite s core (128 * b.accBase + 4 * ci.2 + j) (BitVec.ofNat 64 (fieldAt ci.1.1 (8 * j) 8)) ci.1.2) s) s
      let keys := (freeContexts s core).take x.teams
      let s := ((keys.zip p.tbases).zip recs).foldl (fun s kr => s.setTeam kr.1.1 (resumedTeam s l e bk b kr.1.2 kr.2)) s
      let s := takeBlock s bk
      let area := chunkSpan xs 3136 areaSize
      let slotPoison := fun (n : Nat) => (chunkSpan area (64 + slotBytes * n) slotBytes).any (·.2)
      let s := match readArea s bk b (chunkBytes area) slotPoison with
        | some a => restoreEngine s (clusterOf core) bk a
        | none => s
      (reattach s ek e.core core p.tag bk).map fun s =>
      let s := regainCmds s bk ek b
      let s := s.modHub fun h => { h with
        evicted := h.evicted.drop ek, instances := h.instances.update itag fun i => { i with spills := i.spills.drop e.offset } }
      -- a spurious wake ends the waits at `WAITM` (R224)
      let s := if !e.spurious then s
        else keys.foldl
          (fun s k => match s.team k with
            | some t => match t.wait with
              | some (.monitor _ pa sb) =>
                if t.monitor.written then s
                else resumeTeam (emit (endMonitor s k t pa sb 4) unitCore core 0x102 0 (4 + 256 * ctxOfTeam k)) k
              | _ => s
            | none => s) s
      emit s unitWalker 0 0x302 0 (l.id.toNat % 2 ^ 32 + 2 ^ 32 * e.index)

/-- Resume one evicted block on a core, if the core has room for it and its cluster for its reservations. -/
def resumeOn (s : State) (ek core : Nat) : Option State :=
  match s.hub.evicted.find ek with
  | none => none
  | some e =>
    match s.launch e.launch with
    | none => none
    | some l =>
      if !coreOpen s core then none
      else
        match spotOn s core l.ctx (l.shape s) [] none with
        | none => none
        | some p =>
          let n := (s.home.byte (e.image + 3136 + 5)).toNat
          if 16 < (s.cluster (clusterOf core)).table.length + n then none else resumeAt s ek core e l p

/-- Resume every evicted block of a launch at once, core after core (R223). -/
def resumeAll (s : State) : List Nat → List Nat → Nat → Option State
  | [], _, _ => some s
  | _, _, 0 => none
  | _ :: _, [], _ => none
  | ek :: eks, c :: cs, fuel + 1 =>
    match resumeOn s ek c with
    | some s' => resumeAll s' eks (c :: cs) fuel
    | none => resumeAll s (ek :: eks) cs fuel

/-- The next work of a queue through a core: place a record's block, or resume an evicted block. -/
def Work.perform (s : State) (core : Nat) : Work → Option State
  | .place n => placeRecord s core n
  | .resume ek =>
    match (s.hub.evicted.find ek).bind fun e => (s.launch e.launch).map fun l => (e, l) with
    | none => none
    | some (e, l) =>
      if l.cores then
        let eks := (s.hub.evicted.filter fun ke => ke.2.launch == e.launch).map (·.1)
        let cs := coresOf s l.queue
        resumeAll s eks (core :: cs.filter fun c => c != core) (256 + eks.length)
      else resumeOn s ek core

/-- The first work of a list that the core can take. -/
def firstWork (s : State) (core : Nat) : List Work → Option (Work × State)
  | [] => none
  | w :: ws =>
    match w.perform s core with
    | some s' => some (w, s')
    | none => firstWork s core ws

/-- A record with a held handle for a core, whose next block fits there (R200 step 1). -/
def heldWork (s : State) (core : Nat) (ws : List Work) : List Work :=
  ws.filter fun w => match w with
    | .place n => ((s.launch n).bind (holdFor s core)).isSome
    | .resume _ => false

/-- What an offer to a core does: the work it takes and the state after it; a core takes nothing while its carve-out differs from the
deciding record's (R132, R200). -/
def offerCore (s : State) (core : Nat) : Option (Work × State) :=
  let ws := workOf s (s.cluster (clusterOf core)).queue
  if !coreOpen s core then none
  else
    match decides s core ws with
    | none => none
    | some w =>
      if w.carve s ≠ (s.core core).carve then none
      else
        match firstWork s core (heldWork s core ws) with
        | some r => some r
        | none => firstWork s core ws


end Sys2Proof.Machine
end

