-- ==== Sys2Proof/Machine/Edges.lean ====
section
/-! DEFINITION. The edge view (R257): who waits for whom on this device, read from the records that hold it. -/

namespace Sys2Proof.Machine

/-- A node of the wait-for graph: its 16 bytes. -/
def edgeNode (kind device arg id : Nat) : List Byte := leBytes 1 kind ++ zeroBytes 1 ++ leBytes 2 device ++ leBytes 4 arg ++ leBytes 8 id

/-- The nodes of this device. -/
def hereNode (s : State) (kind arg id : Nat) : List Byte := edgeNode kind s.hub.device.toNat arg id

/-- TEAM and BARRIER nodes: their block and number within a launch. -/
def memberNode (s : State) (kind block number : Nat) (launch : BitVec 64) : List Byte :=
  hereNode s kind (block % 65536 * 65536 + number) launch.toNat

def gridNode (s : State) (launch : BitVec 64) : List Byte := hereNode s 6 0 launch.toNat

/-- A CMD node: its device is that of its CID. -/
def cmdNode (cid : Nat) : List Byte := edgeNode 3 (cid / 2 ^ 48) 0 cid

/-- An edge that has lasted since a device time. -/
def edge (s : State) (waiter awaited : List Byte) (since : Nat) : List Byte :=
  waiter ++ awaited ++ leBytes 8 (s.time - since) ++ zeroBytes 8

/-- What a team waits for: its block, number, wait and WAITSINCE, its monitor, whether it is in WAITERS of a register, and whether its
`SPAWN` still waits. -/
def waitEdge (s : State) (l : Launch) (block number since : Nat) (w : Wait) (m : Monitor) (inWaiters : Nat → Bool) (queued : Nat → Bool) :
    List (List Byte) :=
  let me := memberNode s 1 block number l.id
  match w with
  | .barrier n _ _ => if inWaiters n then [edge s me (memberNode s 2 block n l.id) since] else []
  | .grid => if l.gridArr.any fun a => a.1 == gridNumber block number then [edge s me (gridNode s l.id) since] else []
  | .monitor _ _ _ => if m.waiting then [edge s me (hereNode s 5 0 (128 * m.sector)) since] else []
  | .get id => match s.cmd id with
    | some c => [edge s me (cmdNode c.cid.toNat) since]
    | none => []
  | .spawn q => if queued q then [edge s me (hereNode s 7 q 0) since] else []
  | .regroup _ _ _ => []

/-- What a barrier waits for: teams, commands, external arrivals (R172, R173). -/
def barrierEdges (s : State) (l : Launch) (block core nteams n : Nat) (x : Barrier) : List (List Byte) :=
  let me := memberNode s 2 block n l.id
  let here := x.arrt ||| x.exited
  let teams := (List.range nteams).filter fun t => !here.getLsbD t
  (if (List.range 16).countP (fun t => here.getLsbD t) < x.teams
    then teams.map fun t => edge s me (memberNode s 1 block t l.id) x.opened else [])
    ++ (if 0 < x.pend
      then x.oldest.map fun q => edge s me (cmdNode (s.makeCid unitCopy core q).toNat) x.opened else [])
    ++ if 0 < x.ext then [edge s me (hereNode s 4 x.ext.toNat l.id.toNat) x.opened] else []

/-- WAITSINCE of a team of an evicted block, in its image (R220). -/
def savedSince (s : State) (l : Launch) (e : Evicted) (number : Nat) : Nat :=
  let x := l.shape s
  homeNat s (e.image + 71808 + x.alloc + 1024 * x.accRows + number * teamSize x.lanes x.vregs + 80) 8

/-- The earliest WAITSINCE of a grid's teams at `GBAR`, if one stands there. -/
def gridSince (s : State) (n : Nat) (l : Launch) : Option Nat :=
  let at' := fun (block number : Nat) => l.gridArr.any fun a => a.1 == gridNumber block number
  let live := s.teams.filterMap fun kt => match s.blockOf kt.2 with
    | some b => if b.launch = n && kt.2.wait == some .grid && at' b.index kt.2.number then some kt.2.waitSince else none
    | none => none
  let saved := s.hub.evicted.flatMap fun ke =>
    if ke.2.launch = n then ke.2.waits.filterMap fun w =>
      if w.2 == .grid && at' ke.2.index w.1 then some (savedSince s l ke.2 w.1) else none
    else []
  match live ++ saved with
  | [] => none
  | x :: xs => some (xs.foldl min x)

/-- A grid waits for a team that has neither arrived nor ended (R329, R339). -/
def gridEdge (s : State) (l : Launch) (block number : Nat) (since : Option Nat) : List (List Byte) :=
  match since with
  | none => []
  | some t =>
    if (l.gridArr ++ l.gridEnd).any fun a => a.1 == gridNumber block number then []
    else [edge s (gridNode s l.id) (memberNode s 1 block number l.id) t]

/-- Commands whose packets are not acknowledged: of the blocks that a test selects, one edge for each command and destination (R237). -/
def packetEdges (s : State) (mine : Option Nat → Bool) : List (List Byte) :=
  let ps := (s.hub.replay.filter fun kr => mine ((kr.2.cmd.bind s.cmd).map (·.block))).map fun kr =>
    let p := Packet.ofBytes kr.2.bytes
    (p.cid.toNat, p.dst, p.sent)
  let first := fun (c : Nat) => (ps.filter fun p => p.1 == c).foldl (fun (m : Option Nat) p => some (min (m.getD p.2.2) p.2.2)) none
  ((ps.map fun p => (p.1, p.2.1)).eraseDups).map fun p => edge s (cmdNode p.1) (edgeNode 10 p.2 0 0) ((first p.1).getD s.time)

/-- The edges of a resident block. -/
def blockEdges (s : State) (bk : Nat) (b : Block) : List (List Byte) :=
  match s.launch b.launch with
  | none => []
  | some l =>
    let g := gridSince s b.launch l
    ((sortByNumber (s.teamsOfBlock bk)).flatMap fun kt =>
      ((kt.2.wait.map fun w => waitEdge s l b.index kt.2.number kt.2.waitSince w kt.2.monitor
          (fun n => (b.barrier n).waiters.getLsbD kt.2.number)
          fun q => (s.queue q).waiters.any fun w => (s.cmd w.cmd).any fun c => c.team == kt.1 && c.block == bk).getD [])
        ++ gridEdge s l b.index kt.2.number g)
      ++ ((List.range 16).flatMap fun n => barrierEdges s l b.index b.core b.nteams n (b.barrier n))
      ++ packetEdges s fun x => x == some bk

/-- The edges of an evicted block, from what it left behind. -/
def evictedEdges (s : State) (ek : Nat) (e : Evicted) : List (List Byte) :=
  match s.launch e.launch with
  | none => []
  | some l =>
    let x := l.shape s
    let g := gridSince s e.launch l
    ((List.range x.teams).flatMap fun n =>
      (((e.waits.find n).map fun w => waitEdge s l e.index n (savedSince s l e n) w ((e.monitors.find n).getD Monitor.clear)
          (fun i => (e.barrier i).waiters.getLsbD n)
          fun q => (s.queue q).waiters.any fun w => (s.cmd w.cmd).any fun c => c.team == n && c.block == noBlock + 1 + ek).getD [])
        ++ gridEdge s l e.index n g)
      ++ ((List.range 16).flatMap fun n => barrierEdges s l e.index e.core x.teams n (e.barrier n))
      ++ packetEdges s fun x => x == some (noBlock + 1 + ek)

/-- The edges of a combining slot: the ranks it misses, or one unknown rank. -/
def slotEdges (s : State) (n : Nat) (x : Slot) : List (List Byte) :=
  let set := x.collid.toNat + 2 ^ 32 * x.chunk.toNat
  let me := hereNode s 8 n (set + 2 ^ 48 * x.entry.toNat)
  (if x.mapped then x.missing else [0xFFFF]).map fun r => edge s me (edgeNode 9 0xFFFF r set) x.opened

/-- Whose section of a pass a packet of no resident or evicted block falls in: none. -/
def ofNoBlock (s : State) : Option Nat → Bool
  | none => true
  | some b => (s.block b).isNone && !s.hub.evicted.any fun ke => noBlock + 1 + ke.1 == b

/-- The records of a pass: resident cores ascending, evicted blocks, then the hub's own packets and slots, and a record
of KIND 0. -/
def listEdges (s : State) : State :=
  let cores := (List.range 256).flatMap fun c => (s.blocksOfCore c).flatMap fun kb => blockEdges s kb.1 kb.2
  let gone := s.hub.evicted.flatMap fun ke => evictedEdges s ke.1 ke.2
  let slots := packetEdges s (ofNoBlock s) ++ s.hub.slots.flatMap fun ks => slotEdges s ks.1 ks.2
  s.modHub fun h => { h with edges := cores ++ gone ++ slots ++ [zeroBytes 48] }

/-- `EDGE_VIEW_PASS`. -/
def execEdgeViewPass (s : State) : Out := .next (listEdges s)

end Sys2Proof.Machine
end

