-- ==== Sys2Proof/Machine/Fabric.lean ====
section
/-! DEFINITION. The Runner fabric's own steps: packets leave (R233, R235, R237), flits and packets arrive (R226, R228, R234–R238),
answers come back (R237, R238), watchdogs expire (R256). -/

namespace Sys2Proof.Machine

/-! ### Packets leave -/

/-- A packet of a command enters a replay store if its port has room; a device without a route gets none, and the packet counts
as one that is never acknowledged (R227, R237). `after` says what else its leaving does. -/
def sendPacket (s : State) (id : Nat) (p : Packet) (poison : List Nat) (after : State → State) : State :=
  let counted := fun (s : State) => after (s.modCmd id fun c => { c with unacked := c.unacked + 1 })
  match choosePort s p.dst p.cls p.vc with
  | none => counted (enterStore (fabErr s unitPort 0 1 16 p.cid) 16 p (some id) poison)
  | some port => if storeRoom s port (storedSize p.bytes) then counted (enterStore s port p (some id) poison) else s

/-- The header fields that every packet of a command shares. -/
def Cmd.packet (c : Cmd) (s : State) (kind : Nat) : Packet :=
  { Packet.blank s.dev c.dev c.cls c.vc kind c.cid with key := c.key, win := c.win }

/-- The signal of a command: VOID when the command has faulted (R233, R238). -/
def Cmd.signalPacket (c : Cmd) (s : State) : Packet :=
  let cls := if c.kind = .puts then 0 else c.cls
  { c.packet s 2 with
    cls := cls, sigblk := c.signal.toNat % 65536, sigbar := c.signal.toNat / 65536 % 16, void := c.fault.isSome
    oseq := if cls = 0 then (if c.kind = .puts then c.sigOseq else c.oseq) % 2 ^ 32 else 0 }

/-- The signal of a `PUTS` leaves once every data packet has been answered (R233). -/
def trySignal (s : State) (id : Nat) : State :=
  match s.cmd id with
  | none => s
  | some c =>
    if c.kind = .puts && c.localDone && c.unacked == 0 && !c.signalled then
      sendPacket s id (c.signalPacket s) [] fun s => s.modCmd id fun c => { c with signalled := true }
    else settleCmd s id

/-- A data packet of a command with nothing more to read: VOID keeps its place in an ORDERED stream; an UNORDERED one is not sent
(R233). -/
def sendVoid (s : State) (id : Nat) (c : Cmd) (p : Packet) : State :=
  if c.cls ≠ 0 then completeLocal (s.modCmd id fun c => { c with done := List.range c.units }) id
  else
    sendPacket s id { p with void := true } [] fun s =>
      let s := unitDone s id c.done.length
      if c.units ≤ c.done.length + 1 then completeLocal s id else s

/-- The next data packet of a `PUT` or `PUTS` (R233): its bytes are read now; poison or a failed translation stops the data
(R171, R272). -/
def sendData (s : State) (id : Nat) (c : Cmd) : Out :=
  let i := c.done.length
  let n := min 4096 (c.bytes - 4096 * i)
  let p := { c.packet s (if c.kind = .puts then 1 else 0) with
    offset := c.offset + 4096 * i, oseq := if c.cls = 0 then (c.oseq + i) % 2 ^ 32 else 0 }
  if c.fault.isSome then .next (sendVoid s id c p)
  else
    let r := readChunks (s.cmdCore c) c.ctx c.mode s (c.src.plus (4096 * i)) (n / 32)
    match r.2 with
    | .error (.absent pa) => .fault (.noSuchAddress pa)
    | .error (.cause code va st2) =>
      .next (sendVoid (r.1.modCmd id fun c => { c with fault := some (code, va, st2) }) id c p)
    | .ok cs =>
      if cs.any (·.2 != 0#8) then .next (sendVoid (r.1.modCmd id fun c => { c with fault := some (12, c.pc, false) }) id c p)
      else
        .next (trySignal (sendPacket r.1 id { p with payload := cs.flatMap (·.1) } [] fun s =>
          let s := unitDone s id i
          if c.units ≤ i + 1 then completeLocal s id else s) id)

/-- The next response of a served `GET` (R235). -/
def sendResponse (s : State) (id : Nat) (c : Cmd) : State :=
  let i := c.done.length
  let n := min 4096 (c.bytes - 4096 * i)
  let pois := (c.index.filter fun g => decide (128 * i ≤ g ∧ g < 128 * i + 128)).map (· - 128 * i)
  sendPacket s id
    { c.packet s 4 with
      offset := c.offset + 4096 * i, oseq := if c.cls = 0 then (c.oseq + i) % 2 ^ 32 else 0, payload := bytesAt c.payload (4096 * i) n }
    pois fun s =>
      let s := unitDone s id i
      if c.units ≤ i + 1 then s.modCmd id fun c => { c with localDone := true } else s

/-- `PACKET_SEND`: a fabric command puts its next packet in a replay store, if it has one to send and there is room. -/
def execPacketSend (cmd : Nat) (s : State) : Out :=
  match s.cmd cmd with
  | none => .next s
  | some c =>
    let more := !c.localDone && decide (c.done.length < c.units)
    match c.kind with
    | .put => if more then sendData s cmd c else .next (settleCmd s cmd)
    | .puts => if more then sendData s cmd c else .next (trySignal s cmd)
    | .rsig =>
      if more then
        .next (sendPacket s cmd (c.signalPacket s) [] fun s => completeLocal (unitDone s cmd 0) cmd)
      else .next (settleCmd s cmd)
    | .get =>
      if c.signalled || c.fault.isSome then .next s
      else
        .next (sendPacket s cmd
          { c.packet s 3 with offset := c.offset, nsrc := c.bytes / 128, oseq := if c.cls = 0 then c.oseq % 2 ^ 32 else 0 } []
          fun s => s.modCmd cmd fun c => { c with signalled := true })
    | .serve => if more then .next (sendResponse s cmd c) else .next (settleCmd s cmd)
    | .csend =>
      match pumpChunks s with
      | .error pa => .fault (.noSuchAddress pa)
      | .ok s => .next s
    | _ => .next s

/-! ### Packets are performed (R234, R235) -/

/-- A refused packet: the record, the NACK, nothing performed (R238). -/
def refusePacket (s : State) (port : Nat) (p : Packet) (translation : Bool) : State :=
  answer (noteRefusal s unitPort port p translation) port 7 p

/-- A performed packet is marked and acknowledged. -/
def tookPacket (s : State) (port : Nat) (p : Packet) : State := answer (markPerformed s p) port 6 p

/-- A request for `n` bytes is served: what the home slices hold now, in responses of the request's class and channel (R235). -/
def serveGet (s : State) (p : Packet) (ps : List (Nat × Nat)) : State :=
  let r := readWindow s ps
  let units := (128 * p.nsrc + 4095) / 4096
  let c : Cmd :=
    { kind := .serve, word := 0, team := noBlock, block := noBlock, launch := noBlock, ctx := 0, mode := .s, op := none, barrier := none, phase := 0
      cid := p.cid, src := .global 0, dst := .global 0, srcPitch := 0, dstPitch := 0, lineUnits := 1, units := units, done := [], reduce := 0
      scope := 0, index := r.2, tiles := [], fill := false, locks := [], fault := none, poison := false, stamp := none, seq := none
      dev := p.src, win := 0, key := 0, kix := 0, offset := p.offset, cls := p.cls, vc := p.vc, signal := 0, wait := false
      oseq := nextOseq s p.src p.vc, payload := r.1, header := [], unacked := 0, atIssue := 0, releasedReduce := false, pc := 0
      bytes := 128 * p.nsrc, localDone := units == 0, signalled := true, sigOseq := 0 }
  let x := addCmd s c
  let s := if p.cls = 0 then takeOseq x.1 p.src p.vc units else x.1
  settleCmd s x.2

/-- The command that a response answers (R229, R340). -/
def getOf (s : State) (cid : BitVec 64) : Option (Nat × Cmd) := s.cmds.find? fun kc => kc.2.kind == .get && kc.2.cid == cid

/-- Write a response's 128-byte units as a copy's are; whether all were written (R235, R340). -/
def writeResponse (s : State) (id : Nat) (c : Cmd) (first : Nat) (poison : Nat → Bool) (bs : List Byte) : Except Nat (State × Bool) :=
  (List.range (bs.length / 128)).foldl
    (fun acc j =>
      match acc with
      | .error pa => .error pa
      | .ok (s, false) => .ok (s, false)
      | .ok (s, true) =>
        let u := first + j
        match s.cmd id with
        | none => .ok (s, true)
        | some cur =>
          if cur.fault.isSome || cur.done.contains u || decide (c.units ≤ u) then .ok (s, true)
          else
            let chunks := (List.range 4).map fun g => (bytesAt bs (128 * j + 32 * g) 32, if poison (4 * j + g) then 0xFF#8 else 0#8)
            match c.unitDst u with
            | .scratch x o =>
              .ok (unitDone ((chunks.zipIdx).foldl (fun s ci => scratchChunk s x (o + 32 * ci.2) ci.1) s) id u, true)
            | .saved ek o =>
              .ok (unitDone ((chunks.zipIdx).foldl (fun s ci => savedChunk s ek (o + 32 * ci.2) ci.1) s) id u, true)
            | .global va =>
              let d := dstPlace s (s.cmdCore c) c.ctx c.mode va
              match d.2 with
              | .error (.absent pa) => .error pa
              | .error (.cause code va st2) => .ok (d.1.modCmd id fun c => { c with fault := some (code, va, st2) }, true)
              | .ok pa =>
                let w := writeChunks d.1 id cur pa.1 pa.2 chunks
                .ok (if w.2 then unitDone w.1 id u else w.1, w.2))
    (.ok (s, true))

/-- Perform a packet addressed to this device: the state, and whether the packet has been dealt with and its stream may go on. -/
def performPacket (s : State) (port : Nat) (p : Packet) (poison : Nat) : Except Nat (State × Bool) :=
  let s := syncDevice s
  if p.void then .ok (tookPacket s port p, true)
  else
    match p.kind with
    | 4 =>
      match getOf s p.cid with
      | none => .ok (tookPacket s port p, true)
      | some (id, c) =>
        match writeResponse s id c ((p.offset - c.offset) / 128) (fun g => poison.testBit g) p.payload with
        | .error pa => .error pa
        | .ok (s, false) => .ok (s, false)
        | .ok (s, true) =>
          let s := tookPacket s port p
          .ok (if ((s.cmd id).map Cmd.finished).getD false then completeCopy s id else s, true)
    | 3 =>
      match checkWindow s p.win p.key permGet p.offset (128 * p.nsrc) .load with
      | .absent pa => .error pa
      | .refused tr => .ok (refusePacket s port p tr, true)
      | .ok ps _ _ => .ok (serveGet (tookPacket s port p) p ps, true)
    | 2 =>
      match checkWindow s p.win p.key permSignal p.offset 0 .load with
      | .absent pa => .error pa
      | .refused tr => .ok (refusePacket s port p tr, true)
      | .ok _ _ launch =>
        let s := capturePacket s launch p.bytes []
        .ok (tookPacket (deliverArrival s launch p.sigblk p.sigbar p.cid) port p, true)
    | _ =>
      match checkWindow s p.win p.key permPut p.offset p.payload.length .store with
      | .absent pa => .error pa
      | .refused tr => .ok (refusePacket s port p tr, true)
      | .ok ps _ launch =>
        let s := capturePacket (writeWindow s ps p.payload) launch p.bytes p.payload
        .ok (tookPacket s port p, true)

/-- The OSEQ a stream performs next, and its advance. -/
def nextIn (s : State) (p : Packet) : Nat := (s.hub.oseqIn.find (streamKey p.src p.vc)).getD 0
def advanceIn (s : State) (p : Packet) : State :=
  s.modHub fun h => { h with oseqIn := h.oseqIn.put (streamKey p.src p.vc) ((nextIn s p + 1) % 2 ^ 32) }

/-- Packets of a stream held behind a gap that has filled are performed in turn (R234). -/
def drainAhead (src vc : Nat) : Nat → State → Except Nat State
  | 0, s => .ok s
  | fuel + 1, s =>
    let mine := fun (x : Nat × List Byte × Nat) =>
      let p := Packet.ofBytes x.2.1
      p.kind != 5 && p.src == src && p.vc == vc && p.oseq == nextIn s p
    match s.hub.ahead.find? mine with
    | none => .ok s
    | some x =>
      let p := Packet.ofBytes x.2.1
      match performPacket s x.1 p x.2.2 with
      | .error pa => .error pa
      | .ok (s, false) => .ok s
      | .ok (s, true) =>
        drainAhead src vc fuel (advanceIn (s.modHub fun h => { h with ahead := h.ahead.filter fun y => y.2.1 != x.2.1 }) p)

/-- A packet of KIND 0 to 4 arrives at this device: repeats, gaps and order (R234). -/
def receiveDirect (s : State) (port : Nat) (bs : List Byte) (poison : Nat) : Except Nat State :=
  let p := Packet.ofBytes bs
  if wasPerformed s p then .ok (answer s port 6 p)
  else if p.cls ≠ 0 then (performPacket s port p poison).map (·.1)
  else
    let dist := (p.oseq + 2 ^ 32 - nextIn s p) % 2 ^ 32
    if dist = 0 then
      match performPacket s port p poison with
      | .error pa => .error pa
      | .ok (s, false) => .ok s
      | .ok (s, true) => drainAhead p.src p.vc s.hub.ahead.length (advanceIn s p)
    else if dist < 2 ^ 31 then
      if s.hub.ahead.any fun x => (Packet.ofBytes x.2.1).identity == p.identity then .ok s
      else .ok (s.modHub fun h => { h with ahead := h.ahead ++ [(port, bs, poison)] })
    -- a place the stream has passed without performing: it was refused
    else .ok (answer s port 7 p)

/-! ### Answers (R237, R238) -/

/-- The replay entry that an answer names, by the packet's identity; that of a collective packet is the link's on which the answer came
(R234, R241; log entry 31). -/
def answered (s : State) (port : Nat) (p : Packet) : Option (Nat × Replay) :=
  s.hub.replay.find? fun kr =>
    let q := Packet.ofBytes kr.2.bytes
    q.cid == p.cid && q.kind == p.efmt && q.cls == p.nelem && q.offset == p.offset && q.oseq == p.oseq && q.chunk == p.chunk
      && q.rank == p.rank && (q.kind != 5 || kr.2.port == port)

/-- A packet leaves its replay store. -/
def leaveStore (s : State) (n : Nat) (r : Replay) : State :=
  let s := s.modHub fun h => { h with replay := h.replay.drop n }
  match r.cmd with
  | some id => s.modCmd id fun c => { c with unacked := c.unacked - 1 }
  | none => s

/-- An ACK arrives. -/
def receiveAck (s : State) (port : Nat) (p : Packet) : Except Nat State :=
  match answered s port p with
  | none => .ok s
  | some (n, r) =>
    let s := leaveStore s n r
    pumpChunks (match r.cmd with
      | some id => trySignal s id
      | none => s)

/-- A NACK for a command that has completed locally: FAULT in the phase then open, the trap of the issuer and of the phase's
observers; in an evicted block's saved state as in a resident one's (R224, R238). -/
def faultLate (s : State) (c : Cmd) (x : LaneTrap) : State :=
  let n := c.barrier.getD 0
  let flag := fun (b : Barrier) => { b with fault := true, openFlt := b.openFlt ++ [x] }
  if noBlock < c.block then
    let ek := c.block - noBlock - 1
    match s.hub.evicted.find ek with
    | none => s
    | some e => reportFault (saveBarrier s ek n (flag (e.barrier n))) c x
  else
    let s := s.modBlock c.block fun b => b.setBarrier n (flag (b.barrier n))
    tryEnter (reportFault s c x) c.team

/-- A NACK arrives: it completes its packet and faults its command. -/
def receiveNack (s : State) (port : Nat) (p : Packet) (translation : Bool) : State :=
  match answered s port p with
  | none => s
  | some (n, r) =>
    let s := leaveStore s n r
    match r.cmd with
    | none => s
    | some id =>
      let s := s.modCmd id fun c => { c with fault := some (16, c.pc, translation) }
      match s.cmd id with
      | none => s
      | some c =>
        if c.kind = .get then completeCopy s id
        else
          let s := if c.localDone && c.kind != .serve then
              match c.trap with
              | some x => faultLate s c x
              | none => s
            else s
          trySignal s id

/-! ### Arrivals at a port -/

/-- A CONTROL packet of a watchdog is recorded (R256). -/
def receiveControl (s : State) (p : Packet) : State :=
  emit s unitCollective 0 0x006 p.cid (p.collid + 2 ^ 32 * p.chunk + 2 ^ 48 * p.rank)

/-- A packet for another device goes on by its route, or is dropped (R227; log entry 34). -/
def passOn (s : State) (port : Nat) (p : Packet) (bs : List Byte) : State :=
  match choosePort s p.dst p.cls p.vc with
  | none => fabErr s unitPort port 1 port p.cid
  | some out => transmit s out bs none

/-- The hub deals with a whole packet that arrived on a port (R228). `translation` and `poison` are what a NACK and a `GET`
response carry beside their header's fields (log entry 31). -/
def hubPacket (s : State) (port : Nat) (bs : List Byte) (translation : Bool) (poison : Nat) : Out :=
  let p := Packet.ofBytes bs
  let done := fun (r : Except Nat State) => (match r with
    | .error pa => .fault (.noSuchAddress pa)
    | .ok s => .next s : Out)
  if badHeader bs then .next (fabErr s unitPort port 2 port p.cid)
  else if 4096 < p.payload.length then .next (fabErr s unitPort port 8 port p.cid)
  else if p.kind = 5 ∧ p.cls ≠ 2 then done (receiveChunk s port bs)
  else if p.dst ≠ s.dev then .next (passOn s port p bs)
  else if p.kind = 6 then done (receiveAck s port p)
  else if p.kind = 7 then .next (receiveNack s port p translation)
  else if p.cls = 2 then .next (receiveControl s p)
  else done (receiveDirect s port bs poison)

/-- A packet of one kind arrives whole: the event of another kind is not this one. -/
def packetOf (s : State) (port : Nat) (bs : List Byte) (is : Packet → Bool) (act : Out) : Out :=
  if is (Packet.ofBytes bs) && decide (port < 16) then act else .next s

/-- `PUT_DATA_PACKET`. -/
def execPutDataPacket (port : Nat) (packet : List (BitVec 8)) (s : State) : Out :=
  packetOf s port packet (fun p => p.kind == 0 && p.cls != 2) (hubPacket s port packet false 0)

/-- `PUTS_DATA_PACKET`. -/
def execPutsDataPacket (port : Nat) (packet : List (BitVec 8)) (s : State) : Out :=
  packetOf s port packet (fun p => p.kind == 1 && p.cls != 2) (hubPacket s port packet false 0)

/-- `SIGNAL_PACKET`. -/
def execSignalPacket (port : Nat) (packet : List (BitVec 8)) (s : State) : Out :=
  packetOf s port packet (fun p => p.kind == 2 && p.cls != 2) (hubPacket s port packet false 0)

/-- `GET_REQUEST_PACKET`. -/
def execGetRequestPacket (port : Nat) (packet : List (BitVec 8)) (s : State) : Out :=
  packetOf s port packet (fun p => p.kind == 3 && p.cls != 2) (hubPacket s port packet false 0)

/-- `GET_RESPONSE_PACKET`. -/
def execGetResponsePacket (port : Nat) (packet : List (BitVec 8)) (poison : Nat) (s : State) : Out :=
  packetOf s port packet (fun p => p.kind == 4 && p.cls != 2) (hubPacket s port packet false poison)

/-- `COLLECTIVE_CHUNK`. -/
def execCollectiveChunk (port : Nat) (packet : List (BitVec 8)) (s : State) : Out :=
  packetOf s port packet (fun p => p.kind == 5 && p.cls != 2) (hubPacket s port packet false 0)

/-- `ACK_PACKET`. -/
def execAckPacket (port : Nat) (packet : List (BitVec 8)) (s : State) : Out :=
  packetOf s port packet (fun p => p.kind == 6) (hubPacket s port packet false 0)

/-- `NACK_PACKET`. -/
def execNackPacket (port : Nat) (packet : List (BitVec 8)) (translation : Bool) (s : State) : Out :=
  packetOf s port packet (fun p => p.kind == 7) (hubPacket s port packet translation 0)

/-- `CONTROL_PACKET`. -/
def execControlPacket (port : Nat) (packet : List (BitVec 8)) (s : State) : Out :=
  packetOf s port packet (fun p => decide (p.kind ≤ 5) && p.cls == 2) (hubPacket s port packet false 0)

/-! ### Flits (R226) -/

/-- What the far end says of its side of a link: flits it has acknowledged, oldest first, leave the retry buffer, and credit that it gives
back by channel is free again; packets that waited for it go out. -/
def linkNews (s : State) (port acked : Nat) (credits : List Nat) : State :=
  let l := s.link port
  let free := (credits.zipIdx).foldl (fun m x => if x.1 = 0 then m else m.put x.2 (l.credit x.2 + x.1)) l.free
  sendQueued port l.queue.length (s.setLink port { l with retry := l.retry.drop acked, free := free })

/-- `FLIT_RECEIVE`: a flit with a bad CRC is discarded and asked for again, and so is every later one until the replay begins with it; a
good one adds to the packet under way, which is dealt with when it is whole. `acked` and `credits` are what the far end says with it
(log entry 30). -/
def execFlitReceive (port : Nat) (flit : List (BitVec 8)) (crc : BitVec 32) (replay : Bool) (acked : Nat) (credits : List Nat)
    (s : State) : Out :=
  if 16 ≤ port then .next s
  else
    let bs := bytesAt flit 0 64
    if (s.link port).replayWanted && !replay then .next s
    else if crc32 bs ≠ crc then .next (s.setLink port { s.link port with bad := (s.link port).bad + 1, replayWanted := true })
    else
      let s := linkNews s port acked credits
      let l := s.link port
      let got := l.partials ++ bs
      let whole := 128 + (fieldAt got 6 2 + 63) / 64 * 64
      if got.length < 128 ∨ got.length < whole then
        .next (s.setLink port { l with bad := 0, replayWanted := false, partials := got })
      else hubPacket (s.setLink port { l with bad := 0, replayWanted := false, partials := [] }) port (bytesAt got 0 whole) false 0

/-- `LINK_RETRAIN`: after 16 failures of a flit in a row the link retrains; no flit is lost. -/
def execLinkRetrain (port : Nat) (s : State) : Out :=
  let l := s.link port
  if 16 ≤ port ∨ l.bad < 16 then .next s
  else .next (emit (s.setLink port { l with bad := 0 }) unitPort port 0x404 0 port)

/-! ### Time (R237, R256) -/

/-- The port of a transmission after the first: the next of the route-table entry, in rotation; a link's own for a collective
packet (R237, R241). -/
def replayPort (s : State) (r : Replay) : Nat :=
  let p := Packet.ofBytes r.bytes
  if p.kind = 5 then r.port
  else
    let ps := routePorts s p.dst
    match ps.findIdx? fun x => x == r.port with
    | some i => ps.getD ((i + r.tries + 1) % ps.length) r.port
    | none => r.port

/-- `RETRANSMIT`: a packet not acknowledged 50 µs after its last transmission goes out again. -/
def execRetransmit (entry : Nat) (s : State) : Out :=
  match s.hub.replay.find entry with
  | none => .next s
  | some r =>
    let queued := s.hub.links.any fun kl => kl.2.queue.any fun x => x.2 == some entry
    if r.port = 16 ∨ s.time < r.sent + 50000 ∨ queued then .next s
    else
      let port := replayPort s r
      let s := s.modHub fun h => { h with replay := h.replay.put entry { r with sent := s.time, tries := r.tries + 1 } }
      .next (emit (transmit s port r.bytes (some entry)) unitPort port 0x401 r.cid (port + 2 ^ 16 * ((r.tries + 1) % 65536)))

/-- `WATCHDOG`. -/
def execWatchdog (slot : Nat) (s : State) : Out := .next (fireWatchdog s slot)

end Sys2Proof.Machine
end

