-- ==== Sys2Proof/Machine/Governor.lean ====
section
/-! DEFINITION. The walker's clockwork: the gating governor, priority classes, the eviction check, hold times, spurious wakes, lane
maps, the end of a STOP's second (R201, R203, R207, R210, R224, R225, R281). -/

namespace Sys2Proof.Machine

/-! ### The gating governor (R203) -/

/-- Records in a queue: launches, and evicted blocks that have returned to it (R202, R223). -/
def occupancy (s : State) (q : Nat) : Nat := (s.queue q).records.length + (runnable s q).length

/-- Clusters assigned to a queue and not marked to leave it. -/
def clustersOf (s : State) (q : Nat) : List Nat :=
  (List.range 64).filter fun c => (s.cluster c).queue == q && (s.cluster c).moving.isNone

/-- The starved queue with the greatest occupancy, the lower number on ties. -/
def starvedQueue (s : State) : Option Nat :=
  (List.range 64).foldl
    (fun best q =>
      let hi := (s.queue q).hi.toNat
      if hi = 0 ∨ occupancy s q ≤ hi then best
      else
        match best with
        | none => some q
        | some r => if occupancy s r < occupancy s q then some q else best) none

/-- A cluster may be taken from its queue for another. -/
def donates (s : State) (r c : Nat) : Bool :=
  let x := s.cluster c
  let q := s.queue x.queue
  let n := occupancy s x.queue
  ((q.hi != 0 && decide (n < q.lo.toNat)) || n == 0) && x.queue != r && decide (q.mincl < (clustersOf s x.queue).length)
    && x.moving.isNone && (x.movedAt.map fun t => decide (t + 50000 ≤ s.time)).getD true

/-- `GOVERNOR_EVALUATE`. -/
def execGovernorEvaluate (s : State) : Out :=
  match starvedQueue s with
  | none => .next s
  | some r =>
    match (List.range 64).find? (donates s r) with
    | none => .next s
    | some c => .next (s.modCluster c fun x => { x with moving := some r })

/-- `SLICE_BOUNDARY`: a marked cluster whose cores hold no block of its old queue joins the new one. -/
def execSliceBoundary (cluster : Nat) (s : State) : Out :=
  let x := s.cluster cluster
  match x.moving with
  | none => .next s
  | some r =>
    let old := fun (kb : Nat × Block) => clusterOf kb.2.core == cluster && ((s.launch kb.2.launch).map (·.queue)) == some x.queue
    if s.blocks.any old then .next s
    else
      let s' := s.modCluster cluster fun x => { x with queue := r, moving := none, movedAt := some s.time }
      let s' := offerCores s' ((List.range 4).map (4 * cluster + ·))
      .next (emit s' unitWalker 0 0x303 0
        (cluster + 2 ^ 8 * x.queue + 2 ^ 16 * r + 2 ^ 22 * (occupancy s x.queue % 2 ^ 20) + 2 ^ 42 * (occupancy s r % 2 ^ 20)))

/-! ### Priority classes (R201) -/

/-- `CLASS_UPDATE`. -/
def execClassUpdate (s : State) : Out :=
  .next { s with launches := s.launches.map fun kl => (kl.1, { kl.2 with cls := slackClass s.time kl.2 }) }

/-! ### The eviction check (R210) -/

/-- Blocks in the order in which the check evicts them: the latest deadline first. -/
def insertLatest (x : Nat × Nat) : List (Nat × Nat) → List (Nat × Nat)
  | [] => [x]
  | y :: ys => if y.1 < x.1 then x :: y :: ys else y :: insertLatest x ys

/-- A block may be evicted for the check: it and those that leave with it are evictable, and their images find room (R48, R209, R219). -/
def mayEvict (s : State) (bk : Nat) (b : Block) : Bool :=
  (evictedTogether s bk b).all fun k =>
    match s.block k with
    | none => false
    | some x =>
      evictable s k x && !x.leaving
        && (((s.launch x.launch).bind s.instanceOf).bind fun ti => imageSpot ti.2 (imageSize x)).isSome

/-- The blocks of a core that the check may evict for a deadline, the latest first. -/
def evictionOrder (s : State) (core deadline : Nat) : List Nat :=
  let xs := (s.blocksOfCore core).filterMap fun kb =>
    match s.launch kb.2.launch with
    | none => none
    | some l => if mayEvict s kb.1 kb.2 && decide (deadline < l.deadline.toNat) then some (l.deadline.toNat, kb.1) else none
  (xs.foldl (fun ys x => insertLatest x ys) []).map (·.2)

/-- Blocks with those that leave with them (R209). -/
def leavingWith (s : State) (ks : List Nat) : List Nat :=
  ks.foldl (fun xs k => match s.block k with
    | some b => xs ++ (evictedTogether s k b).filter fun y => !xs.contains y
    | none => xs) []

/-- The device as it will be once some blocks have left, to see what fits then. -/
def State.without (s : State) (ks : List Nat) : State :=
  { s with blocks := s.blocks.filter fun kb => !ks.contains kb.1, teams := s.teams.filter fun kt => !ks.contains kt.2.block }

/-- The blocks that are already leaving. -/
def leavingBlocks (s : State) : List Nat := (s.blocks.filter fun kb => kb.2.leaving).map (·.1)

/-- The fewest of the blocks, in their order, without which a core can take a piece of work. -/
def evictionSet (s : State) (core : Nat) (w : Work) (order : List Nat) : Option (List Nat) :=
  ((List.range (order.length + 1)).find? fun i =>
    (w.perform (s.without (leavingBlocks s ++ leavingWith s (order.take i))) core).isSome).map fun i => leavingWith s (order.take i)

/-- A piece of work has had no core for 50 µs (R210): since when its record, or the evicted block's, has been in the queue. -/
def Work.waits (s : State) (w : Work) : Bool :=
  let since : Option Nat := match w with
    | .place n => (s.launch n).map fun l => l.readyAt
    | .resume k => (s.hub.evicted.find k).bind fun e => e.since
  (since.map fun t => decide (t + 50000 ≤ s.time)).getD false

/-- The records the check serves (log entry 38): those of class 3 that have waited 50 µs, with their queues. -/
def starvingRecords (s : State) : List (Nat × Work) :=
  (List.range 64).flatMap fun q =>
    ((workOf s q).filter fun w => w.waits s && decide ((w.launch s).map (slackClass s.time) = some 3)).map fun w => (q, w)

/-- The core that evicts for a piece of work, with the blocks: none where some core has room, or will have it once what leaves has gone. -/
def evictionFor (s : State) (q : Nat) (w : Work) : Option (List Nat) :=
  let deadline := ((w.launch s).map (·.deadline.toNat)).getD 0
  let found := (coresOf s q).filterMap fun c => evictionSet s c w (evictionOrder s c deadline)
  if found.any (·.isEmpty) then none else found.head?

/-- The check of R210, at an offer and every 50 µs: the blocks chosen start no run, and leave by `BLOCK_EVICT`. -/
def checkEviction (s : State) : State :=
  (starvingRecords s).foldl
    (fun s x => match evictionFor s x.1 x.2 with
      | some ks => ks.foldl (fun s k => s.modBlock k fun b => { b with leaving := true }) s
      | none => s) s

/-- `EVICTION_CHECK`. -/
def execEvictionCheck (s : State) : Out := .next (checkEviction (raiseRunnable (syncDevice s)))

/-! ### Offers (R200) -/

/-- The walker is ready to serve offers: evicted blocks that may run again are back in their queues, and launches whose handles were lost
are gone (R207, R210). -/
def readyOffers (s : State) : State := raiseRunnable (killDoomed (syncDevice s))

/-- An offer has been served. -/
def tookOffer (s : State) : State := s.modHub fun h => { h with offers := h.offers.drop 1 }

/-- `CORE_OFFER` (R200): the offer that arrived first is served, when it is this core's; then the check of R210. -/
def execCoreOffer (core : Nat) (s : State) : Out :=
  let s := readyOffers s
  if s.hub.offers.head? ≠ some core then .next s
  else
    let s := tookOffer s
    .next (checkEviction (((offerCore s core).map (·.2)).getD s))

/-- `BLOCK_RESUME` (R222): an evicted block resumes on a core when the offer to that core, whose turn it is, takes it. -/
def execBlockResume (image core : Nat) (s : State) : Out :=
  let s := readyOffers s
  .next (match offerCore (tookOffer s) core with
    | some (.resume ek, s') => if ek = image ∧ s.hub.offers.head? = some core then checkEviction s' else s
    | _ => s)

/-! ### Holds, spurious wakes, lane maps -/

/-- `FALLBACK` (R207): a hold whose issuing block exited a hold time ago. -/
def execFallback (core hold : Nat) (s : State) : Out :=
  match ((s.core core).holds.find hold).bind (·.exitAt) with
  | none => .next s
  | some t => .next (if t + s.hub.holdTime ≤ s.time then fallBack s core hold else s)

/-- `MONITOR_SPURIOUS_WAKE` (R224). -/
def execMonitorSpuriousWake (image : Nat) (s : State) : Out :=
  match s.hub.evicted.find image with
  | none => .next s
  | some e =>
    if (e.monitors.all fun m => e.monEntries.contains m.1) || decide (s.time < e.nextSpur) then .next s
    else .next (s.modHub fun h => { h with evicted := h.evicted.put image { e with spurious := true, nextSpur := e.nextSpur + 64000 } })

/-- `LANEMAP_APPLY` (R281): the waiting value takes effect while no block is resident. -/
def execLanemapApply (core : Nat) (s : State) : Out :=
  match (s.core core).newmap with
  | none => .next s
  | some v =>
    .next (if (s.blocksOfCore core).isEmpty then offerCores (s.modCore core fun c => { c with lanemap := v, newmap := none }) [core] else s)

/-- A block still resident a second after a STOP is killed, with a failure record (R225). Its launch keeps its other blocks' images and does
not end: a stopped instance keeps its counts. -/
def forceOut (s : State) (bk : Nat) (b : Block) : State :=
  match s.launch b.launch with
  | none => removeBlock s bk
  | some l =>
    let s := if l.failure.isSome then s
      else emit (s.setLaunch b.launch { l with failure := some .stopForced }) unitWalker 0 0x002 0 l.id.toNat
    removeBlock s bk

/-- `STOP_TIMEOUT` (R225): a second after a STOP its instance's resident blocks are killed. -/
def execStopTimeout (tag : Nat) (s : State) : Out :=
  match s.hub.instances.find tag with
  | none => .next s
  | some i =>
    let late := i.stopping.filter fun x => decide (x.1 + 1000000000 ≤ s.time)
    let bs := residentBlocks s tag i
    if late.isEmpty then .next s
    else if bs.isEmpty then .next (checkStop s)
    else
      let s := bs.foldl (fun s kb => forceOut s kb.1 kb.2) s
      let s := s.modHub fun h => { h with instances := h.instances.update tag fun i => { i with
        stopping := i.stopping.filter fun x => !late.contains x } }
      .next (checkStop (late.foldl (fun s x => completeCommand s x.2 .forced [] 0) s))

end Sys2Proof.Machine
end

