-- ==== Sys2Proof/Machine/Images.lean ====
section
/-! DEFINITION. What `LOAD` demands of an image, and what `START` demands of a graph (R26, R38, R48, R70, R77, R95, R194–R196,
R202). -/

namespace Sys2Proof.Machine

/-- The signature of bytes verifies under a registered key (R26). A cleared entry is no key. -/
def signedByKey (s : State) (img : List Byte) : Bool :=
  s.module.imageKeys.any fun k => Config.slhVerify k.2 (signedPart img) (signaturePart img)

/-- A field of an image that has not been placed. -/
abbrev Bytes := List Byte
def Bytes.f (b : Bytes) (off n : Nat) : Nat := fieldAt b off n

/-- Spans do not overlap. -/
def disjointSpans : List (Nat × Nat) → Bool
  | [] => true
  | x :: xs => xs.all (fun y => decide (x.1 + x.2 ≤ y.1 ∨ y.1 + y.2 ≤ x.1)) && disjointSpans xs

/-- Numbers rise. -/
def rising : List Nat → Bool
  | x :: y :: xs => decide (x < y) && rising (y :: xs)
  | _ => true

/-- The sections of a kernel image: offset and bytes (R77). -/
def imageSections (b : Bytes) : List (Nat × Nat) :=
  [(b.f 32 4, b.f 36 4), (b.f 40 4, 4 * b.f 44 4), (b.f 48 4, b.f 52 4), (b.f 56 4, 4 * b.f 60 4), (b.f 64 4, b.f 68 4)].filter
    fun x => x.2 != 0

/-- The words of a span. -/
def imageWords (b : Bytes) (off n : Nat) : List Nat := (List.range n).map fun i => b.f (off + 4 * i) 4

/-- The layout of R77: header fields in their ranges, sections apart from each other and the header and within SIZE. DESIGN CHOICE (log entry
45): an image that breaks any of it, its MAGIC and the order of its region numbers included, is refused with SHAPE. -/
def layoutOk (b : Bytes) : Bool :=
  let size := b.f 4 4
  let ss := imageSections b
  b.f 0 4 == 0x4B520001 && size + signatureSize == b.length && size % 64 == 0 && (b.f 8 1 == 1 || b.f 8 1 == 3)
    && decide (b.f 9 1 < 4) && [0, 1, 2, 4].contains (b.f 14 1) && (decide (b.f 15 1 < 64) || b.f 15 1 == 255)
    && ss.all (fun x => decide (x.1 % 64 = 0 ∧ 256 ≤ x.1 ∧ x.1 + x.2 ≤ size)) && disjointSpans ss
    && b.f 36 4 % 12 == 0 && decide (12 ≤ b.f 36 4 ∧ b.f 36 4 ≤ 2 ^ 24) && decide (b.f 44 4 ≤ 1024) && decide (b.f 60 4 ≤ 4096)
    && rising (imageWords b (b.f 56 4) (b.f 60 4))
    && (bytesAt b 72 56).all (· == 0#8) && (bytesAt b 160 96).all (· == 0#8)

/-- The launch shape of R38. -/
def shapeOk (b : Bytes) : Bool :=
  let lanes := b.f 10 2
  let teams := b.f 12 1
  let vregs := b.f 13 1
  let regroups := (imageWords b (b.f 32 4) (b.f 36 4 / 4)).any isRegrp || (imageWords b (b.f 40 4) (b.f 44 4)).any isRegrp
  lanes % 32 == 0 && decide (32 ≤ lanes ∧ lanes ≤ 1024) && decide (1 ≤ teams ∧ teams ≤ 16) && vregs % 8 == 0
    && decide (8 ≤ vregs ∧ vregs ≤ 120) && (!regroups || decide (teams ≤ 4))

/-- The fixed fields of a handler image (R95). -/
def handlerOk (b : Bytes) : Bool :=
  b.f 9 1 == 0 && b.f 10 2 == 0 && b.f 12 1 == 0 && b.f 13 1 == 0 && b.f 14 1 == 0 && b.f 15 1 == 255 && b.f 44 4 == 0 && b.f 60 4 == 0
    && b.f 16 8 == 2 ^ 64 - 1 && b.f 24 8 == 2 ^ 64 - 1

/-- A word may be a dictionary entry (R70). -/
def entryOk (w : Nat) : Bool :=
  majorOf w != 0 && !isDictWord w && itemOk .u 120 ⟨⟨w % 2147483648, 0, false⟩, 0, false, false⟩

/-- Why a kernel or handler image of a KIND is refused: a reason, or nothing. -/
def kernelRefusal (b : Bytes) (kind : Nat) : Option Nat :=
  if !layoutOk b || b.f 8 1 != kind then some reasonShape
  else if kind = 3 then (if handlerOk b then none else some reasonShape)
  else if !shapeOk b then some reasonShape
  else if !(imageWords b (b.f 40 4) (b.f 44 4)).all entryOk then some reasonDictBad
  else none

/-! ### Graph images (R194, R195, R202) -/

/-- A power of two from one to another. -/
def powerOfTwoIn (lo hi n : Nat) : Bool := decide (lo ≤ n ∧ n ≤ hi) && (List.range 17).any fun i => 2 ^ i == n

/-- Where the successors and the queue records of a graph image begin. -/
def succsAt (nodes : Nat) : Nat := 64 + 64 * nodes
def queuesAt (nodes succs : Nat) : Nat := succsAt nodes + 2 * succs

/-- A template keeps R195, names a loaded kernel, and its blocks fit an idle core (R38, R39). -/
def templateOk (s : State) (b : Bytes) (succs o : Nat) : Bool :=
  let f := fun (x n : Nat) => b.f (o + x) n
  let kernel := f 0 4
  let stage := f 13 1
  ((s.image kernel).map fun i => i.kind == 1).getD false
    && decide (1 ≤ f 4 4 ∧ f 4 4 ≤ 65536) && decide (1 ≤ f 8 2 ∧ f 8 2 ≤ 512) && decide (f 10 2 ≤ 512) && f 10 2 % 32 == 0
    && decide (f 12 1 ≤ 3) && stage / 64 % 2 == 0 && (stage / 128 == 1 || decide (stage < 64)) && decide (f 14 1 < 4) && f 15 1 == 0
    && decide (f 16 4 ≤ 65535) && decide (f 20 2 ≤ 64) && decide (f 20 2 = 0 ∨ f 22 2 + f 20 2 ≤ succs) && f 40 8 % 64 == 0
    && (bytesAt b (o + 48) 16).all (· == 0#8) && (shapeOf s kernel (f 8 2) (f 10 2)).fitsIdle

/-- A queue record keeps R202. -/
def queueRecordOk (b : Bytes) (o : Nat) : Bool :=
  let f := fun (x n : Nat) => b.f (o + x) n
  decide (f 0 1 ≤ 63) && decide (f 1 1 ≤ 64) && f 2 2 == 0 && powerOfTwoIn 64 65536 (f 4 4) && f 8 8 % 64 == 0
    && decide (f 8 8 + 64 * f 4 4 ≤ hbmTop) && decide (f 24 1 ≤ 64) && (bytesAt b (o + 25) 7).all (· == 0#8)

/-- Why a graph image is refused. -/
def graphRefusal (s : State) (img : Bytes) : Option Nat :=
  let b : Bytes := signedPart img
  let nodes := b.f 4 2
  let succs := b.f 6 2
  let queues := b.f 20 4
  let whole := queuesAt nodes succs + 32 * queues
  if b.f 0 4 == 0x47520001 && decide (1 ≤ nodes ∧ nodes ≤ 4096) && b.f 8 8 % 2097152 == 0 && decide (b.f 16 4 ≤ 4096)
      && decide (queues ≤ 64) && (bytesAt b 24 40).all (· == 0#8) && decide (whole ≤ b.length)
      && (List.range nodes).all (fun i => templateOk s b succs (64 + 64 * i))
      && (List.range succs).all (fun i => decide (b.f (succsAt nodes + 2 * i) 2 < nodes))
      && (List.range queues).all (fun i => queueRecordOk b (queuesAt nodes succs + 32 * i)) then none
  else some reasonGraph

/-! ### What START asks (R48, R196, R202) -/

/-- The queue records of a graph image: queue number and the 32 bytes. -/
def queueRecords (s : State) (dpa : Nat) : List (Nat × List Byte) :=
  let base := queuesAt (graphNodes s dpa) (imageField s dpa 6 2)
  (List.range (imageField s dpa 20 4)).map fun i =>
    let bs := homeBytes s (dpa + base + 32 * i) 32
    (fieldAt bs 0 1, bs)

/-- Another running instance gives a queue a different record (R202). -/
def queuesConflict (s : State) (dpa : Nat) : Bool :=
  let mine := queueRecords s dpa
  s.hub.instances.any fun ki =>
    ki.2.running && match s.image ki.2.graph with
      | some i => (queueRecords s i.dpa).any fun x => mine.any fun y => x.1 == y.1 && x.2 != y.2
      | none => false

/-- Blocks of a shape that an idle core holds at once (R39, R130, R177). -/
def Shape.perCore (x : Shape) : Nat :=
  if !x.fitsIdle then 0
  else
    let acc := if x.accRows = 0 then 4 else 512 / x.accRows
    let regs := if x.regBytes = 0 then 4 else 524288 / x.regBytes
    min (min 4 (if x.ctxs = 0 then 4 else 16 / x.ctxs)) (min (min regs acc) (if x.alloc = 0 then 4 else (1048576 - 1024 * x.carve) / x.alloc))

/-- Every block of a `.coresident` or deterministic node fits an idle device together (R48, R260); grouped blocks lie four to a
cluster (R40). -/
def nodeFits (s : State) (dpa node : Nat) : Bool :=
  let kernel := nodeField s dpa node 0 4
  let n := nodeField s dpa node 4 4
  let x := shapeOf s kernel (nodeField s dpa node 8 2) (nodeField s dpa node 10 2)
  if imageField s (kernelDpa s kernel) 9 1 % 4 = 0 then true
  else if nodeField s dpa node 14 1 % 2 = 1 then decide ((n + 3) / 4 ≤ 64 * x.perCore)
  else decide (n ≤ 256 * x.perCore)

end Sys2Proof.Machine
end

