-- ==== Sys2Proof/Machine/HostCmds.lean ====
section
/-! DEFINITION. What the host commands LOAD, START, SIGNAL and SETSEED ask and do, the commands STOP and QUERY, which execute on acceptance,
and records that are no command (R16–R24, R26, R35, R36, R125, R196, R202, R203, R225, R251, R269). -/

namespace Sys2Proof.Machine

/-! ### What is common (R17–R21) -/

/-- A checkpoint is being written or read: the LOADs, STARTs, SIGNALs, SETSEEDs, CKPTs and RESTOREs accepted meanwhile await their turn
(R17). -/
def checkpointing (s : State) : Bool :=
  s.module.pending.any fun p => p.started && (cmdCode p.bytes == 6 || cmdCode p.bytes == 7)

/-- The zero fields of a record: bytes 1, 7:4 and 59:56, INSTANCE where the command has none, and every byte of ARGS outside the
fields it uses, given as offset and length (R19, R21). -/
def zeroFields (r : List Byte) (tagged : Bool) (used : List (Nat × Nat)) : Bool :=
  zeroAt r 1 1 && zeroAt r 4 4 && zeroAt r 56 4 && (tagged || zeroAt r 2 2)
    && (List.range 40).all fun i =>
      r.getD (16 + i) 0#8 == 0#8 || used.any fun u => decide (u.1 ≤ 16 + i ∧ 16 + i < u.1 + u.2)

/-- The next record, when it is a command of a code (R18, R19). -/
def commandOf (s : State) (code : Nat) (pick : List Byte → Bool) : Option (List Byte) :=
  match nextRecord s with
  | none => none
  | some r => if cmdCrcOk r && cmdCode r == code && pick r then some r else none

/-- The reason of a refusal in recovery, for which the manual names none (R29; log entry 41). -/
def recoveryReason (s : State) : Nat := (Config.freeWord s.tick 41).toNat % 65536

/-- `BADCMD` (R19): a bad CRC or an unknown code. -/
def execBadcmd (s : State) : Out :=
  match nextRecord s with
  | none => .next s
  | some r =>
    if cmdCrcOk r && decide (1 ≤ cmdCode r ∧ cmdCode r ≤ 9) then .next s else .next (refuseCommand s r .badcmd reasonNone)

/-! ### LOAD (R21, R26) -/

/-- The operands of LOAD are as R21 has them, and the table has a free handle (R26). -/
def loadArgsOk (s : State) (r : List Byte) : Bool :=
  let kind := fieldAt r 28 1
  let dpa := fieldAt r 32 8
  let len := fieldAt r 24 4
  zeroFields r false ([(16, 8), (24, 4), (28, 1), (32, 8)] ++ if kind = 1 then [(30, 2), (40, 8)] else [])
    && decide (1 ≤ kind ∧ kind ≤ 3) && fieldAt r 16 8 % 64 == 0 && decide (signatureSize ≤ len) && dpa % 65536 == 0
    && decide (dpa + len ≤ hbmTop) && s.hub.images.all (fun x => decide (dpa + len ≤ x.2.dpa ∨ x.2.dpa + x.2.size ≤ dpa))
    && decide (s.hub.images.length < 4096)

/-- What a LOAD is refused for, or the image it carries and its handle (R26). -/
def loadContent (s : State) (r : List Byte) : Except Nat Queued :=
  let kind := fieldAt r 28 1
  let img := hostBytes s (fieldAt r 16 8) (fieldAt r 24 4)
  if !signedByKey s img then .error reasonSignature
  else
    match if kind = 2 then graphRefusal s img else kernelRefusal img kind with
    | some reason => .error reason
    | none => .ok ⟨img, s.hub.images.freshFrom 0 4096, none⟩

/-- LOAD copies its image to DPA, where its handle names it. -/
def placeImage (s : State) (r : List Byte) (q : Queued) : State :=
  (homeWrite s (fieldAt r 32 8) q.image false).modHub fun h => { h with
    images := h.images.put q.handle
      { kind := fieldAt r 28 1, dpa := fieldAt r 32 8, size := fieldAt r 24 4, ctx := fieldAt r 30 2, datava := BitVec.ofNat 64 (fieldAt r 40 8) } }

/-- The digest of an accepted image extends MEAS4, that of a graph MEAS5 (R35). -/
def measureImage (s : State) (r : List Byte) (q : Queued) : State :=
  extendMeasurement s (if fieldAt r 28 1 = 2 then 5 else 4) (sha256 (signedPart q.image))

/-! ### START (R196, R202, R203) -/

/-- Set a queue by its record; the slice records still in it go to the ring it names (R202; log entry 28). -/
def setQueueRecord (s : State) (bs : List Byte) : State :=
  let q := fieldAt bs 0 1
  let s := s.setQueue q { s.queue q with
    mincl := fieldAt bs 1 1, size := fieldAt bs 4 4, base := some (fieldAt bs 8 8), lo := BitVec.ofNat 32 (fieldAt bs 16 4)
    hi := BitVec.ofNat 32 (fieldAt bs 20 4) }
  (s.queue q).records.foldl (fun s n => writeSlice s n 0 64) s

/-- Queue records in ascending order of their queues. -/
def insertQueue (x : Nat × List Byte) : List (Nat × List Byte) → List (Nat × List Byte)
  | [] => [x]
  | y :: ys => if x.1 ≤ y.1 then x :: y :: ys else y :: insertQueue x ys

/-- Assign clusters to the listed queues, INITCL to each, in ascending order (R203). -/
def assignClusters (s : State) (qs : List (Nat × List Byte)) : State :=
  let plan := (qs.foldl (fun xs x => insertQueue x xs) []).flatMap fun x => List.replicate (fieldAt x.2 24 1) x.1
  ((plan.take 64).zipIdx).foldl (fun s qc => s.modCluster qc.2 fun c => { c with queue := qc.1, moving := none }) s

/-- The first START after reset gives every queue that no record names its first setting (R202). -/
def firstSettings (s : State) : State :=
  if s.hub.started then s else s.modHub fun h => { h with started := true, queues := [] }

/-- The instance that a START makes (R196). -/
def newInstance (s : State) (tag graph ctx dpa : Nat) : Instance :=
  { tag := tag, graph := graph, ctx := ctx, seed := (s.context ctx).xseed, start := s.time
    counts := (List.range (graphNodes s dpa)).foldl (fun m i => m.put i (nodeField s dpa i 16 4)) []
    stopped := false, stopping := [], running := true, spillVa := imageField s dpa 8 8, spillSz := imageField s dpa 16 4, spills := [] }

/-- The operands of START: GRAPH names a loaded graph. -/
def startArgsOk (s : State) (r : List Byte) : Bool :=
  zeroFields r true [(16, 4), (20, 2)] && ((s.image (fieldAt r 16 4)).map fun i => i.kind == 2).getD false

/-- Where the graph of a START lies. -/
def startDpa (s : State) (r : List Byte) : Nat := ((s.image (fieldAt r 16 4)).map (·.dpa)).getD 0

/-- What a START is refused for, or the instance it makes. -/
def startContent (s : State) (r : List Byte) : Except Nat Queued :=
  let dpa := startDpa s r
  if ((s.hub.instances.find (cmdInstance r)).map (·.running)).getD false then .error reasonBusy
  else if queuesConflict s dpa then .error reasonConflict
  else if !(List.range (graphNodes s dpa)).all (nodeFits s dpa) then .error reasonNofit
  else .ok ⟨[], 0, some (newInstance s (cmdInstance r) (fieldAt r 16 4) (fieldAt r 20 2) dpa)⟩

/-- START sets its queues and clusters, and its nodes without predecessors are ready; its start time is now (R196, R198, R202, R203). -/
def startGraph (s : State) (r : List Byte) (inst : Instance) : State :=
  let dpa := startDpa s r
  let inst := { inst with start := s.time }
  let s := { s with launches := s.launches.filter fun kl => kl.2.tag != inst.tag || !kl.2.ended }
  let s := (firstSettings s).modHub fun h => { h with instances := h.instances.put inst.tag inst }
  let qs := queueRecords s dpa
  let s := assignClusters (qs.foldl (fun s x => setQueueRecord s x.2) s) qs
  let ready := (List.range (graphNodes s dpa)).filter fun i => nodeField s dpa i 16 4 == 0
  let s := ready.foldl (fun s i => readyNode s inst i) s
  checkInstanceEnd (offerCores (pumpWalker s) (List.range 256)) inst.tag

/-! ### SIGNAL (R22), STOP (R225), SETSEED (R125) -/

/-- The operands of a SIGNAL, by KIND. -/
def signalArgsOk (r : List Byte) : Bool :=
  if fieldAt r 16 1 = 1 then
    zeroFields r false [(16, 1), (32, 8), (40, 4)] && fieldAt r 32 8 % 4 == 0 && decide (fieldAt r 32 8 + 4 ≤ hbmTop)
  else fieldAt r 16 1 == 0 && zeroFields r true [(20, 2), (22, 4), (26, 4), (30, 1)] && decide (fieldAt r 30 1 ≤ 15)

/-- SIGNAL writes a word, or makes an external arrival. -/
def signalNow (s : State) (r : List Byte) : State :=
  if fieldAt r 16 1 = 1 then homeWrite s (fieldAt r 32 8) (bytesAt r 40 4) false
  else deliverArrival s (launchId (cmdInstance r) (fieldAt r 20 2) (fieldAt r 22 4)) (fieldAt r 26 4) (fieldAt r 30 1) 0

/-- SETSEED writes XSEED. -/
def seedContext (s : State) (r : List Byte) : State :=
  s.modContext (fieldAt r 16 2) fun c => { c with xseed := BitVec.ofNat 64 (fieldAt r 24 8) }

/-- Stop an instance: nothing more of it is placed, and its blocks leave as they become evictable (R225). -/
def stopInstance (s : State) (tag seq : Nat) : State :=
  s.modHub fun h => { h with instances := h.instances.update tag fun i =>
    { i with stopped := true, stopping := i.stopping ++ [(s.time, seq)] } }

/-- `STOP`, which executes on acceptance. A tag with no running instance has no block to wait for. -/
def execStop (s : State) : Out :=
  match commandOf s 4 fun _ => true with
  | none => .next s
  | some r =>
    if s.module.recovery then .next (refuseCommand s r .refused (recoveryReason s))
    else if !zeroFields r true [] then .next (refuseCommand s r .refused reasonArgs)
    else
      let x := acceptCommand s r []
      if ((x.1.hub.instances.find (cmdInstance r)).map (·.running)).getD false then .next (checkStop (stopInstance x.1 (cmdInstance r) x.2))
      else .next (completeCommand x.1 x.2 .done [] 0)

/-! ### QUERY (R24) -/

/-- The first eight bytes of IDENT and ATTEST (R1, R24). -/
def versionBytes : List Byte :=
  leBytes 2 0x0960 ++ leBytes 2 0x00B0 ++ leBytes 2 0x0100 ++ [BitVec.ofNat 8 Config.firmwareMajor, Config.firmwareMinor]

/-- A QUERY of a selector: its operands, then the reply in the buffer and its length in VALUE. The reply of a selector that R24 does
not list is refused with that of IDENT. -/
def query (s : State) (sel size : Nat) (counted : Bool) (limit : Nat) (reply : State → List Byte → List Byte) : Out :=
  match commandOf s 9 fun r => fieldAt r 16 1 == sel || (sel == 0 && decide (4 < fieldAt r 16 1)) with
  | none => .next s
  | some r =>
    let first := fieldAt r 36 8
    let count := fieldAt r 44 4
    let bytes := if counted then size * count else size
    let ok := fieldAt r 16 1 == sel && zeroFields r false ([(16, 1), (24, 8), (32, 4)] ++ if counted then [(36, 8), (44, 4)] else [])
      && fieldAt r 24 8 % 64 == 0 && (!counted || decide (1 ≤ count ∧ count ≤ 2 ^ 20 ∧ first + count ≤ limit))
      && decide (bytes ≤ fieldAt r 32 4)
    if !ok then .next (refuseCommand s r .refused reasonArgs)
    else
      let x := acceptCommand s r []
      let bs := reply s r
      .next (completeCommand (hostWrite x.1 (fieldAt r 24 8) bs) x.2 .done [] bs.length)

/-- The reply of IDENT. -/
def identReply (s : State) : List Byte :=
  versionBytes ++ leBytes 2 s.hub.device.toNat ++ zeroBytes 6 ++ bytesAt Config.identityKey 0 48 ++ leBytes 4 Config.certificate.length
    ++ zeroBytes 12 ++ Config.certificate

/-- `QUERY_IDENT`. -/
def execQueryIdent (s : State) : Out := query s 0 (80 + Config.certificate.length) false 0 fun s _ => identReply s

/-- The reply of HEALTH. -/
def healthReply (s : State) : List Byte :=
  let m := s.module
  leBytes 8 s.time ++ (List.range 104).flatMap (fun i => leBytes 4 (m.temps.getD i 0))
    ++ (List.range 14).flatMap (fun i => leBytes 4 (m.rails.getD i 0)) ++ leBytes 4 m.clock ++ leBytes 4 m.powerLimit ++ leBytes 4 m.power
    ++ leBytes 1 ((s.home.lost.head?).getD 255) ++ zeroBytes 3
    ++ (List.range 9).flatMap (fun i => leBytes 8 ((m.corrected.find (i + 1)).getD 0)) ++ zeroBytes 8

/-- `QUERY_HEALTH`. -/
def execQueryHealth (s : State) : Out := query s 1 576 false 0 fun s _ => healthReply s

/-- What ATTEST signs: versions, measurements, nonce, device time (R24, R36). -/
def quoteBytes (s : State) (r : List Byte) : List Byte :=
  versionBytes ++ (List.range 8).flatMap (measurement s) ++ hostBytes s (fieldAt r 24 8) 32 ++ leBytes 8 s.time

/-- `QUERY_ATTEST`. -/
def execQueryAttest (s : State) : Out :=
  query s 2 16528 false 0 fun s r => quoteBytes s r ++ bytesAt (Config.slhSign (quoteBytes s r)) 0 signatureSize

/-- `QUERY_EVENTS` (R251). -/
def execQueryEvents (s : State) : Out :=
  query s 3 32 true ringSlots fun s r =>
    (List.range (fieldAt r 44 4)).flatMap fun i => (s.recorder.slots.find (fieldAt r 36 8 + i)).getD (zeroBytes 32)

/-- `QUERY_CAPTURE` (R269). -/
def execQueryCapture (s : State) : Out :=
  query s 4 64 true captureUnits fun s r =>
    (List.range (fieldAt r 44 4)).flatMap fun i => (s.capture.units.find (fieldAt r 36 8 + i)).getD (zeroBytes 64)

end Sys2Proof.Machine
end

