-- ==== Sys2Proof/Machine/Health.lean ====
section
/-! DEFINITION. Monitors and throttling, storage errors, lost stacks, the recorder's steps, caches and the device clock (R13, R31, R32,
R151, R152, R248–R252, R271, R285). -/

namespace Sys2Proof.Machine

/-! ### Monitors (R31, R32) -/

/-- A temperature reading in m°C, a 32-bit two's complement number, is above a limit. -/
def hotter (t limit : Nat) : Bool := decide (t % 2 ^ 32 < 2 ^ 31 ∧ limit < t % 2 ^ 32)

/-- A rail reading lies outside its range. -/
def railBad (i v : Nat) : Bool := decide (v < (Config.railRange i).1 ∨ (Config.railRange i).2 < v)

/-- A reading stands on the far side of a threshold of its monitor. DESIGN CHOICE (log entry 42): the thresholds are the throttle and trip
points of a sensor, the range of a rail, and none of a process monitor. Monitors 0–103 are the sensors, 104–117 the rails. -/
def monitorSide (i v : Nat) : Bool × Bool := if i < 104 then (hotter v 100000, hotter v 110000) else (railBad (i - 104) v, false)

/-- Set the arithmetic clock, a class-6 event. -/
def setClock (s : State) (mhz : Nat) : State :=
  emit (s.modModule fun m => { m with clock := mhz, clockAt := s.time }) unitFirmware 0 0x601 0 mhz

/-- Compute freezes for a cause (R32). -/
def trip (s : State) (cause : Nat) : State :=
  let s := emit (s.modModule fun m => { m with tripped := true }) unitFirmware 0 0x007 0 cause
  journalNote s noteTrip

/-- The clock must fall: power above the board limit, or a sensor above the throttle point. -/
def mustThrottle (s : State) : Bool := decide (s.module.powerLimit < s.module.power) || s.module.temps.any fun t => hotter t 100000

/-- `MONITOR_SAMPLE`: temperatures in m°C, rails in mV, power in W over 10 ms, coolant flow in mL/min. A rail that two samples running find
out of its range has left it for more than 1 ms. DESIGN CHOICE (log entry 42): a sample that shows several causes of a trip journals one,
a temperature before the flow and the flow before a rail. -/
def execMonitorSample (temps rails process : List Nat) (power flow : Nat) (s : State) : Out :=
  let old := s.module.temps ++ List.replicate (104 - s.module.temps.length) 0 ++ s.module.rails
  let new := temps ++ List.replicate (104 - temps.length) 0 ++ rails
  let crossed := (List.range (min old.length new.length)).filter fun i => monitorSide i (old.getD i 0) != monitorSide i (new.getD i 0)
  let railOut := (List.range rails.length).any fun i =>
    railBad i (rails.getD i 0) && match s.module.rails[i]? with
      | some v => railBad i v
      | none => false
  let s := s.modModule fun m => { m with temps := temps, rails := rails, process := process, power := power }
  let s := crossed.foldl (fun s i => emit s unitFirmware 0 0x600 0 (i + 2 ^ 16 * (new.getD i 0 % 2 ^ 32))) s
  let s := if mustThrottle s && decide (1200 < s.module.clock) then setClock s (max 1200 (s.module.clock - 75)) else s
  .next (if s.module.tripped then s
    else if temps.any fun t => hotter t 110000 then trip s 0
    else if flow < 1800 then trip s 1
    else if railOut then trip s 2
    else s)

/-- `CLOCK_STEP_UP`: up to the 2.25 GHz of R2, the clock at reset (DESIGN CHOICE, log entry 5). -/
def execClockStepUp (s : State) : Out :=
  .next (if mustThrottle s || decide (2250 ≤ s.module.clock) || decide (s.time < s.module.clockAt + 10000000) then s
    else setClock s (min 2250 (s.module.clock + 75)))

/-! ### Storage errors (R271) -/

/-- The unit whose ECC event names a structure's error: its unit class and index. -/
def eccUnit (kind unit : Nat) : Nat × Nat :=
  match kind with
  | 1 => (unitCore, coreOfTeam unit)
  | 2 => (unitCore, coreOfTeam unit)
  | 3 => (unitCore, coreOfTeam unit)
  | 4 => (unitCore, unit)
  | 5 => (unitCore, unit)
  | 6 => (unitFold, unit)
  | 7 => (unitCore, unit)
  | 8 => (unitL2, unit)
  | _ => (unitHbm, unit)

/-- A mask bit of one copy flips: `place` is 1024 × register key + lane, then 2^20 for the primary copy; from 2^16 on, mask-stack entry
`(place / 1024 - 64) / 2` from the top, S or E. -/
def flipMask (t : Team) (place : Nat) : Team :=
  let p := place % 2 ^ 20
  let primary := place / 2 ^ 20 % 2 == 1
  let bit := bitMask (p % 1024)
  let r := p / 1024
  if r < 64 then
    t.modRegs fun g => { g with
      k := if primary then Sparse.set 0#1024 g.k r (Sparse.get 0#1024 g.k r ^^^ bit) else g.k
      kDiff := Sparse.set 0#1024 g.kDiff r (Sparse.get 0#1024 g.kDiff r ^^^ bit) }
  else
    { t with
      stack := t.stack.zipIdx.map fun ei =>
        if ei.2 ≠ (r - 64) / 2 then ei.1
        else if r % 2 = 0 then { ei.1 with saved := if primary then ei.1.saved ^^^ bit else ei.1.saved, sDiff := ei.1.sDiff ^^^ bit }
        else { ei.1 with other := if primary then ei.1.other ^^^ bit else ei.1.other, eDiff := ei.1.eDiff ^^^ bit } }

/-- What an uncorrectable error leaves (R271). A unit is a team for structures 1 to 3, a core for 4 to 7, a slice or a stack after that;
a place is a register element, a word, an accumulator element or 2^20 + a weight slot, a log entry, a granule, or a granule of the stack. -/
def poisonAt (s : State) (kind unit place : Nat) : State :=
  match kind with
  | 1 => s.modTeam unit fun t => t.modRegs fun g => { g with vPoison := Sparse.set false g.vPoison place true }
  | 2 => s.modTeam unit fun t => t.modRegs fun g => { g with sPoison := if place = 0 then g.sPoison else Sparse.set false g.sPoison place true }
  | 3 => s.modTeam unit fun t => flipMask t place
  | 4 => s.modCore unit fun c => { c with scratchPoison := Sparse.set false c.scratchPoison place true }
  | 5 =>
    if place < 2 ^ 20 then s.modCore unit fun c => { c with accPoison := Sparse.set false c.accPoison place true }
    else s.modCluster (clusterOf unit) fun c => { c with slots := c.slots.update (place - 2 ^ 20) fun w => { w with poison := true } }
  | 6 => s.modCore unit fun c => { c with log := c.log.zipIdx.map fun ei => if ei.2 = place then { ei.1 with pois := true } else ei.1 }
  | 7 => s.modCore unit fun c => if (c.l1.find (place / 4)).isSome then { c with l1Poison := Sparse.set false c.l1Poison place true } else c
  | 8 =>
    -- a clean sector is refetched from HBM
    match s.home.l2.find (place / 4) with
    | some x =>
      if x.dirty || Sparse.get false s.home.under place then s.modHome fun h => { h with poison := Sparse.set false h.poison place true }
      else s
    | none => s
  | _ => s.modHome fun h => (badGranules h unit place).foldl Home.spoil h

/-- 64 uncorrectable errors of a stack within a second lose it (R285). -/
def countStackErrors (s : State) (stack : Nat) : State :=
  let ts := (((s.module.hbmErr.find stack).getD []).filter fun t => decide (s.time < t + 1000000000)) ++ [s.time]
  let s := s.modModule fun m => { m with hbmErr := m.hbmErr.put stack ts }
  if 64 ≤ ts.length then loseStack s stack else s

/-- `ECC_ERROR`. The two copies of a mask correct nothing, so that each of its errors counts as uncorrectable; corrected errors of the others
are counted and give one event a second. -/
def execEccError (kind unit place : Nat) (uncorrectable : Bool) (s : State) : Out :=
  let u := eccUnit kind unit
  if kind = 0 ∨ 9 < kind then .next s
  else if uncorrectable || kind == 3 then
    let s := emit (poisonAt s kind unit place) u.1 u.2 0x602 0 (1 + 256 * kind)
    .next (if kind = 9 then countStackErrors s unit else s)
  else
    let last := s.module.eccAt.find kind
    let s := s.modModule fun m => { m with corrected := m.corrected.put kind (((m.corrected.find kind).getD 0) + 1) }
    .next (if last.any fun t => decide (s.time < t + 1000000000) then s
      else emit (s.modModule fun m => { m with eccAt := m.eccAt.put kind s.time }) u.1 u.2 0x602 0 (256 * kind))

/-- `STACK_LOST` (R285). -/
def execStackLost (stack : Nat) (s : State) : Out := .next (if stack < 8 then loseStack s stack else s)

/-- `HBM_SCRUB` (R271): single-bit errors are corrected in place, and what HBM holds stays. -/
def execHbmScrub (s : State) : Out := .next s

/-! ### The recorder's steps (R248–R252) -/

/-- `EVENT_RECORD`. -/
def execEventRecord (s : State) : Out := .next (noteDrops (takeRecord s))
/-- `RING_WRITE`. -/
def execRingWrite (s : State) : Out := .next (noteDrops (writeRecord s))
/-- `RING_HEADER_WRITE`. -/
def execRingHeaderWrite (s : State) : Out := .next (writeHeader s)

/-- `SAMPLE`: a core's sampling period has passed since its last sample (R248); the code address is that of the team's instruction now
issuing, or of its next run. -/
def execSample (core team : Nat) (s : State) : Out :=
  let period := (s.recorder.period.find core).getD 0
  let last := s.recorder.sampled.find core
  match s.team (16 * core + team % 16) with
  | none => .next s
  | some t =>
    if period = 0 ∨ last.any (fun x => decide (s.time < x + 1000 * period)) then .next s
    else
      let s := s.modRecorder fun r => { r with sampled := r.sampled.put core s.time }
      .next (emit s unitCore core 0x700 0 (team % 16 + 2 ^ 8 * core + 2 ^ 32 * t.itemAddr))

/-! ### Caches and the clock -/

/-- `L2_SECTOR_EVICT` (R151, R284): a sector with no announced entry in any log leaves L2. -/
def execL2SectorEvict (sector : Nat) (s : State) : Out :=
  let announced := s.cores.any fun kc => kc.2.log.any fun e => e.pub && sectorOf (32 * e.chunk) == sector
  .next (if announced then s else s.modHome fun h => leaveL2 h sector)

/-- `L1_LINE_EVICT` (R152). -/
def execL1LineEvict (core sector : Nat) (s : State) : Out := .next (dropLine s core sector)

/-- `PTP_MESSAGE` (R13): device time takes the port's time; it never goes back, since no record's TIME decreases (R249; log entry 44). -/
def execPtpMessage (time : Nat) (s : State) : Out := .next { s with time := max s.time time, frac := if s.time < time then 0 else s.frac }

end Sys2Proof.Machine
end

