-- ==== Sys2Proof/Machine/Window.lean ====
section
/-! DEFINITION. What the host reads and writes outside its commands: the rings, the data aperture, the management window (R15, R18,
R23, R26, R29, R33, R35, R269), and resets and power (R27–R29). -/

namespace Sys2Proof.Machine

/-! ### BAR 0 (R18, R23) -/

/-- Write bytes of the submission ring. -/
def writeRing (s : State) (off : Nat) (bs : List Byte) : State :=
  s.modModule fun m => { m with
    sq := (bs.zipIdx).foldl (fun q bi => if off + bi.2 < 262144 then Sparse.set 0#8 q (off + bi.2) bi.1 else q) m.sq }

/-- Write a field of BAR 0: SQ and SQTAIL while the channel is open (a command posted while it is closed is not taken, R29), CQHEAD, and
CQBASE and CQSIZE while it is closed; a window register whose zero fields are zero. DESIGN CHOICE (log entry 45): an index out of range is
taken modulo its ring's size, and a CQBASE that is not aligned or a CQSIZE that R18 does not allow is not taken. -/
def writeBar (s : State) (off : Nat) (bs : List Byte) : State :=
  let v := leNat bs
  let closed := !s.module.channel
  if off < 0x40000 then (if closed then s else writeRing s off bs)
  else if off = 0x1000000 ∧ bs.length = 4 then (if closed then s else s.modModule fun m => { m with sqTail := v % 4096 })
  else if off = 0x1000008 ∧ bs.length = 4 then s.modModule fun m => { m with cqHead := v % m.cqSize }
  else if off = 0x1000010 ∧ bs.length = 8 then
    if closed && v % 4096 == 0 then s.modModule fun m => { m with cqBase := BitVec.ofNat 64 v } else s
  else if off = 0x1000018 ∧ bs.length = 4 then
    if closed && powerOfTwoIn 1024 65536 v then s.modModule fun m => { m with cqSize := v } else s
  else if 0x2000000 ≤ off ∧ off < 0x2000200 ∧ off % 8 = 0 ∧ bs.length = 8 then
    if v / 2 ^ 52 = 0 ∧ v % 2 ^ 30 / 2 = 0 then
      s.modModule fun m => { m with windows := Sparse.set 0#64 m.windows ((off - 0x2000000) / 8) (BitVec.ofNat 64 v) }
    else s
  else s

/-- `CQHEAD_WRITE` (R18; an index out of range: log entry 45). -/
def execCqheadWrite (value : BitVec 32) (s : State) : Out :=
  .next (s.modModule fun m => { m with cqHead := value.toNat % m.cqSize })

/-! ### The management window (R15) -/

/-- A field of the management window that `REGISTER_WRITE` writes. -/
inductive WindowField where
  | powerLimit
  | device
  | route (device : Nat)
  | wtbase
  | cmtbase
  | fktbase (ctx : Nat)
  | holdTime
  | sampling (core : Nat)
  deriving DecidableEq, Repr

/-- The field at an offset. The manual does not give the offsets of the fields that R15 lists: these are the model's (log entry 42). -/
def windowField (off : Nat) : Option WindowField :=
  if off = 0x0 then some .powerLimit
  else if off = 0x8 then some .device
  else if off = 0x10 then some .wtbase
  else if off = 0x18 then some .cmtbase
  else if off = 0x20 then some .holdTime
  else if 0x1000 ≤ off ∧ off < 0x1400 ∧ off % 4 = 0 then some (.sampling ((off - 0x1000) / 4))
  else if 0x100000 ≤ off ∧ off < 0x180000 ∧ off % 8 = 0 then some (.fktbase ((off - 0x100000) / 8))
  else if 0x200000 ≤ off ∧ off < 0x280000 ∧ off % 8 = 0 then some (.route ((off - 0x200000) / 8))
  else none

/-- A route-table row from its bytes: fixed port, number of alternates, then up to three alternate ports. -/
def routeOf (bs : List Byte) : Option RouteRow :=
  let n := fieldAt bs 1 1
  let alts := (List.range n).map fun i => fieldAt bs (2 + i) 1
  if n ≤ 3 ∧ fieldAt bs 0 1 < 16 ∧ alts.all (fun a => decide (a < 16)) then some ⟨fieldAt bs 0 1, alts⟩ else none

/-- Write a field of the window (R15, R30, R207, R227, R230, R248, R255). Those of the hypervisor need bit 1 of the debug-enable word;
the device identifier is written before the first START. -/
def writeField (s : State) (f : WindowField) (bs : List Byte) : State :=
  let v := leNat bs
  let hyper := s.module.debugWord.getLsbD 1
  match f with
  | .powerLimit => if 1200 ≤ v ∧ v ≤ 2100 then s.modModule fun m => { m with powerLimit := v } else s
  | .device => if s.hub.started then s else s.modHub fun h => { h with device := BitVec.ofNat 16 v }
  | .route d => match routeOf bs with
    | some r => s.modHub fun h => { h with routes := h.routes.put d r }
    | none => s
  | .wtbase => if hyper then s.modHub fun h => { h with wtbase := BitVec.ofNat 64 v } else s
  | .cmtbase => if hyper then s.modHub fun h => { h with cmtbase := BitVec.ofNat 64 v } else s
  | .fktbase c => if hyper then s.modContext c fun x => { x with fktbase := BitVec.ofNat 64 v } else s
  | .holdTime => if hyper && decide (1 ≤ v ∧ v ≤ 1000) then s.modHub fun h => { h with holdTime := 1000 * v } else s
  | .sampling c => if v ≤ 1000 then s.modRecorder fun r => { r with period := r.period.put c v } else s

/-- `REGISTER_WRITE`: a write to any other offset has no effect. -/
def execRegisterWrite (window : Bool) (offset : Nat) (value : List (BitVec 8)) (s : State) : Out :=
  .next (if !window then writeBar s offset value
    else match windowField offset with
      | some f => writeField s f value
      | none => s)

/-- `DEBUG_ENABLE_WRITE` (R33): a new value extends MEAS6. -/
def execDebugEnableWrite (value : BitVec 32) (s : State) : Out :=
  .next (if s.module.debugWord = value then s
    else (extendMeasurement s 6 (leBytes 4 value.toNat)).modModule fun m => { m with debugWord := value })

/-- `MEAS7_WRITE` (R35). -/
def execMeas7Write (value : List (BitVec 8)) (s : State) : Out :=
  .next (if value.length = 32 then extendMeasurement s 7 value else s)

/-- `IMAGE_KEY_WRITE` (R26): a key registers itself and extends MEAS7; clearing an entry registers nothing. -/
def execImageKeyWrite (entry : Nat) (key : List (BitVec 8)) (s : State) : Out :=
  .next (if 8 ≤ entry ∨ key.length ≠ 48 then s
    else if key.all (· == 0#8) then s.modModule fun m => { m with imageKeys := m.imageKeys.drop entry }
    else (extendMeasurement s 7 (sha256 key)).modModule fun m => { m with imageKeys := m.imageKeys.put entry key })

/-- `FIRMWARE_IMAGE_WRITE` (R29): accepted in recovery only; the next start-up checks the image. -/
def execFirmwareImageWrite (image : List (BitVec 8)) (s : State) : Out :=
  .next (if s.module.recovery then s.modModule fun m => { m with firmware := image } else s)

/-! ### The data aperture (R23) -/

/-- The device address of an offset in BAR 4, where its window is enabled. -/
def windowAddress (s : State) (off : Nat) : Option Nat :=
  let w := Sparse.get 0#64 s.module.windows (off / 2 ^ 30)
  if off / 2 ^ 30 < 64 ∧ w.getLsbD 0 then some (w.toNat % 2 ^ 52 / 2 ^ 30 * 2 ^ 30 + off % 2 ^ 30) else none

/-- The bytes of a host access in pieces that each lie in one window: device address, if it reaches HBM, and bytes. -/
def aperturePieces (s : State) : Nat → Nat → List Byte → List (Nat × List Byte)
  | _, _, [] => []
  | 0, _, _ => []
  | fuel + 1, off, bs =>
    let n := 2 ^ 30 - off % 2 ^ 30
    let rest := aperturePieces s fuel (off + n) (bs.drop n)
    match windowAddress s off with
    | some pa => if pa < hbmTop then (pa, (bs.take n).take (hbmTop - pa)) :: rest else rest
    | none => rest

/-- A deterministic launch runs. -/
def deterministicRuns (s : State) : Bool := s.launches.any fun kl => kl.2.determ && kl.2.accepted != 0 && !kl.2.ended

/-- `HOST_APERTURE_WRITE`: home-slice writes, captured while a deterministic launch runs (R269). -/
def execHostApertureWrite (offset : Nat) (value : List (BitVec 8)) (s : State) : Out :=
  .next ((aperturePieces s 65 offset value).foldl
    (fun s p =>
      let s := if deterministicRuns s then capture s 2 (leBytes 8 p.1 ++ leBytes 8 p.2.length ++ sha256 p.2) else s
      homeWrite s p.1 p.2 false) s)

/-- A byte as the host reads it: folded data, or all ones. -/
def apertureHostByte (s : State) (off : Nat) : Byte :=
  match windowAddress s off with
  | some pa => if pa < hbmTop then s.home.byte pa else 0xFF#8
  | none => 0xFF#8

/-! ### Resets and power (R17, R27–R29) -/

/-- `RESET`: every other command that is not complete is aborted; its own completion is posted before the reset takes effect (log entry
43). -/
def execReset (s : State) : Out :=
  match commandOf s 5 fun _ => true with
  | none => .next s
  | some r =>
    if !zeroFields r false [] then .next (refuseCommand s r .refused reasonArgs)
    else
      let s := abortCommands s
      let x := acceptCommand s r []
      .next (warmReset (completeCommand x.1 x.2 .done [] 0) 0)

/-- `WARM_RESET_PIN`. -/
def execWarmResetPin (s : State) : Out := .next (if s.module.channel then warmReset s 1 else s)

/-- `COLD_START`: the start-up steps, after power-good or after a warm reset. -/
def execColdStart (s : State) : Out := .next (if s.module.channel then s else startUp s)

/-- `POWER_LOSS`. -/
def execPowerLoss (s : State) : Out := .next (losePower s)

end Sys2Proof.Machine
end

