-- ==== Sys2Proof/Machine/HostReads.lean ====
section
/-! DEFINITION. What the host reads: BAR 0, the data aperture of BAR 4, and the management window of BAR 2 (R15, R18, R23, R251, R253,
R255, R257, R269; the offsets of the fields that R15 lists: log entry 42). -/

namespace Sys2Proof.Machine

/-- Byte `i` of a record; zero past its end. -/
def recordByte (bs : List Byte) (i : Nat) : Byte := bs.getD i 0#8

/-- Byte `i` of a number, least significant first. -/
def numberByte (n i : Nat) : Byte := BitVec.ofNat 8 (n / 256 ^ i)

/-! ### BAR 0 (R18) -/

/-- A byte of BAR 0; a reserved one reads zero. -/
def barByte (s : State) (off : Nat) : Byte :=
  let m := s.module
  if off < 0x40000 then Sparse.get 0#8 m.sq off
  else if 0x1000000 ≤ off ∧ off < 0x100001C then
    recordByte (leBytes 4 m.sqTail ++ leBytes 4 m.sqHead ++ leBytes 4 m.cqHead ++ zeroBytes 4 ++ leBytes 8 m.cqBase.toNat ++ leBytes 4 m.cqSize)
      (off - 0x1000000)
  else if 0x2000000 ≤ off ∧ off < 0x2000200 then
    numberByte (Sparse.get 0#64 m.windows ((off - 0x2000000) / 8)).toNat (off % 8)
  else 0#8

/-! ### The management window (R15, R253) -/

/-- Ranks in 16 places, the free ones 0xFFFF. -/
def rankBytes (rs : List Nat) : List Byte := (List.range 16).flatMap fun i => leBytes 2 (rs.getD i 0xFFFF)

/-- A slot record (R255). -/
def Slot.bytes (x : Slot) : List Byte :=
  let ps := x.inputs.map fun i => Packet.ofBytes i.2
  leBytes 4 x.collid.toNat ++ leBytes 2 x.chunk.toNat ++ leBytes 2 x.entry.toNat ++ leBytes 1 (entryMore x.entry.toNat + 1) ++ leBytes 1 x.inputs.length
    ++ leBytes 1 (1 + (if x.fired then 2 else 0) + if x.mapped then 4 else 0) ++ zeroBytes 1 ++ leBytes 4 x.tmo ++ leBytes 8 x.opened
    ++ rankBytes (ps.map (·.rank)) ++ rankBytes (if x.mapped then x.missing else [])
    ++ leBytes 8 ((ps.head?.map (·.cid.toNat)).getD 0) ++ zeroBytes 32

/-- The directory of evicted blocks: launch id and address of the image; the entry after the last is zero. -/
def directoryByte (s : State) (o : Nat) : Byte :=
  match s.hub.evicted[o / 16]? with
  | none => 0#8
  | some ke => recordByte (leBytes 8 (((s.launch ke.2.launch).map (·.id.toNat)).getD 0) ++ leBytes 8 ke.2.image) (o % 16)

/-- The device's monitor entries: those that the teams of evicted blocks hold (R224). -/
def deviceMonitors (s : State) : List Monitor :=
  s.hub.evicted.flatMap fun ke => ke.2.monEntries.map fun n => (ke.2.monitors.find n).getD Monitor.clear

/-- What the window's fields of R15 hold: those that the host writes, at the offsets at which it writes them, the measurement registers, the
monitors' readings, and the capture region's header. -/
def fieldByte (s : State) (o : Nat) : Byte :=
  let m := s.module
  if o < 0x8 then numberByte m.powerLimit o
  else if o < 0x10 then numberByte s.hub.device.toNat (o - 0x8)
  else if o < 0x18 then numberByte s.hub.wtbase.toNat (o - 0x10)
  else if o < 0x20 then numberByte s.hub.cmtbase.toNat (o - 0x18)
  else if o < 0x28 then numberByte (s.hub.holdTime / 1000) (o - 0x20)
  else if o < 0x30 then numberByte m.debugWord.toNat (o - 0x28)
  else if 0x1000 ≤ o ∧ o < 0x1400 then numberByte ((s.recorder.period.find ((o - 0x1000) / 4)).getD 0) (o % 4)
  else if 0x2000 ≤ o ∧ o < 0x2180 then recordByte ((m.imageKeys.find ((o - 0x2000) / 48)).getD []) ((o - 0x2000) % 48)
  else if 0x100000 ≤ o ∧ o < 0x180000 then numberByte (s.context ((o - 0x100000) / 8)).fktbase.toNat (o % 8)
  else if 0x200000 ≤ o ∧ o < 0x280000 then
    match s.hub.routes.find ((o - 0x200000) / 8) with
    | some r => recordByte (leBytes 1 r.fixed ++ leBytes 1 r.alts.length ++ r.alts.flatMap (leBytes 1)) (o % 8)
    | none => 0#8
  else if 0x300000 ≤ o ∧ o < 0x300100 then recordByte (measurement s ((o - 0x300000) / 32)) (o % 32)
  else if 0x301000 ≤ o ∧ o < 0x3011A0 then numberByte (m.temps.getD ((o - 0x301000) / 4) 0) (o % 4)
  else if 0x301200 ≤ o ∧ o < 0x301238 then numberByte (m.rails.getD ((o - 0x301200) / 4) 0) (o % 4)
  else if 0x301300 ≤ o ∧ o < 0x301400 then numberByte (m.process.getD ((o - 0x301300) / 4) 0) (o % 4)
  else if 0x301400 ≤ o ∧ o < 0x301408 then numberByte (m.volts.getD ((o - 0x301400) / 4) 0) (o % 4)
  else if 0x301408 ≤ o ∧ o < 0x30140C then numberByte m.power (o - 0x301408)
  else if 0x30140C ≤ o ∧ o < 0x301410 then numberByte m.clock (o - 0x30140C)
  else if 0x304000 ≤ o ∧ o < 0x304100 then numberByte (s.queue ((o - 0x304000) / 4)).blocked (o % 4)
  else if 0x310000 ≤ o ∧ o < 0x311000 then recordByte s.capture.headerBytes (o - 0x310000)
  else 0#8

/-- A byte of the management window, at the offsets of R251 and R253. -/
def windowByte (s : State) (off : Nat) : Byte :=
  if off < 0x8000000 then fieldByte s off
  else if off < 0x8001000 then recordByte s.recorder.headerBytes (off - 0x8000000)
  else if 0x9000000 ≤ off ∧ off < 0x9040000 then
    recordByte (((s.hub.slots.find ((off - 0x9000000) / 128)).map Slot.bytes).getD []) (off % 128)
  else if 0xA000000 ≤ off ∧ off < 0xB000000 then directoryByte s (off - 0xA000000)
  else if 0xB000000 ≤ off ∧ off < 0xB020000 then
    recordByte (((deviceMonitors s)[(off - 0xB000000) / 32]?).getD Monitor.clear).bytes (off % 32)
  else if 0xC000000 ≤ off ∧ off < 0x10000000 then recordByte (s.hub.edges.getD ((off - 0xC000000) / 48) []) ((off - 0xC000000) % 48)
  else if 0x10000000 ≤ off ∧ off < 0x11000000 then
    (controlByte s ((off - 0x10000000) / 65536) ((off - 0x10000000) % 65536)).getD 0#8
  else if 0x20000000 ≤ off ∧ off < 0x30000000 then
    recordByte ((s.journal.entries.find ((off - 0x20000000) / 64)).getD []) (off % 64)
  else 0#8

/-- A read of the edge view's first 48 bytes starts a pass (R257). -/
def readStartsPass (off count : Nat) : Bool := decide (off < 0xC000030 ∧ 0xC000000 < off + count)

/-! ### Reads -/

/-- A byte as the host reads it of a BAR. -/
def hostByte (s : State) (bar off : Nat) : Byte :=
  match bar with
  | 0 => barByte s off
  | 2 => windowByte s off
  | _ => apertureHostByte s off

/-- The bytes go to the host. -/
def replyBytes (s : State) (bar offset count : Nat) : State :=
  s.modModule fun m => { m with reply := (List.range count).map fun i => hostByte s bar (offset + i) }

/-- `HOST_APERTURE_READ`: a host read of BAR 0, of the management window (BAR 2) or of the data aperture (any other number), whose bytes go
to the host. The window is readable while Mbalink is up (R15), which it is while the command channel is open (R27). -/
def execHostApertureRead (bar offset count : Nat) (s : State) : Out :=
  if bar ≠ 2 then .next (replyBytes s bar offset count)
  else if !s.module.channel then .next (replyBytes s bar offset 0)
  else .next (replyBytes (if readStartsPass offset count then listEdges s else s) bar offset count)

end Sys2Proof.Machine
end

