-- ==== Sys2Proof/Machine/LoadStore.lean ====
section
/-! DEFINITION. `LD` and `ST` in both forms (R356–R358, R401–R402), and `ATOM` (R297–R300). -/

namespace Sys2Proof.Machine

/-- The elements an active lane reads for a register or a pair. -/
def pairRegs (d n : Nat) : List Nat := if n = 8 then [d, d + 1] else [d]

/-- The register words a lane captures for a store or an atomic. -/
def Team.captureV (t : Team) (tick d l : Nat) (pair : Bool) : List Word :=
  if pair then [t.readV tick d l, t.readV tick (d + 1) l] else [t.readV tick d l]

/-- A vector load (R356–R358): destination, size, cache policy, address of a lane; `vs` and `src` are the registers an address takes.
Where every lane traps it is not counted (R65). -/
def loadLanes (s : State) (vs : Nat → List (Nat × Nat)) (src : List Nat) (d n pol : Nat) (addr : Team → Nat → Nat) :
    Out :=
  match s.team s.cur with
  | none => .next s
  | some t =>
    let k := s.cur
    let bad := t.taint vs src
    let ls := t.actingLanes.filter fun l => !bad.getLsbD l
    let hs := if 120 ≤ d then lanesOf t.helpers t.lanes else []
    if ls.isEmpty && hs.isEmpty then onTeam s fun t => t.consume bad
    else if t.flagFull true then .next (stallInstr s)
    else
      let a := Access.load n
      let r := checkLanes s k t a false (ls.map fun l => (l, addr t l))
      let park := parkAmong r.2
      match absentAmong r.2 with
      | some pa => .fault (.noSuchAddress pa)
      | none =>
        if !park.isEmpty && t.logFull then .next (stallInstr s)
        else
          let c := coreOfTeam k
          let ctx := r.1.ctxOf t
          let v := performLoads r.1 c ctx n pol (goAmong r.2)
          -- helper lanes never park, trap or consume; such a lane writes 0 (R55, R357)
          let h := hs.map fun l =>
            match (checkAccess v.1 k t { a with watch := 0 } false (addr t l)).2 with
            | .go pa _ _ =>
              let b := readAt v.1 c ctx pa n true
              (l, (if b.2 then 0 else leNat b.1), false)
            | _ => (l, 0, false)
          let vd := loadedElements t.mode d n (v.2 ++ h)
          .next (v.1.modTeam k fun t =>
            let t := (t.consume bad).raiseFates r.2
            if park.isEmpty && vd.isEmpty then t
            else if park.isEmpty then t.issueA s.tick vd [] 0
            else
              let o := t.startOp true true vd [] 0
              let t := o.1.parkAs o.2 (park.map fun p => (p.1, p.2, [])) [] false
              if (t.countsOn true).isNone then t.holdOn o.2 else t)

/-- `LD` in the vector form. -/
def execLdVector (d : BitVec 7) (b : BitVec 6) (i : BitVec 7) (z : BitVec 2) (p : BitVec 3) (s : State) : Out :=
  loadLanes s (ownLane [i.toNat]) [b.toNat, b.toNat + 1] d.toNat (sizeBytes z.toNat) p.toNat fun t l =>
    (t.readPair s.tick b.toNat + (t.readV s.tick i.toNat l).setWidth 64).toNat

/-- A scalar access checked once for its team: it traps for the whole team, parks, or goes on (R356). -/
def scalarAccess (s : State) (src : List Nat) (classA : Bool) (a : Access) (now : Bool) (addr : Team → Nat)
    (captured : Team → List Word) (act : State → Team → Nat → Nat → Out) : Out :=
  match s.team s.cur with
  | none => .next s
  | some t =>
    let k := s.cur
    if t.mute then .next s
    else if t.taintS src then onTeam s fun t => t.consume t.acting
    else if t.flagFull classA then .next (stallInstr s)
    else
      let va := addr t
      let r := checkLanes s k t a now [(0, va)]
      match (r.2.head?.map (·.2.2)).getD .park with
      | .absent pa => .fault (.noSuchAddress pa)
      | .trap c d h _ => .next (r.1.modTeam k fun t => t.raise t.trapSet c (BitVec.ofNat 32 d) va h 0)
      | .go pa attr _ => act r.1 t pa attr
      | f =>
        if t.logFull then .next (stallInstr s)
        else
          .next (r.1.modTeam k fun t =>
            let o := t.startOp classA true [] [] 0
            let ls := lanesOf t.trapSet t.lanes
            let faulted : List (Nat × Nat × Nat × Word × Bool) := match f with
              | .walkFault c d h => ls.map fun l => (l, va, c, BitVec.ofNat 32 d, h)
              | _ => []
            let t := o.1.parkAs o.2 (ls.map fun l => (l, va, captured t)) faulted false
            if classA && (t.countsOn true).isNone then t.holdOn o.2 else t)

/-- The address of the scalar forms (R356). -/
def Team.scalarAddress (t : Team) (tick b : Nat) (o : BitVec 11) : Nat := (t.readPair tick b + o.signExtend 64).toNat

/-- `LD` in the scalar form. -/
def execLdScalar (d b : BitVec 6) (z : BitVec 2) (o : BitVec 11) (s : State) : Out :=
  let n := sizeBytes z.toNat
  scalarAccess s [b.toNat, b.toNat + 1] true (Access.load n) false (fun t => t.scalarAddress s.tick b.toNat o) (fun _ => [])
    fun s' t pa attr =>
      let v := performLoads s' (coreOfTeam s'.cur) (s'.ctxOf t) n 0 [(0, pa, attr)]
      let x := (v.2.head?.map (·.2)).getD (0, false)
      .next (v.1.modTeam s'.cur fun t => t.issueA s.tick [] (loadedScalars t.mode d.toNat n x.1 x.2) 0)

/-- A store to a shared page in a deterministic launch acts in its turn, and is published at DEVICE scope at the end of it (R263); the
turn goes on while a lane is parked. -/
def storeInTurn (s : State) (k op : Nat) (waits : Bool) (act : State → State) : Out :=
  gated s fun s' => .next (if waits then keepTurn (act s') k op else (release (act s') k 3).1)

/-- A vector store (R402). In a deterministic launch it waits for its walks, and a lane whose walk faults parks as faulted
(R263, R212). Once its checks have passed for some lanes (R402): entries append, and the store is complete when all have (R146); lanes
without log room park with `LOG_OVF` (R158), missing lanes park. -/
def storeLanes (s : State) (vs : Nat → List (Nat × Nat)) (src : List Nat) (d n pol : Nat) (addr : Team → Nat → Nat) : Out :=
  match s.team s.cur with
  | none => .next s
  | some t =>
    let k := s.cur
    let bad := t.taint vs src
    let ls := t.actingLanes.filter fun l => !bad.getLsbD l
    if ls.isEmpty then onTeam s fun t => t.consume bad
    else if t.flagFull false then .next (stallInstr s)
    else
      let det := s.deterministic t
      let r := checkLanes s k t (Access.store n) det (ls.map fun l => (l, addr t l))
      let park := parkAmong r.2
      match absentAmong r.2 with
      | some pa => .fault (.noSuchAddress pa)
      | none =>
        let walked := walkFaults r.2
        let words := fun (l : Nat) => t.captureV s.tick d l (n == 8)
        let put := (goAmong r.2).map fun g => (g.1, g.2.1, storedBytes n (words g.1), retention g.2.2 pol)
        let short := !(performStores r.1 k t t.mode put).2.isEmpty
        if (!park.isEmpty || !walked.isEmpty || short) && t.logFull then .next (stallInstr s)
        else
          let act := fun (s' : State) =>
            let v := performStores s' k t t.mode put
            let pending := (park ++ (v.2 ++ walked.map (·.1)).map fun l => (l, addr t l)).map fun p => (p.1, p.2, words p.1)
            let faulted := walked ++ v.2.map fun l => (l, addr t l, 11, 0#32, false)
            v.1.modTeam k fun t =>
              let t := (t.consume bad).raiseFates r.2
              if pending.isEmpty then t
              else
                let o := t.startOp false true [] [] 0
                o.1.parkAs o.2 pending faulted (!v.2.isEmpty)
          if det && sharedAmong r.2 then storeInTurn r.1 k t.nextOp (!park.isEmpty) act
          else .next (act r.1)

/-- `ST` in the vector form. -/
def execStVector (d : BitVec 7) (b : BitVec 6) (i : BitVec 7) (z : BitVec 2) (p : BitVec 3) (s : State) : Out :=
  let n := sizeBytes z.toNat
  storeLanes s (ownLane (i.toNat :: pairRegs d.toNat n)) [b.toNat, b.toNat + 1] d.toNat n p.toNat fun t l =>
    (t.readPair s.tick b.toNat + (t.readV s.tick i.toNat l).setWidth 64).toNat

/-- `ST` in the scalar form. -/
def execStScalar (d b : BitVec 6) (z : BitVec 2) (o : BitVec 11) (s : State) : Out :=
  let n := sizeBytes z.toNat
  let words := fun (t : Team) => (pairRegs d.toNat n).map fun r => t.readS s.tick r
  match s.team s.cur with
  | none => .next s
  | some t0 =>
    let det := s.deterministic t0
    scalarAccess s (b.toNat :: (b.toNat + 1) :: pairRegs d.toNat n) false (Access.store n) det
      (fun t => t.scalarAddress s.tick b.toNat o) words fun s' t pa attr =>
        let k := s'.cur
        let va := t.scalarAddress s.tick b.toNat o
        let put := [(0, pa, storedBytes n (words t), retention attr 0)]
        let act := fun (s' : State) =>
          let v := performStores s' k t t.mode put
          v.1.modTeam k fun t =>
            if v.2.isEmpty then t
            else
              let r := t.startOp false true [] [] 0
              let ls := lanesOf t.trapSet t.lanes
              r.1.parkAs r.2 (ls.map fun l => (l, va, words t)) (ls.map fun l => (l, va, 11, 0#32, false)) true
        let shared := ((lookupTlb s' (coreOfTeam k) (s'.ctxOf t) va).map (·.sh)).getD false
        if !(performStores s' k t t.mode put).2.isEmpty && t.logFull then .next (stallInstr s)
        else if det && shared then storeInTurn s' k t.nextOp false act
        else .next (act s')

/-- The 4 KiB regions an `ATOM` opens for its deterministic launch (R268). -/
def atomRegions (op : Nat) (go : List (Nat × Nat × Nat)) : List Nat := if guardedOp op then go.map fun g => g.2.1 / 4096 else []

/-- `ATOM` (R297–R300). -/
def execAtom (d a : BitVec 7) (o : BitVec 4) (e : BitVec 2) (sb : BitVec 3) (s : State) : Out :=
  match s.team s.cur with
  | none => .next s
  | some t =>
    let k := s.cur
    let op := o.toNat
    let sem := e.toNat
    let scope := sb.toNat
    let data := if op = 4 ∨ op = 15 then [] else if atomPair op then [d.toNat, d.toNat + 1] else [d.toNat]
    let vs := ownLane (a.toNat :: (a.toNat + 1) :: data)
    let bad := t.taint vs []
    let ls := t.actingLanes.filter fun l => !bad.getLsbD l
    if t.mute then .next s
    -- with no active lane it has no effect, its sem included (R297); it advances the region all the same (R275)
    else if t.k0 = 0#1024 then onTeam s fun t => t.modRun fun r => { r with advances := true }
    else if t.flagFull true || (sem / 2 == 1 && t.awaitsAccess) then .next (stallInstr s)
    else
      let det := s.deterministic t
      let addr := fun (l : Nat) => (t.readVPair s.tick a.toNat l).toNat
      let r := checkLanes s k t (Access.atom (atomBytes op) (op == 4) (guardedOp op)) det (ls.map fun l => (l, addr l))
      let park := parkAmong r.2
      let go := goAmong r.2
      let opens := if det then atomRegions op go else []
      match absentAmong r.2 with
      | some pa => .fault (.noSuchAddress pa)
      | none =>
        let walked := walkFaults r.2
        let waits := park ++ walked.map fun f => (f.1, f.2.1)
        if (!waits.isEmpty && t.logFull) || decide (65536 < openRegions s + (newRegions s k opens).length) then .next (stallInstr s)
        else
          gated r.1 fun s' =>
            let s' := openFor s' k opens
            let st := startAtom s' k sem scope
            let words := fun (l : Nat) => t.captureV s.tick d.toNat l (atomPair op)
            let v := performAtoms st.1 k t t.mode d.toNat op scope
              (go.map fun g => (g.1, g.2.1, (words g.1).getD 0 0#32, (words g.1).getD 1 0#32))
            let s' := if park.isEmpty && !go.isEmpty then finishAtom v.1 k sem scope st.2.1 st.2.2 v.2.sectors else v.1
            let s' := (noteInvalid s' k v.2.invalid).modTeam k fun t =>
              let t := ((t.consume bad).raiseFates r.2).modRun fun r => { r with advances := true }
              if waits.isEmpty && go.isEmpty then t
              else if waits.isEmpty then t.issueA s.tick v.2.elems [] v.2.fflags
              else
                let x := t.startOp true true v.2.elems [] v.2.fflags
                let t := x.1.parkAs x.2 (waits.map fun p => (p.1, p.2, words p.1)) walked false
                let t := t.modParked x.2 fun p => { p with sectors := v.2.sectors, stamp := st.2.1, mark := st.2.2 }
                if (t.countsOn true).isNone && !park.isEmpty then t.holdOn x.2 else t
            .next (if det && !park.isEmpty then keepTurn s' k t.nextOp else s')

end Sys2Proof.Machine
end

