-- ==== Sys2Proof/Machine/Local.lean ====
section
/-! DEFINITION. `LDL`, `STL`, `LDT`, `STT` (R359, R360, R403, R404). -/

namespace Sys2Proof.Machine

/-- What the checks of a local access find: a cause with its detail and address, or a core and scratchpad offset. -/
inductive LocalFate where
  | trap (cause : Nat) (detail : Nat) (addr : Nat)
  | go (core off : Nat)
  deriving DecidableEq, Repr

/-- The checks of one local address (R359). -/
def checkLocal (s : State) (k : Nat) (t : Team) (b : Block) (code n : Nat) (anyLock : Bool) (a : Nat) : LocalFate :=
  if a % n ≠ 0 then .trap 8 n a
  else
    match localRange s b a n with
    | none => .trap 7 code a
    | some (core, off) =>
      let c := coreOfTeam k
      match lockHit s c (s.tagOn c (s.ctxOf t)) true core off n anyLock with
      | some i => .trap 9 i a
      | none => .go core off

/-! ### Scratchpads in a cluster group (R129, R359) -/

/-- A team of a grouped block stores to words of a scratchpad: teams of the other cores may not see it before a barrier. -/
def noteLoose (s : State) (k core off n : Nat) : State :=
  let ws := (List.range ((off + n + 3) / 4 - off / 4)).map (off / 4 + ·)
  let now := fun (x : Loose) => x.core == core && x.tick == s.tick
  s.modHub fun h => { h with
    loose := (h.loose.filter fun x => now x || !(x.core == core && ws.contains x.word))
      ++ (ws.filter fun w => !h.loose.any fun x => now x && x.word == w).map fun w =>
        ⟨core, w, BitVec.ofNat 32 (leNat (scratchBytes s core (4 * w) 4).1), coreOfTeam k, s.tick, []⟩ }

/-- The value before a store of another core that a team has not observed. -/
def looseWord (s : State) (k core w : Nat) : Option Word :=
  (s.hub.loose.find? fun x => x.core == core && x.word == w && x.writer != coreOfTeam k && !x.seen.contains k).map (·.old)

/-- Bytes of one element as a team's local load reads them: with another core's store or without it, the choice free where no barrier orders
them (R359, log entry 2). -/
def localSeen (s : State) (k core off n : Nat) : List Byte × Bool :=
  let r := scratchSeen s core off n
  if s.hub.loose.isEmpty then r
  else
    let new := Config.pickNew s.tick (0x80000000 + 0x1000000 * core + off)
    (r.1.zipIdx.map fun x =>
      match looseWord s k core ((off + x.2) / 4) with
      | some old => if new then x.1 else (old >>> (8 * ((off + x.2) % 4))).setWidth 8
      | none => x.1, r.2)

/-- A team's local store of bytes. -/
def localPut (s : State) (k : Nat) (b : Block) (core off : Nat) (bs : List Byte) : State :=
  scratchStore (if b.grouped then noteLoose s k core off bs.length else s) core off bs

/-- Record local traps lane by lane. -/
def Team.raiseLocal (t : Team) (fs : List (Nat × LocalFate)) : Team :=
  fs.foldl
    (fun t f => match f.2 with
      | .trap c d a => t.raise (bitMask f.1) c (BitVec.ofNat 32 d) a false 0
      | .go _ _ => t)
    t

/-- Lanes that load: `fate` gives the checks, `value` the result at a place; helper lanes that would trap write 0 (R357). -/
def localLoad (s : State) (vs : Nat → List (Nat × Nat)) (src : List Nat) (d n : Nat) (fate : Team → Nat → LocalFate)
    (value : Team → Nat → Nat → Nat → Nat × Bool) : Out :=
  match s.team s.cur with
  | none => .next s
  | some t =>
    let bad := t.taint vs src
    let ls := t.actingLanes.filter fun l => !bad.getLsbD l
    let hs := if 120 ≤ d then lanesOf t.helpers t.lanes else []
    if ls.isEmpty && hs.isEmpty then onTeam s fun t => t.consume bad
    else if t.flagFull true then .next (stallInstr s)
    else
      let fs := ls.map fun l => (l, fate t l)
      let vals := fs.filterMap fun f => match f.2 with
        | .go core off => some (f.1, value t f.1 core off)
        | .trap _ _ _ => none
      let helped := hs.map fun l => match fate t l with
        | .go core off => (l, (if (value t l core off).2 then 0 else (value t l core off).1), false)
        | .trap _ _ _ => (l, 0, false)
      let vd := loadedElements t.mode d n (vals ++ helped)
      onTeam s fun t =>
        let t := (t.consume bad).raiseLocal fs
        if vd.isEmpty then t else t.issueA s.tick vd [] 0

/-- A load traps for every acting lane; in a helper lane it writes 0 instead (R55). -/
def helperZeros (s : State) (d : Nat) (trap : Team → Team) : Out :=
  match s.team s.cur with
  | none => .next s
  | some t =>
    let hs := if 120 ≤ d then lanesOf t.helpers t.lanes else []
    if hs.isEmpty then onTeam s trap
    else if t.flagFull true then .next (stallInstr s)
    else onTeam s fun t => (trap t).issueA s.tick (hs.map fun l => (vKey t.mode d l, 0#32, false)) [] 0

/-- `LDL` (R359). -/
def execLdl (d : BitVec 7) (b : BitVec 6) (i : BitVec 7) (z : BitVec 2) (s : State) : Out :=
  let n := sizeBytes z.toNat
  match (s.team s.cur).bind s.blockOf with
  | none => .next s
  | some blk =>
    localLoad s (ownLane [i.toNat]) [b.toNat] d.toNat n
      (fun t l => checkLocal s s.cur t blk 0 n false (t.readS s.tick b.toNat + t.readV s.tick i.toNat l).toNat)
      fun _ _ core off => let r := localSeen s s.cur core off n; (leNat r.1, r.2)

/-- Lanes that store: lane by lane in ascending order, so that the higher lane's byte remains (R42). -/
def localStore (s : State) (vs : Nat → List (Nat × Nat)) (src : List Nat) (fate : Team → Nat → LocalFate)
    (write : Team → State → Nat → Nat → Nat → State) : Out :=
  match s.team s.cur with
  | none => .next s
  | some t =>
    let bad := t.taint vs src
    let ls := t.actingLanes.filter fun l => !bad.getLsbD l
    if ls.isEmpty then onTeam s fun t => t.consume bad
    else if t.flagFull false then .next (stallInstr s)
    else
      let fs := ls.map fun l => (l, fate t l)
      let s' := fs.foldl
        (fun s f => match f.2 with
          | .go core off => write t s f.1 core off
          | .trap _ _ _ => s) s
      let stored := fs.any fun f => match f.2 with
        | .go _ _ => true
        | .trap _ _ _ => false
      .next (s'.modTeam s.cur fun t =>
        let t := (t.consume bad).raiseLocal fs
        if stored then t.issueB else t)

/-- `STL` (R403). -/
def execStl (d : BitVec 7) (b : BitVec 6) (i : BitVec 7) (z : BitVec 2) (s : State) : Out :=
  let n := sizeBytes z.toNat
  match (s.team s.cur).bind s.blockOf with
  | none => .next s
  | some blk =>
    localStore s (ownLane (i.toNat :: pairRegs d.toNat n)) [b.toNat]
      (fun t l => checkLocal s s.cur t blk 1 n true (t.readS s.tick b.toNat + t.readV s.tick i.toNat l).toNat)
      fun t s' l core off => localPut s' s.cur blk core off (storedBytes n (t.captureV s.tick d.toNat l (n == 8)))

/-- The checks of one element of a tile (R360, R404). -/
def checkElement (s : State) (k : Nat) (t : Team) (b : Block) (tile : Tile) (code : Nat) (anyLock : Bool) (n : Nat) : LocalFate :=
  if tile.rows * tile.cols ≤ n then .trap 7 code t.itemAddr
  else if !laneFmt tile.fmt then .trap 1 t.itemWord.toNat t.itemAddr
  else checkLocal s k t b code (elementBytes tile.fmt) anyLock (tile.element n).1

/-- `LDT` (R360). -/
def execLdt (d : BitVec 7) (t : BitVec 6) (i : BitVec 7) (s : State) : Out :=
  match (s.team s.cur).bind s.blockOf with
  | none => .next s
  | some blk =>
    let tile := blk.tile t.toNat
    if !tile.fits tileReady then helperZeros s d.toNat fun tm => tm.raise tm.acting 10 (tile.detail t.toNat) tm.itemAddr false 0
    else
      let index := fun (tm : Team) (l : Nat) => (tm.readV s.tick i.toNat l).toNat
      localLoad s (ownLane [i.toNat]) [] d.toNat 4
        (fun tm l => checkElement s s.cur tm blk tile 0 false (index tm l))
        fun tm l core off =>
          let r := localSeen s s.cur core off (elementBytes tile.fmt)
          ((tileValue tile.fmt (tile.element (index tm l)).2 (leNat r.1)).toNat, r.2)

/-- The bytes `STT` leaves for an element; a CB4 element changes its nibble only (R404). -/
def tileBytes (s : State) (f pos core off : Nat) (w : Word) : List Byte :=
  if f = 16 then
    let old := leNat (scratchBytes s core off 1).1
    let v := w.toNat % 16
    leBytes 1 (if pos % 2 = 0 then old / 16 * 16 + v else v * 16 + old % 16)
  else leBytes (elementBytes f) w.toNat

/-- `STT` (R404). -/
def execStt (d : BitVec 7) (t : BitVec 6) (i : BitVec 7) (s : State) : Out :=
  match (s.team s.cur).bind s.blockOf with
  | none => .next s
  | some blk =>
    let tile := blk.tile t.toNat
    if !tile.fits tileFilling then
      onTeam s fun tm => tm.raise tm.acting 10 (tile.detail t.toNat) tm.itemAddr false 0
    else
      let index := fun (tm : Team) (l : Nat) => (tm.readV s.tick i.toNat l).toNat
      localStore s (ownLane [i.toNat, d.toNat]) []
        (fun tm l => checkElement s s.cur tm blk tile 1 true (index tm l))
        fun tm s' l core off =>
          localPut s' s.cur blk core off (tileBytes s' tile.fmt (tile.element (index tm l)).2 core off (tm.readV s.tick d.toNat l))

end Sys2Proof.Machine
end

