-- ==== Sys2Proof/Machine/LogOps.lean ====
section
/-! DEFINITION. `FENCE` (R155, R156), `LPUB`, `LMARK` and `LACQ` (R157). -/

namespace Sys2Proof.Machine

/-- A 32-bit mark as a position of a log whose tail is `tail`: positions compare modulo 2^32, and a mark at or beyond the
tail means the tail (R145, R157). -/
def markPos (tail : Nat) (m : Word) : Nat :=
  let back := (BitVec.ofNat 32 tail - m).toNat
  if 2 ^ 31 ≤ back then tail else tail - back

/-- TAIL of a team's context on its core. -/
def teamTail (s : State) (k : Nat) : Nat := (s.core (coreOfTeam k)).tail (s.tagFor k)

/-- A team's release at CLUSTER or wider up to a mark; it advances an open region (R148, R161). -/
def releaseUpTo (s : State) (k m scope : Nat) : State :=
  (publish s (coreOfTeam k) (s.tagFor k) m scope (publisherOf s k)).1.modTeam k fun t =>
    t.modRun fun r => { r with advances := true }

/-- An instruction at a scope takes a turn of the ladle at CLUSTER or wider (R263). -/
def gatedAt (s : State) (scope : Nat) (act : State → State) : Out :=
  if scope < 2 then .next (act s) else gated s fun s => .next (act s)

/-- `FENCE` (R155): an `.SC` takes its place in the one order of R156 as its step runs. -/
def execFence (k sb : BitVec 3) (s : State) : Out :=
  match s.team s.cur with
  | none => .next s
  | some t =>
    let kind := k.toNat
    let scope := sb.toNat
    let me := s.cur
    if t.mute then .next s
    else if kind ≠ 1 && t.awaitsAccess then .next (stallInstr s)
    else
      gatedAt s scope fun s =>
        let s := if kind = 1 then s else (release s me scope).1
        let c := coreOfTeam me
        if kind = 0 ∨ scope < 2 then s else acquire s c scope (acquireBound s c scope)

/-- `LPUB` (R157). It waits for the team's pending accesses before it acts. -/
def execLpub (sb : BitVec 3) (x : BitVec 6) (s : State) : Out :=
  match s.team s.cur with
  | none => .next s
  | some t =>
    let me := s.cur
    let scope := sb.toNat
    if t.mute then .next s
    else if t.taintS [x.toNat] then onTeam s fun t => t.consume t.acting
    else if t.flagFull false || t.awaitsAccess then .next (stallInstr s)
    else
      let tail := teamTail s me
      let m := if x = 0#6 then tail else markPos tail (t.readS s.tick x.toNat)
      gatedAt s scope fun s =>
        let s := if scope < 2 then s else releaseUpTo s me m scope
        s.modTeam me Team.issueB

/-- The position up to which a context's log on a core is published at a scope or wider, wherever its entries lie now (R157, R159). -/
def publishedUpTo (s : State) (c tag ctx scope : Nat) : Nat :=
  (s.positions c ctx fun _ core e => !(e.pub && decide (scope ≤ (core.segOf e).scope))).foldl min ((s.core c).tail tag)

/-- `LMARK` (R157). -/
def execLmark (sb : BitVec 3) (x : BitVec 6) (s : State) : Out :=
  match s.team s.cur with
  | none => .next s
  | some t =>
    let me := s.cur
    let scope := sb.toNat
    if t.mute then .next s
    else if scope < 2 && t.awaitsAccess then .next (stallInstr s)
    else
      let p := if scope < 2 then teamTail s me else publishedUpTo s (coreOfTeam me) (s.tagFor me) (s.ctxOf t) scope
      onTeam s fun t => t.writeS x.toNat (BitVec.ofNat 32 p)

/-- TAIL of a context's log on a core, whether it has a tag there now or not (R145). -/
def logTail (s : State) (d ctx : Nat) : Nat :=
  match (s.core d).tagOf ctx with
  | some tag => (s.core d).tail tag
  | none => ((s.core d).tails.find ctx).getD 0

/-- The stamp of the segment that holds a position of a context's log of core `d` (R150). -/
def stampHolding (s : State) (d ctx p : Nat) : Nat :=
  (s.cores.findSome? fun kc =>
    (kc.2.segs.find? fun g => g.num == ctx && g.holds.any fun x => x.1 == d && x.2 == p).map (·.stamp)).getD 0

/-- An acquire, by team `k`, of its context's log on core `d` up to a mark (R149, R150, R154, R157). -/
def acquireLog (s : State) (k d ctx scope : Nat) (mark : Word) : State :=
  let c := coreOfTeam k
  let m := markPos (logTail s d ctx) mark
  let short := s.positions d ctx fun x core e => !(e.pub && segCovers (core.segOf e) x c)
  let p := if short.any fun x => decide (x < m) then promote s d ctx m scope (readerPublisher s k) else (s, none)
  let held := if m = 0 then 0 else stampHolding p.1 d ctx (m - 1)
  acquire p.1 c scope (max held (p.2.getD 0))

/-- `LACQ` (R157). -/
def execLacq (sb : BitVec 3) (x y : BitVec 6) (s : State) : Out :=
  match s.team s.cur with
  | none => .next s
  | some t =>
    let scope := sb.toNat
    if t.mute || decide (scope < 2) then .next s
    else if t.taintS [x.toNat, y.toNat] then onTeam s fun t => t.consume t.acting
    else
      let d := (t.readS s.tick x.toNat).toNat
      let mark := t.readS s.tick y.toNat
      if 255 < d then onTeam s Team.illegalOp
      else gatedAt s scope fun s => acquireLog s s.cur d (s.ctxOf t) scope mark

end Sys2Proof.Machine
end

