-- ==== Sys2Proof/Machine/Packed.lean ====
section
/-! DEFINITION. Packed integer instructions of major 0x0A (R104, R105, R316, R346, R347, R372, R413). -/

namespace Sys2Proof.Machine

/-- A function of two halves applied to each half (R104). -/
def onHalves (f : BitVec 16 → BitVec 16 → BitVec 16) (a b : Word) : Word :=
  packHalves (f (highHalf a) (highHalf b)) (f (lowHalf a) (lowHalf b))

/-- Byte `j` of a word. -/
def byteAt (w : Word) (j : Nat) : BitVec 8 := (w >>> (8 * j)).setWidth 8

/-- A word of four bytes, byte 0 lowest. -/
def packBytes (f : Nat → BitVec 8) : Word := f 3 ++ f 2 ++ f 1 ++ f 0

/-- A function of two bytes applied to each byte. -/
def onBytes (f : BitVec 8 → BitVec 8 → BitVec 8) (a b : Word) : Word := packBytes fun j => f (byteAt a j) (byteAt b j)

/-- Clamp to a signed half (R347). -/
def clampHalf (z : Int) : BitVec 16 := BitVec.ofInt 16 (max (-32768) (min 32767 z))

/-- Saturating sum and difference of halves, saturating sum of unsigned bytes (R347). -/
def addSat (x y : BitVec 16) : BitVec 16 := clampHalf (x.toInt + y.toInt)
def subSat (x y : BitVec 16) : BitVec 16 := clampHalf (x.toInt - y.toInt)
def addSatU (x y : BitVec 8) : BitVec 8 := BitVec.ofNat 8 (min 255 (x.toNat + y.toNat))

/-- The half mask of `CMPV.GT.P16` (R316). -/
def greaterHalf (x y : BitVec 16) : BitVec 16 := if y.slt x then 0xFFFF#16 else 0#16

/-- One byte of `PERMB` (R372). -/
def permByte (a : Word) (sel : BitVec 8) : BitVec 8 :=
  let x := byteAt a (sel.toNat % 4)
  if sel.getLsbD 7 then 0#8
  else if sel.getLsbD 6 then (if x.getLsbD 7 then 0xFF#8 else 0#8)
  else x

/-- `IADD.P16` (R347). -/
def execIaddP16 (d a b : BitVec 7) (s : State) : Out := lanesVR s d a b (onHalves (· + ·))
/-- `ISUB.P16` (R347). -/
def execIsubP16 (d a b : BitVec 7) (s : State) : Out := lanesVR s d a b (onHalves (· - ·))
/-- `IADDS.P16` (R347). -/
def execIaddsP16 (d a b : BitVec 7) (s : State) : Out := lanesVR s d a b (onHalves addSat)
/-- `ISUBS.P16` (R347). -/
def execIsubsP16 (d a b : BitVec 7) (s : State) : Out := lanesVR s d a b (onHalves subSat)
/-- `IMAX.P16` (R347). -/
def execImaxP16 (d a b : BitVec 7) (s : State) : Out := lanesVR s d a b (onHalves sMax)
/-- `IMIN.P16` (R347). -/
def execIminP16 (d a b : BitVec 7) (s : State) : Out := lanesVR s d a b (onHalves sMin)
/-- `CMPV.GT.P16` (R316). -/
def execCmpvGtP16 (d a b : BitVec 7) (s : State) : Out := lanesVR s d a b (onHalves greaterHalf)
/-- `IADD.P8` (R347). -/
def execIaddP8 (d a b : BitVec 7) (s : State) : Out := lanesVR s d a b (onBytes (· + ·))
/-- `ISUB.P8` (R347). -/
def execIsubP8 (d a b : BitVec 7) (s : State) : Out := lanesVR s d a b (onBytes (· - ·))
/-- `IADDS.U.P8` (R347). -/
def execIaddsUP8 (d a b : BitVec 7) (s : State) : Out := lanesVR s d a b (onBytes addSatU)
/-- `IMAX.U.P8` (R347). -/
def execImaxUP8 (d a b : BitVec 7) (s : State) : Out := lanesVR s d a b (onBytes uMax)
/-- `IMIN.U.P8` (R347). -/
def execIminUP8 (d a b : BitVec 7) (s : State) : Out := lanesVR s d a b (onBytes uMin)
/-- `PERMB` (R372). -/
def execPermb (d a b : BitVec 7) (s : State) : Out :=
  lanesVR s d a b fun x sel => packBytes fun j => permByte x (byteAt sel j)
/-- `PACK16` (R372). -/
def execPack16 (d a b : BitVec 7) (s : State) : Out := lanesVR s d a b fun x y => packHalves (lowHalf y) (lowHalf x)
/-- `UNPK16.LO` (R413). -/
def execUnpk16Lo (d a : BitVec 7) (s : State) : Out := lanesV s d a fun x => (lowHalf x).signExtend 32
/-- `UNPK16.HI` (R413). -/
def execUnpk16Hi (d a : BitVec 7) (s : State) : Out := lanesV s d a fun x => (highHalf x).signExtend 32

end Sys2Proof.Machine
end

