-- ==== Sys2Proof/Machine/Checkpoint.lean ====
section
/-! DEFINITION. CKPT and RESTORE (R25, R225): where a checkpoint lies, what it holds, and what the two do. -/

namespace Sys2Proof.Machine

/-- What the state section of a checkpoint that another module wrote says: the manual does not give that part's layout (log entry
39). -/
opaque foreignState : List Byte → Option Saved

/-! ### Where a checkpoint lies (R21) -/

/-- Fields of a CKPT or RESTORE record. -/
def ckptTarget (r : List Byte) : Nat := fieldAt r 16 1
def ckptAddr (r : List Byte) : Nat := fieldAt r 24 8
def ckptLimit (r : List Byte) : Nat := fieldAt r 40 8

/-- A peer's window, by device and window number. -/
def peerKey (r : List Byte) (win : Nat) : Nat := 256 * fieldAt r 32 2 + win

/-- The key entry that KIX names: one of context 0's table (log entry 46). -/
def peerEntry (s : State) (r : List Byte) : List Byte :=
  match tableEntry (syncDevice s) ((s.context 0).fktbase.toNat + 32 * fieldAt r 34 1) 32 with
  | .ok e => e
  | .error _ => []

/-- The window of the peer that the key entry names. -/
def peerWindow (s : State) (r : List Byte) : Nat := if ckptTarget r = 0 then 0 else fieldAt (peerEntry s r) 2 1

/-- The memory a checkpoint lies in: the host's, or a peer's window. -/
def targetMemory (s : State) (r : List Byte) (win : Nat) : Sparse Byte :=
  if ckptTarget r = 0 then s.module.hostMem else (s.module.peers.find (peerKey r win)).getD []
def setTargetMemory (s : State) (r : List Byte) (win : Nat) (m : Sparse Byte) : State :=
  s.modModule fun x => if ckptTarget r = 0 then { x with hostMem := m } else { x with peers := x.peers.put (peerKey r win) m }

/-- Bytes of that memory. -/
def targetBytes (s : State) (r : List Byte) (win off n : Nat) : List Byte :=
  let m := targetMemory s r win
  (List.range n).map fun i => Sparse.get 0#8 m (ckptAddr r + off + i)

/-- Replace `n` bytes of a store from `lo` on by those of another from `from'` on. -/
def replaceBytes (m : Sparse Byte) (lo n : Nat) (src : Sparse Byte) (from' : Nat) : Sparse Byte :=
  let kept := m.filter fun kv => decide (kv.1 < lo ∨ lo + n ≤ kv.1)
  src.foldl (fun m kv => if from' ≤ kv.1 ∧ kv.1 < from' + n then Sparse.set 0#8 m (lo + (kv.1 - from')) kv.2 else m) kept

/-- A list of bytes as a store from address 0. -/
def storeOf (bs : List Byte) : Sparse Byte := (bs.zipIdx).filterMap fun bi => if bi.1 = 0#8 then none else some (bi.2, bi.1)

/-- Operands that R21 allows of a CKPT, or of a RESTORE; for a peer, a key entry of its window with a permission: PUT for a CKPT, GET for
a RESTORE. -/
def ckptArgsOk (s : State) (perm : Nat) (r : List Byte) : Bool :=
  zeroFields r false ([(16, 1), (24, 8), (40, 8)] ++ if ckptTarget r = 1 then [(32, 2), (34, 1)] else [])
    && decide (ckptTarget r ≤ 1) && ckptAddr r % 4096 == 0
    && (ckptTarget r == 0 || (decide (fieldAt r 34 1 < 64) && permits (fieldAt (peerEntry s r) 3 1) perm
      && fieldAt (peerEntry s r) 0 2 == fieldAt r 32 2))

/-! ### The parts of an image (R25) -/

/-- Bytes of the state section, whose layout the manual does not give. -/
def stateLength : Nat := (Config.freeWord 0 42).toNat
def stateSection (s : State) : List Byte := (List.range stateLength).map fun i => (Config.freeWord s.tick (100 + i)).setWidth 8

/-- The instances whose spill buffers hold images (R225). -/
def spillingInstances (s : State) : List Instance := (s.hub.instances.map (·.2)).filter fun i => !i.spills.isEmpty

/-- The spill section: each buffer after a record of its virtual base and its length. -/
def spillSection (s : State) : List Byte :=
  (spillingInstances s).flatMap fun i =>
    let n := i.spillSz * 1048576
    let bytes := match (imageChunks 0 i.ctx i.spillVa (n / 32) s).2 with
      | some xs => chunkBytes xs
      | none => (List.range n).map fun j => (Config.freeWord s.tick j).setWidth 8
    leBytes 8 i.spillVa ++ leBytes 8 n ++ bytes

/-- The size a checkpoint may take: the spill buffers of every running instance counted. -/
def ckptSize (s : State) : Nat :=
  4096 + hbmTop + stateLength
    + (s.hub.instances.filter fun ki => ki.2.running).foldl (fun n ki => n + if ki.2.spillSz = 0 then 0 else 16 + ki.2.spillSz * 1048576) 0

/-- The 4,096-byte header. -/
def ckptHeader (valid seq time spill state : Nat) (digest : List Byte) : List Byte :=
  let body := leBytes 4 0x434B5001 ++ leBytes 4 valid ++ leBytes 8 seq ++ leBytes 8 time ++ leBytes 8 hbmTop ++ leBytes 8 spill
    ++ leBytes 8 state ++ leBytes 2 0x0960 ++ leBytes 2 0x00B0 ++ leBytes 1 Config.firmwareMajor ++ zeroBytes 3 ++ bytesAt digest 0 32
    ++ zeroBytes 4004
  body ++ leBytes 4 (crc32c body).toNat

/-- The entries of detached logs, each with the core on which it lies (R159). -/
def detachedLogs (s : State) : List (Nat × LogEntry) :=
  s.cores.flatMap fun kc => (kc.2.log.filter fun e => e.det.isSome).map fun e => (kc.1, e)

/-- What the state section holds. -/
def savedState (s : State) (digest : List Byte) : Saved :=
  let h := s.hub
  { digest := digest, images := h.images, instances := h.instances, queues := h.queues
    clusters := (List.range 64).map fun c => (s.cluster c).queue, walk := h.walk, walkSeq := h.walkSeq, dead := h.dead
    passed := h.passed, evicted := h.evicted, logs := detachedLogs s, arrivals := h.arrivals, launches := s.launches
    cmds := s.cmds.filter fun kc => kc.2.kind == .spawn || kc.2.kind == .hpass, nextEvict := h.nextEvict, nextLaunch := h.nextLaunch
    nextCmd := h.nextCmd, journal := s.journal.next }

/-! ### CKPT -/

/-- CKPT begins: every running instance is stopped as STOP does, and the header is written with VALID 0. -/
def beginCkpt (s : State) (p : Pending) : State :=
  let r := p.bytes
  let win := p.content.handle
  let header := ckptHeader 0 p.seq p.time 0 0 []
  let s := setTargetMemory s r win (replaceBytes (targetMemory s r win) (ckptAddr r) 4096 (storeOf header) 0)
  let running := (s.hub.instances.filter fun ki => ki.2.running).map (·.1)
  checkStop (running.foldl (fun s tag => stopInstance s tag 0) s)

/-- The command of a code that is under way. -/
def pendingOf (s : State) (code : Nat) : Option Pending := s.module.pending.find? fun p => p.started && cmdCode p.bytes == code

/-- CKPT writes its sections, and VALID last, once nothing of the stopped instances is resident. -/
def finishCkpt (s : State) (p : Pending) : State :=
  let r := p.bytes
  let win := p.content.handle
  let s := foldAcross s fun _ _ _ => true
  let spill := spillSection s
  let state := stateSection s
  let base := ckptAddr r + 4096
  let m := replaceBytes (targetMemory s r win) base hbmTop s.home.mem 0
  let m := replaceBytes m (base + hbmTop) (spill.length + state.length) (storeOf (spill ++ state)) 0
  let s := setTargetMemory s r win m
  let digest := sha256 (targetBytes s r win 4096 (hbmTop + spill.length + state.length))
  let header := ckptHeader 1 p.seq p.time spill.length state.length digest
  let s := setTargetMemory s r win (replaceBytes (targetMemory s r win) (ckptAddr r) 4096 (storeOf header) 0)
  s.modModule fun m => { m with saved := m.saved ++ [savedState s digest] }

/-! ### RESTORE -/

/-- The checkpoint may be restored: VALID, CRC, DIGEST and firmware major version (R25). -/
def checkpointOk (s : State) (r : List Byte) : Bool :=
  let win := peerWindow s r
  let h := targetBytes s r win 0 4096
  let n := fieldAt h 24 8 + fieldAt h 32 8 + fieldAt h 40 8
  fieldAt h 0 4 == 0x434B5001 && fieldAt h 4 4 == 1 && (crc32c (bytesAt h 0 4092)).toNat == fieldAt h 4092 4
    && fieldAt h 52 1 == Config.firmwareMajor && decide (fieldAt h 24 8 ≤ hbmTop) && bytesAt h 56 32 == sha256 (targetBytes s r win 4096 n)

/-- Put the entries of detached logs back, each under the tag that its context has or takes on its core (R159). -/
def restoreLogs (s : State) (es : List (Nat × LogEntry)) : State :=
  es.foldl
    (fun s x =>
      match x.2.det.bind fun ek => s.hub.evicted.find ek with
      | none => s
      | some v =>
        match tagFree s x.1 v.ctx [] with
        | none => s
        | some tag => (takeTag s x.1 v.ctx tag).modCore x.1 fun c => { c with
            log := c.log ++ [{ x.2 with ctx := tag }]
            ctxLogs := c.ctxLogs.update tag fun r => { r with tail := max r.tail (x.2.pos + 1) } }) s

/-- Put a state section back; the restored instances may place again (R225), and every core is offered work as at a START (log entry 39). -/
def restoreSaved (s : State) (x : Saved) : State :=
  let s := { s with
    launches := x.launches, cmds := x.cmds, journal := { s.journal with next := max s.journal.next x.journal }
    hub := { s.hub with
      images := x.images, queues := x.queues, walk := x.walk, walkSeq := x.walkSeq, dead := x.dead, passed := x.passed
      evicted := x.evicted, arrivals := x.arrivals, started := true, nextEvict := x.nextEvict, nextLaunch := x.nextLaunch
      nextCmd := max s.hub.nextCmd x.nextCmd
      instances := x.instances.map fun ki => (ki.1, { ki.2 with stopped := false, stopping := [] }) } }
  let s := (x.clusters.zipIdx).foldl (fun s qc => s.modCluster qc.2 fun c => { c with queue := qc.1, moving := none }) (restoreLogs s x.logs)
  offerCores s (List.range 256)

/-- RESTORE writes HBM back, which the spill buffers lie in, then the state. -/
def finishRestore (s : State) (p : Pending) : State :=
  let r := p.bytes
  let win := p.content.handle
  let h := targetBytes s r win 0 4096
  let s := foldAcross s fun _ _ _ => true
  let mem := replaceBytes s.home.mem 0 (fieldAt h 24 8) (targetMemory s r win) (ckptAddr r + 4096)
  let s := s.modHome fun x => { x with mem := mem, fold := [], sync := [], l2 := [], poison := [], under := [], intents := [] }
  let digest := bytesAt h 56 32
  let image := targetBytes s r win (4096 + fieldAt h 24 8 + fieldAt h 32 8) (fieldAt h 40 8)
  match (s.module.saved.find? fun x => x.digest == digest).orElse fun _ => foreignState image with
  | some x => restoreSaved s x
  | none => s

end Sys2Proof.Machine
end

