-- ==== Sys2Proof/Machine/Sequence.lean ====
section
/-! DEFINITION. The commands that execute in sequence order (R17, R21, R29): LOAD, START, SIGNAL, SETSEED, CKPT and RESTORE. Each is
accepted or refused when it is read, and acts when its turn comes. -/

namespace Sys2Proof.Machine

/-! ### The queue of accepted commands (R17) -/

/-- What the journal carries of a command in ARG (R259). -/
def commandArg (r : List Byte) (q : Queued) : List Byte :=
  match cmdCode r with
  | 1 => leBytes 4 q.handle ++ (sha256 (signedPart q.image)).take 16
  | 2 => leBytes 4 (fieldAt r 16 4) ++ leBytes 8 ((q.inst.map (·.seed.toNat)).getD 0)
  | _ => []

/-- What a queued command will have left when a later one is judged: an image, an instance, a seed (log entry 40). -/
def foresee (s : State) (p : Pending) : State :=
  if p.started then s
  else
    match cmdCode p.bytes with
    | 1 => placeImage s p.bytes p.content
    | 2 => match p.content.inst with
      | some i => s.modHub fun h => { h with instances := h.instances.put i.tag i }
      | none => s
    | 8 => seedContext s p.bytes
    | _ => s

/-- The state in which the next command is judged. -/
def foreseen (s : State) : State := s.module.pending.foldl foresee s

/-- The turn of a pending command has come. -/
def markStarted (s : State) (seq : Nat) : State :=
  s.modModule fun m => { m with pending := m.pending.map fun p => if p.seq == seq then { p with started := true } else p }

/-- What a command does in its turn; CKPT and RESTORE only begin. -/
def performPending (s : State) (p : Pending) : State :=
  let r := p.bytes
  let finish := fun (s : State) (value : Nat) => completeCommand s p.seq .done (commandArg r p.content) value
  match cmdCode r with
  | 1 => finish (placeImage s r p.content) p.content.handle
  | 2 => finish (match p.content.inst with
      | some i => startGraph s r i
      | none => s) 0
  | 3 => finish (signalNow s r) 0
  | 6 => beginCkpt (markStarted s p.seq) p
  | 7 => markStarted s p.seq
  | _ => finish (seedContext s r) 0

/-- The queued commands act in sequence order, up to a CKPT or RESTORE that is not done. -/
def runQueue (s : State) : State :=
  s.module.pending.foldl (fun s p => if p.started || checkpointing s then s else performPending s p) s

/-- A command is accepted, and acts when its turn comes: now, unless a checkpoint is under way. An accepted image is measured (R35). -/
def queueCommand (s : State) (r : List Byte) (q : Queued) : State :=
  let s := if cmdCode r = 1 then measureImage s r q else s
  runQueue (acceptAs s r (commandArg r q) false q).1

/-- A command that executes in sequence order: refused in recovery (R29), with ARGS, or for the reason its content gives; else accepted. -/
def sequential (s : State) (code : Nat) (pick : List Byte → Bool) (argsOk : State → List Byte → Bool)
    (content : State → List Byte → Except Nat Queued) : Out :=
  match commandOf s code pick with
  | none => .next s
  | some r =>
    if s.module.recovery then .next (refuseCommand s r .refused (recoveryReason s))
    else if !argsOk (foreseen s) r then .next (refuseCommand s r .refused reasonArgs)
    else
      match content (foreseen s) r with
      | .error reason => .next (refuseCommand s r .refused reason)
      | .ok q => .next (queueCommand s r q)

/-- Nothing to carry. -/
def noContent (_ : State) (_ : List Byte) : Except Nat Queued := .ok Queued.empty

/-- The peer's window, as the key entry names it at acceptance. -/
def ckptContent (s : State) (r : List Byte) : Except Nat Queued := .ok ⟨[], peerWindow s r, none⟩

/-! ### The commands -/

/-- `LOAD` (R26). The operand is what the host's memory holds at HOSTADDR. -/
def execLoad (image : List (BitVec 8)) (s : State) : Out :=
  let s := match commandOf s 1 fun _ => true with
    | some r => hostWrite s (fieldAt r 16 8) image
    | none => s
  sequential s 1 (fun _ => true) loadArgsOk loadContent

/-- `START` (R196). -/
def execStart (s : State) : Out := sequential s 2 (fun _ => true) startArgsOk startContent

/-- `SIGNAL_ARRIVAL`: a SIGNAL of KIND 0; one of a KIND that R21 does not list is refused here. -/
def execSignalArrival (s : State) : Out := sequential s 3 (fun r => fieldAt r 16 1 != 1) (fun _ r => signalArgsOk r) noContent

/-- `SIGNAL_WORD`: a SIGNAL of KIND 1. -/
def execSignalWord (s : State) : Out := sequential s 3 (fun r => fieldAt r 16 1 == 1) (fun _ r => signalArgsOk r) noContent

/-- `SETSEED` (R125). -/
def execSetseed (s : State) : Out := sequential s 8 (fun _ => true) (fun _ r => zeroFields r false [(16, 2), (24, 8)]) noContent

/-- `CKPT` (R25, R225). -/
def execCkpt (s : State) : Out :=
  sequential s 6 (fun _ => true) (fun s r => ckptArgsOk s permPut r && decide (ckptSize s ≤ ckptLimit r)) ckptContent

/-- `CKPT_COMPLETE`: the CKPT under way is done once nothing of the stopped instances is resident; the queue goes on. -/
def execCkptComplete (s : State) : Out :=
  match pendingOf s 6 with
  | none => .next s
  | some p =>
    .next (if s.hub.instances.any fun ki => ki.2.stopping.any fun x => x.2 == 0 then s
      else runQueue (completeCommand (finishCkpt s p) p.seq .done [] 0))

/-- `RESTORE` (R25). -/
def execRestore (s : State) : Out :=
  sequential s 7 (fun _ => true) (fun s r => ckptArgsOk s permGet r && checkpointOk s r) ckptContent

/-- `RESTORE_COMPLETE`: the RESTORE under way is done once no block is resident; the queue goes on. -/
def execRestoreComplete (s : State) : Out :=
  match pendingOf s 7 with
  | none => .next s
  | some p => .next (if !s.blocks.isEmpty then s else runQueue (completeCommand (finishRestore s p) p.seq .done [] 0))

end Sys2Proof.Machine
end

