-- ==== Sys2Proof/Machine/VectorFp.lean ====
section
/-! DEFINITION. Floating-point arithmetic of pipe V (R106–R109, R331–R336, R412): FP32, and packed BF16 and FP16. -/

namespace Sys2Proof.Machine

/-! ### Word functions -/

/-- a × b − c, and −(a × b) + c, each rounded once (R332). -/
def f32Fms (a b c : Word) : Word × FpFlags := f32Fma a b (f32Neg c)
def f32Fnma (a b c : Word) : Word × FpFlags := f32Fma (f32Neg a) b c
def f32Sub (a b : Word) : Word × FpFlags := f32Add .rne a (f32Neg b)

/-- `FMIN`, `FMAX` and the forms that return the other operand, on FP32 (R107, R336). -/
def f32Minmax (wantMax other : Bool) (a b : Word) : Word × FpFlags :=
  let r := FpFmt.f32.minmax wantMax other a.toNat b.toNat
  (BitVec.ofNat 32 r.1, r.2)

/-- `FCLASS` (R334). -/
def f32Class (a : Word) : Word :=
  let neg := a.getLsbD 31
  match FpFmt.f32.read a.toNat with
  | .nan sig => if sig then 0x100#32 else 0x200#32
  | .inf _ => if neg then 1#32 else 0x80#32
  | .fin _ m _ =>
    if m = 0 then (if neg then 8#32 else 0x10#32)
    else if m < 8388608 then (if neg then 4#32 else 0x20#32)
    else (if neg then 2#32 else 0x40#32)

/-- Sum and its exact error (R412). -/
def twoSum (a b : Word) : Word × Word × FpFlags :=
  let r := f32Add .rne a b
  (r.1, if notFinite r.1 then 0#32 else sumError a b r.1, r.2)

/-- Product and its error, rounded once (R412). -/
def twoProd (a b : Word) : Word × Word × FpFlags :=
  let r := f32Mul a b
  (r.1, if notFinite r.1 then 0#32 else (f32Fma a b (f32Neg r.1)).1, r.2)

/-! ### Packed halves (R104, R333) -/

/-- An operation on two patterns of a format applied to each half; both halves are live and raise their flags. -/
def pairHalves (f : Nat → Nat → Nat × FpFlags) (a b : Word) : Word × FpFlags :=
  let lo := f (lowHalf a).toNat (lowHalf b).toNat
  let hi := f (highHalf a).toNat (highHalf b).toNat
  (packHalves (BitVec.ofNat 16 hi.1) (BitVec.ofNat 16 lo.1), lo.2 ||| hi.2)

/-- The same with a third operand. -/
def tripleHalves (f : Nat → Nat → Nat → Nat × FpFlags) (a b c : Word) : Word × FpFlags :=
  let lo := f (lowHalf a).toNat (lowHalf b).toNat (lowHalf c).toNat
  let hi := f (highHalf a).toNat (highHalf b).toNat (highHalf c).toNat
  (packHalves (BitVec.ofNat 16 hi.1) (BitVec.ofNat 16 lo.1), lo.2 ||| hi.2)

/-- Sum, product and fused product of patterns of a format. -/
def FpFmt.addPat (f : FpFmt) (x y : Nat) : Nat × FpFlags := f.add .rne (f.read x) (f.read y)
def FpFmt.mulPat (f : FpFmt) (x y : Nat) : Nat × FpFlags := f.mul (f.read x) (f.read y)
def FpFmt.fmaPat (f : FpFmt) (x y z : Nat) : Nat × FpFlags := f.fma (f.read x) (f.read y) (f.read z)

/-! ### FP32 -/

/-- `FADD vd, va, vb` (R332, R333). -/
def execFadd (d a b : BitVec 7) (s : State) : Out := fpVR s d a b (f32Add .rne)
/-- `FSUB` (R332). -/
def execFsub (d a b : BitVec 7) (s : State) : Out := fpVR s d a b f32Sub
/-- `FMUL vd, va, vb` (R332). -/
def execFmul (d a b : BitVec 7) (s : State) : Out := fpVR s d a b f32Mul
/-- `FFMA vd, va, vb` (R332): vd is the addend. -/
def execFfma (d a b : BitVec 7) (s : State) : Out := fpVRD s d a b f32Fma
/-- `FFMS` (R332). -/
def execFfms (d a b : BitVec 7) (s : State) : Out := fpVRD s d a b f32Fms
/-- `FNFMA` (R332). -/
def execFnfma (d a b : BitVec 7) (s : State) : Out := fpVRD s d a b f32Fnma
/-- `FMIN` (R336). -/
def execFmin (d a b : BitVec 7) (s : State) : Out := fpVR s d a b (f32Minmax false false)
/-- `FMAX` (R336). -/
def execFmax (d a b : BitVec 7) (s : State) : Out := fpVR s d a b (f32Minmax true false)
/-- `FMINN` (R336). -/
def execFminn (d a b : BitVec 7) (s : State) : Out := fpVR s d a b (f32Minmax false true)
/-- `FMAXN` (R336). -/
def execFmaxn (d a b : BitVec 7) (s : State) : Out := fpVR s d a b (f32Minmax true true)
/-- `FABS` (R331). -/
def execFabs (d a : BitVec 7) (s : State) : Out :=
  onTeam s fun t => t.putLanes (ownLane [a.toNat]) [] d.toNat fun l => t.readV s.tick a.toNat l &&& 0x7FFFFFFF#32
/-- `FNEG` (R331). -/
def execFneg (d a : BitVec 7) (s : State) : Out :=
  onTeam s fun t => t.putLanes (ownLane [a.toNat]) [] d.toNat fun l => f32Neg (t.readV s.tick a.toNat l)
/-- `FCPS` (R331): the sign of vb. -/
def execFcps (d a b : BitVec 7) (s : State) : Out :=
  lanesVR s d a b fun x y => (x &&& 0x7FFFFFFF#32) ||| (y &&& 0x80000000#32)
/-- `TWOSUM` (R412). -/
def execTwosum (d a b : BitVec 7) (s : State) : Out :=
  fpPair s (ownLane [a.toNat, b.toNat]) d.toNat fun t l => twoSum (t.readV s.tick a.toNat l) (t.readV s.tick b.toNat l)
/-- `TWOPROD` (R412). -/
def execTwoprod (d a b : BitVec 7) (s : State) : Out :=
  fpPair s (ownLane [a.toNat, b.toNat]) d.toNat fun t l => twoProd (t.readV s.tick a.toNat l) (t.readV s.tick b.toNat l)
/-- `FCLASS` (R334). -/
def execFclass (d a : BitVec 7) (s : State) : Out :=
  onTeam s fun t => t.putLanes (ownLane [a.toNat]) [] d.toNat fun l => f32Class (t.readV s.tick a.toNat l)
/-- `FADD vd, va, sb` (R332): sb is FP32, read once for the team. -/
def execFaddVs (d a : BitVec 7) (sb : BitVec 6) (s : State) : Out := fpVS s d a sb (f32Add .rne)
/-- `FMUL vd, va, sb` (R332). -/
def execFmulVs (d a : BitVec 7) (sb : BitVec 6) (s : State) : Out := fpVS s d a sb f32Mul
/-- `FFMA vd, va, sb` (R332). -/
def execFfmaVs (d a : BitVec 7) (sb : BitVec 6) (s : State) : Out :=
  fpLanes s (ownLane [a.toNat, d.toNat]) [sb.toNat] d.toNat fun t l =>
    f32Fma (t.readV s.tick a.toNat l) (t.readS s.tick sb.toNat) (t.readV s.tick d.toNat l)

/-! ### Packed BF16 and FP16 -/

/-- `FADD.B2` (R332, R333), per BF16 half. -/
def execFaddB2 (d a b : BitVec 7) (s : State) : Out := fpVR s d a b (pairHalves FpFmt.bf16.addPat)
/-- `FMUL.B2` (R332). -/
def execFmulB2 (d a b : BitVec 7) (s : State) : Out := fpVR s d a b (pairHalves FpFmt.bf16.mulPat)
/-- `FFMA.B2` (R332). -/
def execFfmaB2 (d a b : BitVec 7) (s : State) : Out := fpVRD s d a b (tripleHalves FpFmt.bf16.fmaPat)
/-- `FMAX.B2` (R336). -/
def execFmaxB2 (d a b : BitVec 7) (s : State) : Out := fpVR s d a b (pairHalves (FpFmt.bf16.minmax true false))
/-- `FMIN.B2` (R336). -/
def execFminB2 (d a b : BitVec 7) (s : State) : Out := fpVR s d a b (pairHalves (FpFmt.bf16.minmax false false))

/-- `FADD.H2` (R332, R333), per FP16 half. -/
def execFaddH2 (d a b : BitVec 7) (s : State) : Out := fpVR s d a b (pairHalves FpFmt.fp16.addPat)
/-- `FMUL.H2` (R332). -/
def execFmulH2 (d a b : BitVec 7) (s : State) : Out := fpVR s d a b (pairHalves FpFmt.fp16.mulPat)
/-- `FFMA.H2` (R332). -/
def execFfmaH2 (d a b : BitVec 7) (s : State) : Out := fpVRD s d a b (tripleHalves FpFmt.fp16.fmaPat)
/-- `FMAX.H2` (R336). -/
def execFmaxH2 (d a b : BitVec 7) (s : State) : Out := fpVR s d a b (pairHalves (FpFmt.fp16.minmax true false))
/-- `FMIN.H2` (R336). -/
def execFminH2 (d a b : BitVec 7) (s : State) : Out := fpVR s d a b (pairHalves (FpFmt.fp16.minmax false false))

end Sys2Proof.Machine
end

