-- ==== Sys2Proof/Machine/XPipe.lean ====
section
/-! DEFINITION. The elementary functions of pipe X, counted on SETA (R120, R122, R330, R364, R380, R410). -/

namespace Sys2Proof.Machine

/-- `RCPS` (R380). -/
def execRcps (d a : BitVec 7) (s : State) : Out := countedLanes s a.toNat d.toNat rcpSeed
/-- `RSQS` (R380). -/
def execRsqs (d a : BitVec 7) (s : State) : Out := countedLanes s a.toNat d.toNat rsqSeed
/-- `EXP2` (R330). -/
def execExp2 (d a : BitVec 7) (s : State) : Out := countedLanes s a.toNat d.toNat exp2Value
/-- `LOG2` (R364). -/
def execLog2 (d a : BitVec 7) (s : State) : Out := countedLanes s a.toNat d.toNat log2Value
/-- `TANH` (R410). -/
def execTanh (d a : BitVec 7) (s : State) : Out := countedLanes s a.toNat d.toNat tanhValue

end Sys2Proof.Machine
end

