-- ==== Sys2Proof/Machine/Dispatch.lean ====
section
/-! DEFINITION. Which meaning each instruction and each event has: one arm for each. -/

namespace Sys2Proof.Machine

/-- The effect of one instruction of the current run, or of one event. -/
def exec (i : Instr) (s : State) : Host.Outcome State Fault Refusal :=
  match i with
  | .nop _ => Sys2Proof.Machine.execNop s
  | .exit => Sys2Proof.Machine.execExit s
  | .yield => Sys2Proof.Machine.execYield s
  | .brkpt _ imm => Sys2Proof.Machine.execBrkpt imm s
  | .sigck _ imm => Sys2Proof.Machine.execSigck imm s
  | .evt _ imm => Sys2Proof.Machine.execEvt imm s
  | .rgnb _ imm => Sys2Proof.Machine.execRgnb imm s
  | .rgne _ => Sys2Proof.Machine.execRgne s
  | .gbar => Sys2Proof.Machine.execGbar s
  | .iaddSr _ d a b => Sys2Proof.Machine.execIaddSr d a b s
  | .isubSr _ d a b => Sys2Proof.Machine.execIsubSr d a b s
  | .imulSr _ d a b => Sys2Proof.Machine.execImulSr d a b s
  | .imulhSr _ d a b => Sys2Proof.Machine.execImulhSr d a b s
  | .imulhUSr _ d a b => Sys2Proof.Machine.execImulhUSr d a b s
  | .andSr _ d a b => Sys2Proof.Machine.execAndSr d a b s
  | .orSr _ d a b => Sys2Proof.Machine.execOrSr d a b s
  | .xorSr _ d a b => Sys2Proof.Machine.execXorSr d a b s
  | .andnSr _ d a b => Sys2Proof.Machine.execAndnSr d a b s
  | .shlSr _ d a b => Sys2Proof.Machine.execShlSr d a b s
  | .shrSr _ d a b => Sys2Proof.Machine.execShrSr d a b s
  | .sraSr _ d a b => Sys2Proof.Machine.execSraSr d a b s
  | .iminSr _ d a b => Sys2Proof.Machine.execIminSr d a b s
  | .imaxSr _ d a b => Sys2Proof.Machine.execImaxSr d a b s
  | .iminUSr _ d a b => Sys2Proof.Machine.execIminUSr d a b s
  | .imaxUSr _ d a b => Sys2Proof.Machine.execImaxUSr d a b s
  | .sltSr _ d a b => Sys2Proof.Machine.execSltSr d a b s
  | .sltUSr _ d a b => Sys2Proof.Machine.execSltUSr d a b s
  | .idivu _ d a b => Sys2Proof.Machine.execIdivu d a b s
  | .iremu _ d a b => Sys2Proof.Machine.execIremu d a b s
  | .iadd64 _ d a b => Sys2Proof.Machine.execIadd64 d a b s
  | .isub64 _ d a b => Sys2Proof.Machine.execIsub64 d a b s
  | .iaddSi _ d a imm => Sys2Proof.Machine.execIaddSi d a imm s
  | .andSi _ d a imm => Sys2Proof.Machine.execAndSi d a imm s
  | .orSi _ d a imm => Sys2Proof.Machine.execOrSi d a imm s
  | .xorSi _ d a imm => Sys2Proof.Machine.execXorSi d a imm s
  | .shlSi _ d a imm => Sys2Proof.Machine.execShlSi d a imm s
  | .shrSi _ d a imm => Sys2Proof.Machine.execShrSi d a imm s
  | .sraSi _ d a imm => Sys2Proof.Machine.execSraSi d a imm s
  | .sltSi _ d a imm => Sys2Proof.Machine.execSltSi d a imm s
  | .lui _ d imm => Sys2Proof.Machine.execLui d imm s
  | .gets _ d n => Sys2Proof.Machine.execGets d n s
  | .ldScalar _ d b z o => Sys2Proof.Machine.execLdScalar d b z o s
  | .stScalar _ d b z o => Sys2Proof.Machine.execStScalar d b z o s
  | .iaddVr _ d a b => Sys2Proof.Machine.execIaddVr d a b s
  | .isubVr _ d a b => Sys2Proof.Machine.execIsubVr d a b s
  | .imulVr _ d a b => Sys2Proof.Machine.execImulVr d a b s
  | .imulhVr _ d a b => Sys2Proof.Machine.execImulhVr d a b s
  | .imulhUVr _ d a b => Sys2Proof.Machine.execImulhUVr d a b s
  | .andVr _ d a b => Sys2Proof.Machine.execAndVr d a b s
  | .orVr _ d a b => Sys2Proof.Machine.execOrVr d a b s
  | .xorVr _ d a b => Sys2Proof.Machine.execXorVr d a b s
  | .andnVr _ d a b => Sys2Proof.Machine.execAndnVr d a b s
  | .shlVr _ d a b => Sys2Proof.Machine.execShlVr d a b s
  | .shrVr _ d a b => Sys2Proof.Machine.execShrVr d a b s
  | .sraVr _ d a b => Sys2Proof.Machine.execSraVr d a b s
  | .iminVr _ d a b => Sys2Proof.Machine.execIminVr d a b s
  | .imaxVr _ d a b => Sys2Proof.Machine.execImaxVr d a b s
  | .iminUVr _ d a b => Sys2Proof.Machine.execIminUVr d a b s
  | .imaxUVr _ d a b => Sys2Proof.Machine.execImaxUVr d a b s
  | .iaddVi _ d a imm => Sys2Proof.Machine.execIaddVi d a imm s
  | .andVi _ d a imm => Sys2Proof.Machine.execAndVi d a imm s
  | .shlVi _ d a imm => Sys2Proof.Machine.execShlVi d a imm s
  | .shrVi _ d a imm => Sys2Proof.Machine.execShrVi d a imm s
  | .iaddP16 _ d a b => Sys2Proof.Machine.execIaddP16 d a b s
  | .isubP16 _ d a b => Sys2Proof.Machine.execIsubP16 d a b s
  | .iaddsP16 _ d a b => Sys2Proof.Machine.execIaddsP16 d a b s
  | .isubsP16 _ d a b => Sys2Proof.Machine.execIsubsP16 d a b s
  | .imaxP16 _ d a b => Sys2Proof.Machine.execImaxP16 d a b s
  | .iminP16 _ d a b => Sys2Proof.Machine.execIminP16 d a b s
  | .cmpvGtP16 _ d a b => Sys2Proof.Machine.execCmpvGtP16 d a b s
  | .iaddP8 _ d a b => Sys2Proof.Machine.execIaddP8 d a b s
  | .isubP8 _ d a b => Sys2Proof.Machine.execIsubP8 d a b s
  | .iaddsUP8 _ d a b => Sys2Proof.Machine.execIaddsUP8 d a b s
  | .imaxUP8 _ d a b => Sys2Proof.Machine.execImaxUP8 d a b s
  | .iminUP8 _ d a b => Sys2Proof.Machine.execIminUP8 d a b s
  | .permb _ d a b => Sys2Proof.Machine.execPermb d a b s
  | .pack16 _ d a b => Sys2Proof.Machine.execPack16 d a b s
  | .unpk16Lo _ d a _ => Sys2Proof.Machine.execUnpk16Lo d a s
  | .unpk16Hi _ d a _ => Sys2Proof.Machine.execUnpk16Hi d a s
  | .li _ d imm => Sys2Proof.Machine.execLi d imm s
  | .sel _ d a b k => Sys2Proof.Machine.execSel d a b k s
  | .bcast _ d sb => Sys2Proof.Machine.execBcast d sb s
  | .iaddVs _ d a sb => Sys2Proof.Machine.execIaddVs d a sb s
  | .imulVs _ d a sb => Sys2Proof.Machine.execImulVs d a sb s
  | .faddVs _ d a sb => Sys2Proof.Machine.execFaddVs d a sb s
  | .fmulVs _ d a sb => Sys2Proof.Machine.execFmulVs d a sb s
  | .ffmaVs _ d a sb => Sys2Proof.Machine.execFfmaVs d a sb s
  | .laneid _ d sb => Sys2Proof.Machine.execLaneid d sb s
  | .rand _ d sb => Sys2Proof.Machine.execRand d sb s
  | .samp _ d a sb => Sys2Proof.Machine.execSamp d a sb s
  | .rdlane _ d a sb => Sys2Proof.Machine.execRdlane d a sb s
  | .popc _ d a => Sys2Proof.Machine.execPopc d a s
  | .clz _ d a => Sys2Proof.Machine.execClz d a s
  | .fadd _ d a b => Sys2Proof.Machine.execFadd d a b s
  | .fsub _ d a b => Sys2Proof.Machine.execFsub d a b s
  | .fmul _ d a b => Sys2Proof.Machine.execFmul d a b s
  | .ffma _ d a b => Sys2Proof.Machine.execFfma d a b s
  | .ffms _ d a b => Sys2Proof.Machine.execFfms d a b s
  | .fnfma _ d a b => Sys2Proof.Machine.execFnfma d a b s
  | .fmin _ d a b => Sys2Proof.Machine.execFmin d a b s
  | .fmax _ d a b => Sys2Proof.Machine.execFmax d a b s
  | .fminn _ d a b => Sys2Proof.Machine.execFminn d a b s
  | .fmaxn _ d a b => Sys2Proof.Machine.execFmaxn d a b s
  | .fabs _ d a => Sys2Proof.Machine.execFabs d a s
  | .fneg _ d a => Sys2Proof.Machine.execFneg d a s
  | .fcps _ d a b => Sys2Proof.Machine.execFcps d a b s
  | .twosum _ d a b => Sys2Proof.Machine.execTwosum d a b s
  | .twoprod _ d a b => Sys2Proof.Machine.execTwoprod d a b s
  | .fclass _ d a => Sys2Proof.Machine.execFclass d a s
  | .cmp _ k a b o t => Sys2Proof.Machine.execCmp k a b o t s
  | .faddB2 _ d a b => Sys2Proof.Machine.execFaddB2 d a b s
  | .fmulB2 _ d a b => Sys2Proof.Machine.execFmulB2 d a b s
  | .ffmaB2 _ d a b => Sys2Proof.Machine.execFfmaB2 d a b s
  | .fmaxB2 _ d a b => Sys2Proof.Machine.execFmaxB2 d a b s
  | .fminB2 _ d a b => Sys2Proof.Machine.execFminB2 d a b s
  | .faddH2 _ d a b => Sys2Proof.Machine.execFaddH2 d a b s
  | .fmulH2 _ d a b => Sys2Proof.Machine.execFmulH2 d a b s
  | .ffmaH2 _ d a b => Sys2Proof.Machine.execFfmaH2 d a b s
  | .fmaxH2 _ d a b => Sys2Proof.Machine.execFmaxH2 d a b s
  | .fminH2 _ d a b => Sys2Proof.Machine.execFminH2 d a b s
  | .cbx _ d a imm => Sys2Proof.Machine.execCbx d a imm s
  | .cbnear _ d a imm => Sys2Proof.Machine.execCbnear d a imm s
  | .cbld _ a imm => Sys2Proof.Machine.execCbld a imm s
  | .cvt _ d a o r sb => Sys2Proof.Machine.execCvt d a o r sb s
  | .rcps _ d a => Sys2Proof.Machine.execRcps d a s
  | .rsqs _ d a => Sys2Proof.Machine.execRsqs d a s
  | .exp2 _ d a => Sys2Proof.Machine.execExp2 d a s
  | .log2 _ d a => Sys2Proof.Machine.execLog2 d a s
  | .tanh _ d a => Sys2Proof.Machine.execTanh d a s
  | .qswap _ d a imm => Sys2Proof.Machine.execQswap d a imm s
  | .qbc _ d a imm => Sys2Proof.Machine.execQbc d a imm s
  | .qred _ d a imm => Sys2Proof.Machine.execQred d a imm s
  | .qfill _ => Sys2Proof.Machine.execQfill s
  | .shflAt _ d a sb => Sys2Proof.Machine.execShflAt d a sb s
  | .shflRot _ d a sb => Sys2Proof.Machine.execShflRot d a sb s
  | .shflShift _ d a sb => Sys2Proof.Machine.execShflShift d a sb s
  | .shflMirr _ d a sb => Sys2Proof.Machine.execShflMirr d a sb s
  | .redAddI _ d a => Sys2Proof.Machine.execRedAddI d a s
  | .redAddF _ d a => Sys2Proof.Machine.execRedAddF d a s
  | .redMaxF _ d a => Sys2Proof.Machine.execRedMaxF d a s
  | .redMinF _ d a => Sys2Proof.Machine.execRedMinF d a s
  | .redMaxI _ d a => Sys2Proof.Machine.execRedMaxI d a s
  | .redMinI _ d a => Sys2Proof.Machine.execRedMinI d a s
  | .redMaxixF _ d a b => Sys2Proof.Machine.execRedMaxixF d a b s
  | .redMinixF _ d a b => Sys2Proof.Machine.execRedMinixF d a b s
  | .scanAddI _ d a => Sys2Proof.Machine.execScanAddI d a s
  | .scanAddF _ d a => Sys2Proof.Machine.execScanAddF d a s
  | .shflVar _ d a b => Sys2Proof.Machine.execShflVar d a b s
  | .redMaxixH _ d a b => Sys2Proof.Machine.execRedMaxixH d a b s
  | .ballot _ d a => Sys2Proof.Machine.execBallot d a s
  | .kany _ a k => Sys2Proof.Machine.execKany a k s
  | .kall _ a k => Sys2Proof.Machine.execKall a k s
  | .kpop _ a k => Sys2Proof.Machine.execKpop a k s
  | .krank _ d a => Sys2Proof.Machine.execKrank d a s
  | .kand _ k a b => Sys2Proof.Machine.execKand k a b s
  | .kor _ k a b => Sys2Proof.Machine.execKor k a b s
  | .kxor _ k a b => Sys2Proof.Machine.execKxor k a b s
  | .kandn _ k a b => Sys2Proof.Machine.execKandn k a b s
  | .knot _ k a => Sys2Proof.Machine.execKnot k a s
  | .kmov _ k a => Sys2Proof.Machine.execKmov k a s
  | .kset _ k => Sys2Proof.Machine.execKset k s
  | .kclr _ k => Sys2Proof.Machine.execKclr k s
  | .kfromv _ k v => Sys2Proof.Machine.execKfromv k v s
  | .kbit _ k a n => Sys2Proof.Machine.execKbit k a n s
  | .ifK k o => Sys2Proof.Machine.execIfK k o s
  | .elseK o => Sys2Proof.Machine.execElseK o s
  | .endIf _ => Sys2Proof.Machine.execEndIf s
  | .brkIf _ k o => Sys2Proof.Machine.execBrkIf k o s
  | .loop _ o => Sys2Proof.Machine.execLoop o s
  | .endLp o => Sys2Proof.Machine.execEndLp o s
  | .regrp v o => Sys2Proof.Machine.execRegrp v o s
  | .endrg => Sys2Proof.Machine.execEndrg s
  | .bra o => Sys2Proof.Machine.execBra o s
  | .brc k sb o => Sys2Proof.Machine.execBrc k sb o s
  | .call o => Sys2Proof.Machine.execCall o s
  | .callr sb => Sys2Proof.Machine.execCallr sb s
  | .ret => Sys2Proof.Machine.execRet s
  | .jmpr sb => Sys2Proof.Machine.execJmpr sb s
  | .ldVector _ d b imm z p => Sys2Proof.Machine.execLdVector d b imm z p s
  | .stVector _ d b imm z p => Sys2Proof.Machine.execStVector d b imm z p s
  | .ldl _ d b imm z => Sys2Proof.Machine.execLdl d b imm z s
  | .stl _ d b imm z => Sys2Proof.Machine.execStl d b imm z s
  | .ldt _ d t imm => Sys2Proof.Machine.execLdt d t imm s
  | .stt _ d t imm => Sys2Proof.Machine.execStt d t imm s
  | .atom _ d a o e sb => Sys2Proof.Machine.execAtom d a o e sb s
  | .lmon _ a sb => Sys2Proof.Machine.execLmon a sb s
  | .waitm a sb => Sys2Proof.Machine.execWaitm a sb s
  | .fence _ k sb => Sys2Proof.Machine.execFence k sb s
  | .lpub _ sb x => Sys2Proof.Machine.execLpub sb x s
  | .lmark _ sb x => Sys2Proof.Machine.execLmark sb x s
  | .lacq _ sb x y => Sys2Proof.Machine.execLacq sb x y s
  | .binit _ b sb => Sys2Proof.Machine.execBinit b sb s
  | .barr _ b sb => Sys2Proof.Machine.execBarr b sb s
  | .bwait b sb => Sys2Proof.Machine.execBwait b sb s
  | .barw b sb => Sys2Proof.Machine.execBarw b sb s
  | .bphase _ b sb => Sys2Proof.Machine.execBphase b sb s
  | .bexp _ b sb => Sys2Proof.Machine.execBexp b sb s
  | .tdef _ t sb => Sys2Proof.Machine.execTdef t sb s
  | .tacq _ t => Sys2Proof.Machine.execTacq t s
  | .trdy _ t => Sys2Proof.Machine.execTrdy t s
  | .trel _ t => Sys2Proof.Machine.execTrel t s
  | .tstat _ t sb => Sys2Proof.Machine.execTstat t sb s
  | .thand _ sb => Sys2Proof.Machine.execThand sb s
  | .tadopt _ sb => Sys2Proof.Machine.execTadopt sb s
  | .cpyG2t _ x y z b => Sys2Proof.Machine.execCpyG2t x y z b s
  | .cpyT2g _ x y z b => Sys2Proof.Machine.execCpyT2g x y z b s
  | .cpyL2l _ x y z b => Sys2Proof.Machine.execCpyL2l x y z b s
  | .cpyG2g _ x y z b => Sys2Proof.Machine.execCpyG2g x y z b s
  | .cpyG2l _ x y z b => Sys2Proof.Machine.execCpyG2l x y z b s
  | .cpyL2g _ x y z b => Sys2Proof.Machine.execCpyL2g x y z b s
  | .gather _ x y z b => Sys2Proof.Machine.execGather x y z b s
  | .mldwTile _ t _ => Sys2Proof.Machine.execMldwTile t s
  | .mldwHandle _ p _ => Sys2Proof.Machine.execMldwHandle p s
  | .mma _ t g sb _ _ => Sys2Proof.Machine.execMma t g sb s
  | .mz _ sb n => Sys2Proof.Machine.execMz sb n s
  | .mdrn _ sb => Sys2Proof.Machine.execMdrn sb s
  | .mrst _ sb => Sys2Proof.Machine.execMrst sb s
  | .mrel _ => Sys2Proof.Machine.execMrel s
  | .accrd _ d a b => Sys2Proof.Machine.execAccrd d a b s
  | .accrdF _ d a b => Sys2Proof.Machine.execAccrdF d a b s
  | .accwr _ d a b => Sys2Proof.Machine.execAccwr d a b s
  | .accwrF _ d a b => Sys2Proof.Machine.execAccwrF d a b s
  | .put _ x y z b => Sys2Proof.Machine.execPut x y z b s
  | .puts _ x y z b => Sys2Proof.Machine.execPuts x y z b s
  | .get _ x y z b => Sys2Proof.Machine.execGet x y z b s
  | .csend _ x y z b => Sys2Proof.Machine.execCsend x y z b s
  | .rsig _ x y z b => Sys2Proof.Machine.execRsig x y z b s
  | .spawn _ x y z b => Sys2Proof.Machine.execSpawn x y z b s
  | .hpass _ x y z b => Sys2Proof.Machine.execHpass x y z b s
  | .getx _ sb x => Sys2Proof.Machine.execGetx sb x s
  | .setx _ sb x => Sys2Proof.Machine.execSetx sb x s
  | .sysc imm => Sys2Proof.Machine.execSysc imm s
  | .rett => Sys2Proof.Machine.execRett s
  | .hcall imm => Sys2Proof.Machine.execHcall imm s
  | .tlbi _ a => Sys2Proof.Machine.execTlbi a s
  | .tlbiAll _ => Sys2Proof.Machine.execTlbiAll s
  | .dict c h w imm x j => Sys2Proof.Machine.execDict c h w imm x j s
  | .runStart core slot => Sys2Proof.Machine.execRunStart core slot s
  | .teamPromote team => Sys2Proof.Machine.execTeamPromote team s
  | .operationComplete team op => Sys2Proof.Machine.execOperationComplete team op s
  | .walkComplete die ctx page => Sys2Proof.Machine.execWalkComplete die ctx page s
  | .trapEntry team => Sys2Proof.Machine.execTrapEntry team s
  | .regionRollback team => Sys2Proof.Machine.execRegionRollback team s
  | .ladleGrant launch => Sys2Proof.Machine.execLadleGrant launch s
  | .regrpForm block => Sys2Proof.Machine.execRegrpForm block s
  | .endrgReturn block => Sys2Proof.Machine.execEndrgReturn block s
  | .teamWake team => Sys2Proof.Machine.execTeamWake team s
  | .teamEnd team => Sys2Proof.Machine.execTeamEnd team s
  | .blockEnd block => Sys2Proof.Machine.execBlockEnd block s
  | .budgetOut launch => Sys2Proof.Machine.execBudgetOut launch s
  | .fold core => Sys2Proof.Machine.execFold core s
  | .rebase => Sys2Proof.Machine.execRebase s
  | .engineCommandIssue team => Sys2Proof.Machine.execEngineCommandIssue team s
  | .copyUnit cmd unit => Sys2Proof.Machine.execCopyUnit cmd unit s
  | .copyComplete cmd => Sys2Proof.Machine.execCopyComplete cmd s
  | .reservationGrant cluster => Sys2Proof.Machine.execReservationGrant cluster s
  | .reservationRetire cluster entry => Sys2Proof.Machine.execReservationRetire cluster entry s
  | .reservationPromote cluster entry => Sys2Proof.Machine.execReservationPromote cluster entry s
  | .packetSend cmd => Sys2Proof.Machine.execPacketSend cmd s
  | .flitReceive port flit crc replay acked credits => Sys2Proof.Machine.execFlitReceive port flit crc replay acked credits s
  | .linkRetrain port => Sys2Proof.Machine.execLinkRetrain port s
  | .putDataPacket port packet => Sys2Proof.Machine.execPutDataPacket port packet s
  | .putsDataPacket port packet => Sys2Proof.Machine.execPutsDataPacket port packet s
  | .signalPacket port packet => Sys2Proof.Machine.execSignalPacket port packet s
  | .getRequestPacket port packet => Sys2Proof.Machine.execGetRequestPacket port packet s
  | .getResponsePacket port packet poison => Sys2Proof.Machine.execGetResponsePacket port packet poison s
  | .collectiveChunk port packet => Sys2Proof.Machine.execCollectiveChunk port packet s
  | .ackPacket port packet => Sys2Proof.Machine.execAckPacket port packet s
  | .nackPacket port packet translation => Sys2Proof.Machine.execNackPacket port packet translation s
  | .controlPacket port packet => Sys2Proof.Machine.execControlPacket port packet s
  | .retransmit entry => Sys2Proof.Machine.execRetransmit entry s
  | .watchdog slot => Sys2Proof.Machine.execWatchdog slot s
  | .coreOffer core => Sys2Proof.Machine.execCoreOffer core s
  | .carveChange core => Sys2Proof.Machine.execCarveChange core s
  | .governorEvaluate => Sys2Proof.Machine.execGovernorEvaluate s
  | .sliceBoundary cluster => Sys2Proof.Machine.execSliceBoundary cluster s
  | .classUpdate => Sys2Proof.Machine.execClassUpdate s
  | .evictionCheck => Sys2Proof.Machine.execEvictionCheck s
  | .blockEvict block => Sys2Proof.Machine.execBlockEvict block s
  | .blockResume image core => Sys2Proof.Machine.execBlockResume image core s
  | .fallback core hold => Sys2Proof.Machine.execFallback core hold s
  | .spawnAccept => Sys2Proof.Machine.execSpawnAccept s
  | .passRecord => Sys2Proof.Machine.execPassRecord s
  | .monitorSpuriousWake image => Sys2Proof.Machine.execMonitorSpuriousWake image s
  | .lanemapApply core => Sys2Proof.Machine.execLanemapApply core s
  | .stopTimeout tag => Sys2Proof.Machine.execStopTimeout tag s
  | .load image => Sys2Proof.Machine.execLoad image s
  | .start => Sys2Proof.Machine.execStart s
  | .signalArrival => Sys2Proof.Machine.execSignalArrival s
  | .signalWord => Sys2Proof.Machine.execSignalWord s
  | .stop => Sys2Proof.Machine.execStop s
  | .reset => Sys2Proof.Machine.execReset s
  | .ckpt => Sys2Proof.Machine.execCkpt s
  | .restore => Sys2Proof.Machine.execRestore s
  | .setseed => Sys2Proof.Machine.execSetseed s
  | .queryIdent => Sys2Proof.Machine.execQueryIdent s
  | .queryHealth => Sys2Proof.Machine.execQueryHealth s
  | .queryAttest => Sys2Proof.Machine.execQueryAttest s
  | .queryEvents => Sys2Proof.Machine.execQueryEvents s
  | .queryCapture => Sys2Proof.Machine.execQueryCapture s
  | .badcmd => Sys2Proof.Machine.execBadcmd s
  | .cqheadWrite value => Sys2Proof.Machine.execCqheadWrite value s
  | .registerWrite window offset value => Sys2Proof.Machine.execRegisterWrite window offset value s
  | .hostApertureWrite offset value => Sys2Proof.Machine.execHostApertureWrite offset value s
  | .hostApertureRead bar offset count => Sys2Proof.Machine.execHostApertureRead bar offset count s
  | .debugEnableWrite value => Sys2Proof.Machine.execDebugEnableWrite value s
  | .meas7Write value => Sys2Proof.Machine.execMeas7Write value s
  | .imageKeyWrite entry key => Sys2Proof.Machine.execImageKeyWrite entry key s
  | .firmwareImageWrite image => Sys2Proof.Machine.execFirmwareImageWrite image s
  | .edgeViewPass => Sys2Proof.Machine.execEdgeViewPass s
  | .coldStart => Sys2Proof.Machine.execColdStart s
  | .warmResetPin => Sys2Proof.Machine.execWarmResetPin s
  | .powerLoss => Sys2Proof.Machine.execPowerLoss s
  | .monitorSample temps rails process power flow => Sys2Proof.Machine.execMonitorSample temps rails process power flow s
  | .clockStepUp => Sys2Proof.Machine.execClockStepUp s
  | .eccError kind unit place uncorrectable => Sys2Proof.Machine.execEccError kind unit place uncorrectable s
  | .stackLost stack => Sys2Proof.Machine.execStackLost stack s
  | .hbmScrub => Sys2Proof.Machine.execHbmScrub s
  | .eventRecord => Sys2Proof.Machine.execEventRecord s
  | .ringWrite => Sys2Proof.Machine.execRingWrite s
  | .ringHeaderWrite => Sys2Proof.Machine.execRingHeaderWrite s
  | .sample core team => Sys2Proof.Machine.execSample core team s
  | .ckptComplete => Sys2Proof.Machine.execCkptComplete s
  | .restoreComplete => Sys2Proof.Machine.execRestoreComplete s
  | .l2SectorEvict sector => Sys2Proof.Machine.execL2SectorEvict sector s
  | .l1LineEvict core sector => Sys2Proof.Machine.execL1LineEvict core sector s
  | .ptpMessage time => Sys2Proof.Machine.execPtpMessage time s

end Sys2Proof.Machine
end

