-- ==== Sys2Proof/Machine/Scheduler.lean ====
section
/-! DEFINITION. What the machine does by itself when the agenda lists nothing (log entry 1): the start-up steps, then in turn each step that
is due. -/

namespace Sys2Proof.Machine

/-- A step that is due: the next instruction of a team's run, or an event's effect. -/
inductive Due where
  | run (k : Nat)
  | act (f : State → Out)

/-- The command record next in the submission ring, as the event that performs it. -/
def dueCommand (s : State) : List Due :=
  match nextRecord s with
  | none => []
  | some r =>
    [.act (if !cmdCrcOk r then execBadcmd
      else match cmdCode r, fieldAt r 16 1 with
        | 1, _ => execLoad []
        | 2, _ => execStart
        | 3, 1 => execSignalWord
        | 3, _ => execSignalArrival
        | 4, _ => execStop
        | 5, _ => execReset
        | 6, _ => execCkpt
        | 7, _ => execRestore
        | 8, _ => execSetseed
        | 9, 1 => execQueryHealth
        | 9, 2 => execQueryAttest
        | 9, 3 => execQueryEvents
        | 9, 4 => execQueryCapture
        | 9, _ => execQueryIdent
        | _, _ => execBadcmd)]

/-- What a team may do next. -/
def dueTeam (s : State) (k : Nat) (t : Team) : List Due :=
  (match t.run with
    | none => []
    | some r =>
      if t.ops.any fun o => r.hold == some (.onOp o.num) then [] else [.run k])
    ++ ((t.ops.find? fun o => !o.waits || t.isParkedOp o.num).map fun o => Due.act (execOperationComplete k o.num)).toList
    ++ (t.parked.flatMap fun p => if p.framed then [] else
        (p.openLanes.take 1).map fun x => Due.act (execWalkComplete (dieOfCore (coreOfTeam k)) (s.ctxOf t) (x.2.1 / 65536)))
    ++ (if t.due.isEmpty && t.rolling.isEmpty && t.opening.isNone then [] else [.act (execTrapEntry k), .act (execRegionRollback k)])
    ++ (match t.wait with
      | none => if t.gone && !t.ended then [.act (execTeamEnd k)] else []
      | some (.regroup endForm _ _) => [.act (if endForm then execEndrgReturn t.block else execRegrpForm t.block)]
      | some _ => [.act (execTeamWake k)])

/-- What a block may do next. -/
def dueBlock (s : State) (bk : Nat) (b : Block) : List Due :=
  (if (s.teamsOfBlock bk).all fun kt => kt.2.ended then [.act (execBlockEnd bk)] else [])
    ++ if b.leaving || blockStopped s b then [.act (execBlockEvict bk)] else []

/-- What a core may do next, its teams apart. -/
def dueCore (s : State) (c : Nat) (x : Core) : List Due :=
  (if (s.blocksOfCore c).isEmpty then [] else
      (if x.slotA.isNone then [.act (execRunStart c 0)] else []) ++ if x.slotB.isNone then [.act (execRunStart c 1)] else [])
    ++ (if x.log.any fun e => e.pub then [.act (execFold c)] else [])
    ++ (if x.newmap.isSome then [.act (execLanemapApply c)] else [])
    ++ (x.holds.filterMap fun kh => kh.2.exitAt.map fun _ => Due.act (execFallback c kh.1))

/-- The offer whose turn it is, the evicted blocks that have become runnable, and the cores that may change their carve-out (R132,
R200). -/
def dueOffers (s : State) : List Due :=
  (match s.hub.offers with
    | c :: _ => [.act (execCoreOffer c)]
    | [] => if s.hub.evicted.any fun ke => evictedRuns s ke.1 ke.2 && ke.2.since.isNone then [.act (execCoreOffer 256)] else [])
    ++ if s.hub.queues.all (fun kq => kq.2.records.isEmpty) && s.hub.evicted.isEmpty then []
      else ((List.range 256).filter fun c => (s.blocksOfCore c).isEmpty).map fun c => .act (execCarveChange c)

/-- What a cluster's matrix engine may do next. -/
def dueCluster (cl : Nat) (x : Cluster) : List Due :=
  if x.table.isEmpty then [] else
    .act (execReservationGrant cl) :: x.table.filterMap fun kr => if kr.2.granted then some (.act (execReservationRetire cl kr.1)) else none

/-- What a command in flight may do next. -/
def dueCmd (id : Nat) (c : Cmd) : List Due :=
  if c.copies then
    ((((List.range c.units).find? fun u => !c.done.contains u).map fun u => Due.act (execCopyUnit id u)).toList) ++ [.act (execCopyComplete id)]
  else [.act (execPacketSend id)]

/-- What the recorder may do next, which a trip leaves powered (R32). -/
def dueRecorder (s : State) : List Due :=
  (if s.recorder.transit.isEmpty then [] else [.act execEventRecord]) ++ if s.recorder.intake.isEmpty then [] else [.act execRingWrite]

/-- What the walker and firmware may do next. -/
def dueHub (s : State) : List Due :=
  (match walkerNext s with
      | some (.pass _) => [.act execPassRecord]
      | some _ => [.act execSpawnAccept]
      | none => [])
    ++ (s.launches.filterMap fun kl => if kl.2.determ && !kl.2.ended then some (.act (execLadleGrant kl.1)) else none)
    ++ (s.launches.filterMap fun kl => if kl.2.budget == 0 && !kl.2.ended then some (.act (execBudgetOut kl.1)) else none)
    ++ (if s.module.pending.isEmpty then [] else [.act execCkptComplete, .act execRestoreComplete])

/-- The turns that may have an effect, none of which waits for a place, a clock or an agent outside. -/
def dueTurns (s : State) : List Due :=
  if s.module.tripped then dueCommand s ++ dueRecorder s
  else dueCommand s ++ (s.teams.flatMap fun kt => dueTeam s kt.1 kt.2) ++ (s.blocks.flatMap fun kb => dueBlock s kb.1 kb.2)
    ++ (s.cores.flatMap fun kc => dueCore s kc.1 kc.2) ++ dueOffers s ++ (s.clusters.flatMap fun kc => dueCluster kc.1 kc.2)
    ++ (s.cmds.flatMap fun kc => dueCmd kc.1 kc.2) ++ dueHub s ++ dueRecorder s

/-- The turn the machine takes by itself when the agenda is empty: the start-up steps while the channel is closed, else the turns that are
due, each in its round. -/
def dueStep (s : State) : Option Due :=
  if !s.module.channel then some (.act execColdStart)
  else
    let ts := dueTurns s
    ts[s.cycles % ts.length]?

end Sys2Proof.Machine
end

