-- ==== Sys2Proof/Machine/Step.lean ====
section
/-! DEFINITION. One step of the machine: the next turn of the agenda, or, with none listed, the current run's next
instruction, or the event the machine's own scheduler takes (log entry 1). -/

namespace Sys2Proof.Machine

/-- An event takes its turn. -/
def stepEvent (i : Instr) (s : State) : Host.Outcome State Fault Refusal :=
  if happens s i then roomFor s (exec i (passTime s)) else .next (passTime s)

/-- The next instruction of the current team's run; a run with none left, its last word held, ends (R66). -/
def stepRun (s : State) : Host.Outcome State Fault Refusal :=
  match headItem s with
  | none => roomFor s (.next (endHeld (passTime s)))
  | some it =>
    match decodeWord it.full with
    | .error _ => .next (finishInstr (badWord (beginInstr s)))
    | .ok i =>
      roomFor s
        (match exec i (beginInstr s) with
          | .next s' => .next (finishInstr s')
          | .fault r => .fault r
          | .refused r => .refused r)

/-- The run of a team goes on by one instruction, unless it is held. -/
def stepTeam (k : Nat) (s : State) : Host.Outcome State Fault Refusal :=
  let s := { s with cur := k }
  if heldRun s then .next (passTime s) else stepRun s

/-- A turn: an event, or the run of the team in an issue slot. -/
def stepTurn (x : Turn) (s : State) : Host.Outcome State Fault Refusal :=
  match x with
  | .event i => stepEvent i s
  | .slot core slot =>
    match slotTeam s core slot with
    | none => .next (passTime s)
    | some k => stepTeam k s

/-- One step. -/
def step (s : State) : Host.Outcome State Fault Refusal :=
  match s.agenda with
  | x :: rest => stepTurn x { s with agenda := rest }
  | [] =>
    if (headItem s).isSome && !heldRun s then stepRun s
    else
      match dueStep s with
      | some (.run k) => stepTeam k s
      | some (.act f) => roomFor s (f (passTime s))
      | none => .next (passTime s)

/-- A machine whose next step runs the word `w` first: one team of 32 lanes in U on core 0, resident, its run fetched and
issuing (log entry 7). Bits 31:0 of `w` are the word (R58); an instruction is one word, so bits above are not read. -/
def State.withFetchWord (s : State) (_nbits w : Nat) : State := placeWord s (w % 4294967296)

end Sys2Proof.Machine
end

