-- ==== Sys2Proof/Safety.lean ====
section
/-! DEFINITION. The terms the claims are stated in: what a safe state and step are, what a register holds, what a team's step
leaves alone, what an instruction writes. -/

namespace Sys2Proof.Machine

/-- The home slices hold their contents in the one canonical form: addresses strictly rising, no byte listed at the value
an unlisted one reads as, and the same of fold tags and poison. -/
def Home.wf (h : Home) : Prop :=
  Sparse.wf 0#8 h.mem = true ∧ Sparse.wf (0, 0) h.fold = true ∧ Sparse.wf false h.poison = true

/-- A step that does not stop the machine. -/
def Safe (s : State) : Prop := ∃ s', step s = .next s'

end Sys2Proof.Machine

namespace Sys2Proof.Claims

open Sys2Proof.Machine

/-! ### What a register holds -/

/-- What vector register `r` of lane `l` holds now. -/
def vreg (t : Team) (r l : Nat) : Word := Sparse.get 0#32 t.regs.v (vKey t.mode r l)
/-- What scalar register `r` holds now. -/
def sreg (t : Team) (r : Nat) : Word := if r = 0 then 0#32 else Sparse.get 0#32 t.regs.s (sKey t.mode r)
/-- What mask register `r` holds now. -/
def kreg (t : Team) (r : Nat) : Mask := Sparse.get 0#1024 t.regs.k (kKey t.mode r)

/-- No register the team reads is poisoned (R273). -/
def Clean (t : Team) : Prop := t.view.vPoison = [] ∧ t.view.sPoison = []

/-! ### What a step leaves alone -/

/-- The team `u` is `t` but for its registers: the outstanding operations too are the same but for the note of what the program
wrote beside them (R67). -/
def OnlyRegs (t u : Team) : Prop :=
  { u with regs := t.regs, ops := t.ops } = t ∧
    u.ops.map (fun o => { o with dirty := [] }) = t.ops.map fun o => { o with dirty := [] }

/-- From `t` to `u` the vector elements of register `d` in the lanes `ls` become `f`, unpoisoned, and nothing else of the team
changes. -/
def WritesLanes (t u : Team) (d : Nat) (ls : List Nat) (f : Nat → Word) : Prop :=
  OnlyRegs t u ∧ { u.regs with v := t.regs.v, vPoison := t.regs.vPoison } = t.regs ∧
    (∀ l ∈ ls, vreg u d l = f l ∧ Sparse.get false u.regs.vPoison (vKey t.mode d l) = false) ∧
    ∀ key, (∀ l ∈ ls, key ≠ vKey t.mode d l) →
      Sparse.get 0#32 u.regs.v key = Sparse.get 0#32 t.regs.v key ∧
        Sparse.get false u.regs.vPoison key = Sparse.get false t.regs.vPoison key

/-- The same with the sticky flags `g` raised (R109). -/
def WritesLanesFlags (t u : Team) (d : Nat) (ls : List Nat) (f : Nat → Word) (g : FpFlags) : Prop :=
  u.regs.fflags = t.regs.fflags ||| g ∧ WritesLanes t { u with regs := { u.regs with fflags := t.regs.fflags } } d ls f

/-- From `t` to `u` the elements of two registers `d` and `d + 1` in the lanes `ls` become `f` and `g`, and nothing else of the
team changes. -/
def WritesPairs (t u : Team) (d : Nat) (ls : List Nat) (f g : Nat → Word) : Prop :=
  OnlyRegs t u ∧ { u.regs with v := t.regs.v, vPoison := t.regs.vPoison } = t.regs ∧
    (∀ l ∈ ls, vreg u d l = f l ∧ vreg u (d + 1) l = g l) ∧
    ∀ key, (∀ l ∈ ls, key ≠ vKey t.mode d l ∧ key ≠ vKey t.mode (d + 1) l) →
      Sparse.get 0#32 u.regs.v key = Sparse.get 0#32 t.regs.v key ∧
        Sparse.get false u.regs.vPoison key = Sparse.get false t.regs.vPoison key

/-- From `t` to `u` scalar `d` becomes `w`, unpoisoned, and nothing else of the team changes; with `d` 0 nothing changes (R85). -/
def WritesScalar (t u : Team) (d : Nat) (w : Word) : Prop :=
  OnlyRegs t u ∧ { u.regs with s := t.regs.s, sPoison := t.regs.sPoison } = t.regs ∧ (d ≠ 0 → sreg u d = w) ∧
    ∀ key, (d = 0 ∨ key ≠ sKey t.mode d) →
      Sparse.get 0#32 u.regs.s key = Sparse.get 0#32 t.regs.s key ∧
        Sparse.get false u.regs.sPoison key = Sparse.get false t.regs.sPoison key

/-- From `t` to `u` bit `i` of mask `d`, primary and shadow, becomes `f i` for the lanes `i` of `ls`, and nothing else of the team
changes. -/
def WritesBits (t u : Team) (d : Nat) (ls : List Nat) (f : Nat → Bool) : Prop :=
  { u with regs := t.regs } = t ∧ { u.regs with k := t.regs.k, kDiff := t.regs.kDiff } = t.regs ∧
    (∀ i, i < 1024 → (kreg u d).getLsbD i = if i ∈ ls then f i else (kreg t d).getLsbD i) ∧
    (∀ i, i < 1024 → (Sparse.get 0#1024 u.regs.kDiff (kKey t.mode d)).getLsbD i =
      (!(ls.contains i) && (Sparse.get 0#1024 t.regs.kDiff (kKey t.mode d)).getLsbD i)) ∧
    ∀ key, key ≠ kKey t.mode d →
      Sparse.get 0#1024 u.regs.k key = Sparse.get 0#1024 t.regs.k key ∧
        Sparse.get 0#1024 u.regs.kDiff key = Sparse.get 0#1024 t.regs.kDiff key

/-- From `t` to `u` every lane of the team that acts traps with a cause at the instruction now issuing, or every living lane where none is
active (R98); nothing else of the team changes, and nothing at all where no lane is left to trap. -/
def TeamTraps (t u : Team) (cause : Nat) (detail : Word) (inH : Bool) (imm : BitVec 16) : Prop :=
  ∃ r, t.run = some r ∧
    let lanes := (if t.k0 = 0#1024 then t.living else t.k0) &&& ~~~r.held
    u = if lanes = 0#1024 then t
      else { t with run := some { r with
        traps := r.traps ++ [⟨lanes, cause, detail, r.item.addr, r.itemIdx, false, false, inH, imm⟩] } }

/-- Nothing of the machine but the current team changes. -/
def CurTeam (s s' : State) : Prop := ∃ u, s'.team s.cur = some u ∧ s' = s.setTeam s.cur u

/-- Every byte of home memory reads as before. -/
def SameMemory (s s' : State) : Prop := ∀ a, s'.home.byte a = s.home.byte a

end Sys2Proof.Claims
end

