-- ==== Sys2Proof/Certificates/Slice0/Obligations.lean ====
section
/-! DEFINITION. The statements about the model, each citing the rules of the manual it rests on. What an instruction reads is written
as `readS`, `readV`, `readK`: the register as the instruction sees it, with chains (R62) and outstanding results (R67). -/

namespace Sys2Proof.Claims

open Sys2Proof.Machine

/-! ### Scalar results -/

/-- Bits 31:0 and 63:32 of a product of integers, as words. -/
def wordOf (z : Int) : Word := BitVec.ofInt 32 z
/-- See `wordOf`. -/
def upperOf (z : Int) : Word := BitVec.ofInt 32 (z / 4294967296)

/-- The integer operations on two words, by arithmetic on integers (R105, R296, R347, R371, R395, R397, R415). -/
inductive WordOp where
  | add | sub | mul | mulHigh | mulHighU | and | or | xor | andn | shl | shr | sra | smin | smax | umin | umax | slt | sltu
  | div | rem

/-- What they compute. -/
def WordOp.value : WordOp → Word → Word → Word
  | .add, x, y => wordOf (x.toInt + y.toInt)
  | .sub, x, y => wordOf (x.toInt - y.toInt)
  | .mul, x, y => wordOf (x.toInt * y.toInt)
  | .mulHigh, x, y => upperOf (x.toInt * y.toInt)
  | .mulHighU, x, y => upperOf ((x.toNat : Int) * y.toNat)
  | .and, x, y => x &&& y
  | .or, x, y => x ||| y
  | .xor, x, y => x ^^^ y
  | .andn, x, y => x &&& ~~~y
  | .shl, x, y => wordOf ((x.toNat : Int) * 2 ^ (y.toNat % 32))
  | .shr, x, y => BitVec.ofNat 32 (x.toNat / 2 ^ (y.toNat % 32))
  | .sra, x, y => wordOf (x.toInt / 2 ^ (y.toNat % 32))
  | .smin, x, y => wordOf (min x.toInt y.toInt)
  | .smax, x, y => wordOf (max x.toInt y.toInt)
  | .umin, x, y => BitVec.ofNat 32 (min x.toNat y.toNat)
  | .umax, x, y => BitVec.ofNat 32 (max x.toNat y.toNat)
  | .slt, x, y => if x.toInt < y.toInt then 1#32 else 0#32
  | .sltu, x, y => if x.toNat < y.toNat then 1#32 else 0#32
  | .div, x, y => if y.toNat = 0 then 0xFFFFFFFF#32 else BitVec.ofNat 32 (x.toNat / y.toNat)
  | .rem, x, y => if y.toNat = 0 then x else BitVec.ofNat 32 (x.toNat % y.toNat)

/-- The scalar instructions with a 32-bit result: the destination and the value. -/
def scalarResult (s : State) (t : Team) : Instr → Option (Nat × Word) :=
  let sr := fun (d a b : BitVec 6) (op : WordOp) =>
    some (d.toNat, op.value (t.readS s.tick a.toNat) (t.readS s.tick b.toNat))
  let si := fun (d a : BitVec 6) (i : BitVec 10) (op : WordOp) =>
    some (d.toNat, op.value (t.readS s.tick a.toNat) (wordOf i.toInt))
  fun
  | .iaddSr _ d a b => sr d a b .add
  | .isubSr _ d a b => sr d a b .sub
  | .imulSr _ d a b => sr d a b .mul
  | .imulhSr _ d a b => sr d a b .mulHigh
  | .imulhUSr _ d a b => sr d a b .mulHighU
  | .andSr _ d a b => sr d a b .and
  | .orSr _ d a b => sr d a b .or
  | .xorSr _ d a b => sr d a b .xor
  | .andnSr _ d a b => sr d a b .andn
  | .shlSr _ d a b => sr d a b .shl
  | .shrSr _ d a b => sr d a b .shr
  | .sraSr _ d a b => sr d a b .sra
  | .iminSr _ d a b => sr d a b .smin
  | .imaxSr _ d a b => sr d a b .smax
  | .iminUSr _ d a b => sr d a b .umin
  | .imaxUSr _ d a b => sr d a b .umax
  | .sltSr _ d a b => sr d a b .slt
  | .sltUSr _ d a b => sr d a b .sltu
  | .idivu _ d a b => sr d a b .div
  | .iremu _ d a b => sr d a b .rem
  | .iaddSi _ d a i => si d a i .add
  | .andSi _ d a i => si d a i .and
  | .orSi _ d a i => si d a i .or
  | .xorSi _ d a i => si d a i .xor
  | .shlSi _ d a i => si d a i .shl
  | .shrSi _ d a i => si d a i .shr
  | .sraSi _ d a i => si d a i .sra
  | .sltSi _ d a i => si d a i .slt
  | .lui _ d i => some (d.toNat, wordOf (i.toNat * 8192))
  | _ => none

/-- The scalar pair instructions: the even destination and the 64-bit value. -/
def pairResult (s : State) (t : Team) : Instr → Option (Nat × BitVec 64)
  | .iadd64 _ d a b =>
    some (d.toNat, BitVec.ofNat 64 ((t.readPair s.tick a.toNat).toNat + (t.readPair s.tick b.toNat).toNat))
  | .isub64 _ d a b =>
    some (d.toNat, BitVec.ofInt 64 ((t.readPair s.tick a.toNat).toNat - (t.readPair s.tick b.toNat).toNat))
  | _ => none

/-- The scalar registers an instruction of pipe S reads. -/
def scalarSources : Instr → List Nat
  | .iaddSr _ _ a b | .isubSr _ _ a b | .imulSr _ _ a b | .imulhSr _ _ a b | .imulhUSr _ _ a b | .andSr _ _ a b | .orSr _ _ a b
  | .xorSr _ _ a b | .andnSr _ _ a b | .shlSr _ _ a b | .shrSr _ _ a b | .sraSr _ _ a b | .iminSr _ _ a b | .imaxSr _ _ a b
  | .iminUSr _ _ a b | .imaxUSr _ _ a b | .sltSr _ _ a b | .sltUSr _ _ a b | .idivu _ _ a b | .iremu _ _ a b =>
    [a.toNat, b.toNat]
  | .iadd64 _ _ a b | .isub64 _ _ a b => [a.toNat, a.toNat + 1, b.toNat, b.toNat + 1]
  | .iaddSi _ _ a _ | .andSi _ _ a _ | .orSi _ _ a _ | .xorSi _ _ a _ | .shlSi _ _ a _ | .shrSi _ _ a _ | .sraSi _ _ a _
  | .sltSi _ _ a _ => [a.toNat]
  | _ => []

end Sys2Proof.Claims

open Sys2Proof Sys2Proof.Machine Sys2Proof.Claims

/-- R41, R85, R105, R296, R347, R366, R371, R395, R397, R415: a scalar instruction whose team has an acting lane (or none active)
and clean sources writes its value to its destination, nothing to `s0`, and changes nothing else of the machine. -/
def Sys2Proof.Claims.ScalarResult : Prop :=
  ∀ (s : State) (t : Team) (i : Instr) (d : Nat) (w : Word), s.team s.cur = some t → t.mute = false →
    (∀ r ∈ scalarSources i, t.poisonS r = false) → scalarResult s t i = some (d, w) →
    ∃ u, exec i s = .next (s.setTeam s.cur u) ∧ WritesScalar t u d w

/-- R4, R347: `IADD.64` and `ISUB.64` write bits 31:0 of the result to the even register and bits 63:32 to the odd one. -/
def Sys2Proof.Claims.ScalarPairResult : Prop :=
  ∀ (s : State) (t : Team) (i : Instr) (d : Nat) (w : BitVec 64), s.team s.cur = some t → t.mute = false →
    (∀ r ∈ scalarSources i, t.poisonS r = false) → pairResult s t i = some (d, w) → d % 2 = 0 →
    ∃ u v, exec i s = .next (s.setTeam s.cur u) ∧
      WritesScalar t v d (BitVec.ofNat 32 w.toNat) ∧ WritesScalar v u (d + 1) (BitVec.ofNat 32 (w.toNat / 4294967296))

/-- R4, R41, R85, R105, R347: the results of the scalar instructions, of 32 bits and of pairs. -/
def Obligations.ScalarResults : Prop := Claims.ScalarResult ∧ Claims.ScalarPairResult

/-- R98, R273: with every active lane held, or a poisoned scalar source read for an acting lane, a scalar instruction writes
nothing; in the second case every acting lane is noted as a consumer. -/
def Sys2Proof.Claims.ScalarHeldOrPoisoned : Prop :=
  ∀ (s : State) (t : Team) (i : Instr), s.team s.cur = some t →
    ((scalarResult s t i).isSome ∨ (pairResult s t i).isSome) →
    (t.mute = true → exec i s = .next (s.setTeam s.cur t)) ∧
    (∀ r, t.run = some r → t.mute = false → t.acting ≠ 0#1024 → (∃ x ∈ scalarSources i, t.poisonS x = true) →
      exec i s = .next (s.setTeam s.cur { t with run := some { r with
        consumed := r.consumed ++ [⟨t.acting, 12, 0, r.item.addr, r.itemIdx, false, false, false, 0⟩] } }))

namespace Sys2Proof.Claims

open Sys2Proof.Machine

/-! ### Lanewise results -/

/-- What a lanewise instruction writes: the vector register, the lanes' vector sources as (register, lane), the scalar sources, the
value of each lane, and whether helper lanes write run temporaries too (R55). -/
structure LaneWrite where
  d       : Nat
  reads   : Nat → List (Nat × Nat)
  scalars : List Nat
  value   : Nat → Word
  helpers : Bool

/-- The lanes that a lanewise instruction writes when nothing is poisoned: the acting lanes, with helper lanes where they write. -/
def LaneWrite.lanes (t : Team) (w : LaneWrite) : List Nat := if w.helpers then t.writers w.d else t.actingLanes

/-- Half `h` of a word, byte `j` of a word, as integers. -/
def half (w : Word) (h : Nat) : BitVec 16 := w.extractLsb' (16 * h) 16
/-- See `half`. -/
def octet (w : Word) (j : Nat) : BitVec 8 := w.extractLsb' (8 * j) 8

/-- A function of signed integers applied to the halves of two words (R104, R347). -/
def halves (f : Int → Int → Int) (x y : Word) : Word :=
  BitVec.ofInt 16 (f (half x 1).toInt (half y 1).toInt) ++ BitVec.ofInt 16 (f (half x 0).toInt (half y 0).toInt)

/-- A function of unsigned integers applied to the bytes of two words. -/
def octets (f : Int → Int → Int) (x y : Word) : Word :=
  let g := fun j => BitVec.ofInt 8 (f (octet x j).toNat (octet y j).toNat)
  g 3 ++ g 2 ++ g 1 ++ g 0

/-- Clamp an integer. -/
def clampTo (lo hi z : Int) : Int := max lo (min hi z)

/-- One byte of `PERMB`: a byte of `x` chosen by bits 1:0, its sign spread with bit 6, zero with bit 7 (R372). -/
def chosenByte (x : Word) (sel : BitVec 8) : BitVec 8 :=
  let y := octet x (sel.toNat % 4)
  if 128 ≤ sel.toNat then 0#8 else if 64 ≤ sel.toNat then (if y.toInt < 0 then 255#8 else 0#8) else y

/-- The tile index that a shuffle reads for lane `i` of a tile of `n`, and whether the lane takes zero outside the tile (R393, R394). -/
def shuffled (t : Team) (a l : Nat) (j : Int) (zero : Bool) : Option (Nat × Nat) :=
  if 0 ≤ j ∧ j < t.tileSize then some (a, t.tileBase l + j.toNat) else if zero then none else some (a, l)

/-- A result computed by each lane alone from its elements of two vector registers. -/
def lanewise2 (s : State) (t : Team) (d a b : BitVec 7) (f : Word → Word → Word) : Option LaneWrite :=
  some ⟨d.toNat, fun l => [(a.toNat, l), (b.toNat, l)], [], fun l => f (t.readV s.tick a.toNat l) (t.readV s.tick b.toNat l), true⟩

/-- The same from one vector register. -/
def lanewise1 (s : State) (t : Team) (d a : BitVec 7) (f : Word → Word) : Option LaneWrite :=
  some ⟨d.toNat, fun l => [(a.toNat, l)], [], fun l => f (t.readV s.tick a.toNat l), true⟩

/-- The same from one vector register and one scalar, read once. -/
def lanewiseS (s : State) (t : Team) (d a : BitVec 7) (b : BitVec 6) (f : Word → Word → Word) : Option LaneWrite :=
  some ⟨d.toNat, fun l => [(a.toNat, l)], [b.toNat], fun l => f (t.readV s.tick a.toNat l) (t.readS s.tick b.toNat), true⟩

/-- A copy of one element into each lane. -/
def moved (s : State) (t : Team) (d : BitVec 7) (src : Nat → Nat × Nat) : Option LaneWrite :=
  some ⟨d.toNat, fun l => [src l], [], fun l => t.readV s.tick (src l).1 (src l).2, true⟩

/-- A shuffle by a tile index for each lane, from the lane and its place in its tile. -/
def shuffleBy (s : State) (t : Team) (d a : BitVec 7) (own : List Nat) (scalars : List Nat) (zero : Bool) (j : Nat → Int → Int) :
    Option LaneWrite :=
  let src := fun l => shuffled t a.toNat l (j l ((l : Int) - t.tileBase l)) zero
  some ⟨d.toNat, fun l => (src l).toList ++ own.map fun r => (r, l), scalars,
    fun l => match src l with
      | some x => t.readV s.tick x.1 x.2
      | none => 0#32, true⟩

/-- The integer and data-movement instructions that write a vector register lane by lane. -/
def laneResult (s : State) (t : Team) : Instr → Option LaneWrite
  | .iaddVr _ d a b => lanewise2 s t d a b WordOp.add.value
  | .isubVr _ d a b => lanewise2 s t d a b WordOp.sub.value
  | .imulVr _ d a b => lanewise2 s t d a b WordOp.mul.value
  | .imulhVr _ d a b => lanewise2 s t d a b WordOp.mulHigh.value
  | .imulhUVr _ d a b => lanewise2 s t d a b WordOp.mulHighU.value
  | .andVr _ d a b => lanewise2 s t d a b WordOp.and.value
  | .orVr _ d a b => lanewise2 s t d a b WordOp.or.value
  | .xorVr _ d a b => lanewise2 s t d a b WordOp.xor.value
  | .andnVr _ d a b => lanewise2 s t d a b WordOp.andn.value
  | .shlVr _ d a b => lanewise2 s t d a b WordOp.shl.value
  | .shrVr _ d a b => lanewise2 s t d a b WordOp.shr.value
  | .sraVr _ d a b => lanewise2 s t d a b WordOp.sra.value
  | .iminVr _ d a b => lanewise2 s t d a b WordOp.smin.value
  | .imaxVr _ d a b => lanewise2 s t d a b WordOp.smax.value
  | .iminUVr _ d a b => lanewise2 s t d a b WordOp.umin.value
  | .imaxUVr _ d a b => lanewise2 s t d a b WordOp.umax.value
  | .iaddVi _ d a i => lanewise1 s t d a fun x => WordOp.add.value x (wordOf i.toInt)
  | .andVi _ d a i => lanewise1 s t d a fun x => WordOp.and.value x (wordOf i.toInt)
  | .shlVi _ d a i => lanewise1 s t d a fun x => WordOp.shl.value x (wordOf i.toInt)
  | .shrVi _ d a i => lanewise1 s t d a fun x => WordOp.shr.value x (wordOf i.toInt)
  | .iaddVs _ d a b => lanewiseS s t d a b WordOp.add.value
  | .imulVs _ d a b => lanewiseS s t d a b WordOp.mul.value
  | .iaddP16 _ d a b => lanewise2 s t d a b (halves fun x y => x + y)
  | .isubP16 _ d a b => lanewise2 s t d a b (halves fun x y => x - y)
  | .iaddsP16 _ d a b => lanewise2 s t d a b (halves fun x y => clampTo (-32768) 32767 (x + y))
  | .isubsP16 _ d a b => lanewise2 s t d a b (halves fun x y => clampTo (-32768) 32767 (x - y))
  | .imaxP16 _ d a b => lanewise2 s t d a b (halves max)
  | .iminP16 _ d a b => lanewise2 s t d a b (halves min)
  | .cmpvGtP16 _ d a b => lanewise2 s t d a b (halves fun x y => if y < x then -1 else 0)
  | .iaddP8 _ d a b => lanewise2 s t d a b (octets fun x y => x + y)
  | .isubP8 _ d a b => lanewise2 s t d a b (octets fun x y => x - y)
  | .iaddsUP8 _ d a b => lanewise2 s t d a b (octets fun x y => clampTo 0 255 (x + y))
  | .imaxUP8 _ d a b => lanewise2 s t d a b (octets max)
  | .iminUP8 _ d a b => lanewise2 s t d a b (octets min)
  | .permb _ d a b => lanewise2 s t d a b fun x sel =>
      chosenByte x (octet sel 3) ++ chosenByte x (octet sel 2) ++ chosenByte x (octet sel 1) ++ chosenByte x (octet sel 0)
  | .pack16 _ d a b => lanewise2 s t d a b fun x y => half y 0 ++ half x 0
  | .unpk16Lo _ d a _ => lanewise1 s t d a fun x => wordOf (half x 0).toInt
  | .unpk16Hi _ d a _ => lanewise1 s t d a fun x => wordOf (half x 1).toInt
  | .li _ d i => some ⟨d.toNat, fun _ => [], [], fun _ => wordOf i.toInt, true⟩
  | .bcast _ d b => some ⟨d.toNat, fun _ => [], [b.toNat], fun _ => t.readS s.tick b.toNat, true⟩
  | .sel _ d a b k => moved s t d fun l => (if (t.readK k.toNat).getLsbD l then a.toNat else b.toNat, l)
  | .popc _ d a => lanewise1 s t d a fun x => wordOf ((List.range 32).countP fun i => x.getLsbD i)
  | .clz _ d a => lanewise1 s t d a fun x => wordOf (((List.range 32).takeWhile fun i => !x.getLsbD (31 - i)).length)
  | .laneid _ d b =>
    some ⟨d.toNat, fun _ => [], [b.toNat], fun l => wordOf ((laneId s t l).toNat + (t.readS s.tick b.toNat).toNat), true⟩
  | .rand _ d b =>
    some ⟨d.toNat, fun _ => [], [b.toNat], fun l => randMix (randKey s t) (laneId s t l) (t.readS s.tick b.toNat), true⟩
  | .fabs _ d a => lanewise1 s t d a fun x => BitVec.ofNat 32 (x.toNat % 2147483648)
  | .fneg _ d a => lanewise1 s t d a fun x => BitVec.ofNat 32 (x.toNat + 2147483648)
  | .fcps _ d a b => lanewise2 s t d a b fun x y => BitVec.ofNat 32 (x.toNat % 2147483648 + y.toNat / 2147483648 * 2147483648)
  | .fclass _ d a => lanewise1 s t d a f32Class
  | .cbx _ d a i =>
    lanewise1 s t d a fun x =>
      let p := x.toNat / 2 ^ (8 * i.toNat)
      t.view.codebook (p / 16 % 16) ++ t.view.codebook (p % 16)
  | .qswap _ d a i => moved s t d fun l => (a.toNat, l - l % 4 + ((l % 4) ^^^ (i.toNat + 1)))
  | .qbc _ d a i => moved s t d fun l => (a.toNat, l - l % 4 + i.toNat)
  | .shflAt _ d a b => shuffleBy s t d a [] [b.toNat] false fun _ _ => ((t.readS s.tick b.toNat).toNat : Int) % t.tileSize
  | .shflRot _ d a b => shuffleBy s t d a [] [b.toNat] false fun _ i => (i - (t.readS s.tick b.toNat).toInt) % t.tileSize
  | .shflShift _ d a b => shuffleBy s t d a [] [b.toNat] true fun _ i => i - (t.readS s.tick b.toNat).toInt
  | .shflMirr _ d a b =>
    shuffleBy s t d a [] [b.toNat] false fun _ i => ((i.toNat ^^^ ((t.readS s.tick b.toNat).toNat % t.tileSize) : Nat) : Int)
  | .shflVar _ d a b => shuffleBy s t d a [b.toNat] [] false fun l _ => ((t.readV s.tick b.toNat l).toNat : Int) % t.tileSize
  | .redAddI _ d a =>
    some ⟨d.toNat, fun l => (t.tileActing l).map fun i => (a.toNat, i), [],
      fun l => wordOf (((t.tileActing l).map fun i => (t.readV s.tick a.toNat i).toInt).sum), false⟩
  | .redMaxI _ d a =>
    some ⟨d.toNat, fun l => (t.tileActing l).map fun i => (a.toNat, i), [],
      fun l => wordOf (((t.tileActing l).map fun i => (t.readV s.tick a.toNat i).toInt).foldl max (-2147483648)), false⟩
  | .redMinI _ d a =>
    some ⟨d.toNat, fun l => (t.tileActing l).map fun i => (a.toNat, i), [],
      fun l => wordOf (((t.tileActing l).map fun i => (t.readV s.tick a.toNat i).toInt).foldl min 2147483647), false⟩
  | .scanAddI _ d a =>
    some ⟨d.toNat, fun l => ((t.tileActing l).filter (· ≤ l)).map fun i => (a.toNat, i), [],
      fun l => wordOf ((((t.tileActing l).filter (· ≤ l)).map fun i => (t.readV s.tick a.toNat i).toInt).sum), false⟩
  | .samp _ d a b =>
    some ⟨d.toNat, fun l => (t.tileActing l).map fun i => (a.toNat, i), [b.toNat],
      fun l => wordOf (samplePick
        ((t.tileLanes l).map fun i => if t.acting.getLsbD i then sampleWeight (t.readV s.tick a.toNat i) else some 0)
        (t.readS s.tick b.toNat).toNat), false⟩
  | .ballot _ d a =>
    some ⟨d.toNat, fun _ => [], [],
      fun l => wordOf (((List.range (min t.tileSize 32)).filter fun i =>
        let x := l - l % min t.tileSize 32 + i
        (t.readK a.toNat).getLsbD x && t.acting.getLsbD x).map fun i => ((2 ^ i : Nat) : Int)).sum, false⟩
  | .krank _ d a =>
    some ⟨d.toNat, fun _ => [], [],
      fun l => wordOf ((t.tileActing l).countP fun i => (t.readK a.toNat).getLsbD i && i < l), false⟩
  | _ => none

end Sys2Proof.Claims

open Sys2Proof Sys2Proof.Machine Sys2Proof.Claims

/-- R42, R55, R296, R301, R305, R312, R331, R334, R347, R355, R361, R371–R373, R377, R379, R382, R389–R395, R413, R415: a lanewise
instruction on clean registers gives each lane it writes the value its rule states, and changes nothing else of the machine. -/
def Obligations.LaneResult : Prop :=
  ∀ (s : State) (t : Team) (i : Instr) (w : LaneWrite), s.team s.cur = some t → Clean t → t.tileSize ≠ 0 →
    laneResult s t i = some w →
    ∃ u, exec i s = .next (s.setTeam s.cur u) ∧ WritesLanes t u w.d (w.lanes t) w.value

/-- R273, R293: a lane one of whose sources is poisoned (every lane, for a scalar source) is left out of the write and is noted as a
consumer; the other lanes are written as without it. -/
def Sys2Proof.Claims.PoisonedLanesConsume : Prop :=
  ∀ (s : State) (t : Team) (r : Run) (i : Instr) (w : LaneWrite), s.team s.cur = some t → t.run = some r → t.tileSize ≠ 0 →
    laneResult s t i = some w →
    let taken := fun l => w.scalars.any t.poisonS || (w.reads l).any fun x => t.poisonV x.1 x.2
    ∃ u, exec i s = .next (s.setTeam s.cur u) ∧
      (∀ l ∈ w.lanes t, (t.acting.getLsbD l && taken l) = false → vreg u w.d l = w.value l) ∧
      (∀ l ∈ t.actingLanes, taken l = true → vreg u w.d l = vreg t w.d l) ∧
      ∃ m : Mask, (∀ l, m.getLsbD l = true ↔ (t.acting.getLsbD l = true ∧ l < 1024 ∧ (l < t.lanes ∧ taken l = true ∨ w.scalars.any t.poisonS = true))) ∧
        u.run = some (if m = 0#1024 then r else { r with
          consumed := r.consumed ++ [⟨m, 12, 0, r.item.addr, r.itemIdx, false, false, false, 0⟩] })

/-- R98, R273: held lanes and poisoned sources, of scalar and of vector instructions. -/
def Obligations.PoisonConsumed : Prop := Claims.ScalarHeldOrPoisoned ∧ Claims.PoisonedLanesConsume

namespace Sys2Proof.Claims

open Sys2Proof.Machine

/-! ### Floating-point results -/

/-- What a floating-point lanewise instruction writes: as `LaneWrite`, with the flags of each lane. -/
structure FpWrite where
  d       : Nat
  value   : Nat → Word × FpFlags
  helpers : Bool

/-- The lanes it writes. -/
def FpWrite.lanes (t : Team) (w : FpWrite) : List Nat := if w.helpers then t.writers w.d else t.actingLanes

/-- The flags that the acting lanes raise together (R109). -/
def raised (t : Team) (f : Nat → FpFlags) : FpFlags := t.actingLanes.foldl (fun g l => g ||| f l) 0#5

/-- The lowest acting lane that raises invalid, bit 0 (R109). -/
def invalidAt (t : Team) (f : Nat → FpFlags) : Option Nat := t.actingLanes.find? fun l => (f l).getLsbD 0

/-- A function of the lane's elements of two vector registers. -/
def fp2 (s : State) (t : Team) (d a b : BitVec 7) (f : Word → Word → Word × FpFlags) : Option FpWrite :=
  some ⟨d.toNat, fun l => f (t.readV s.tick a.toNat l) (t.readV s.tick b.toNat l), true⟩

/-- The same with the destination as third operand. -/
def fp3 (s : State) (t : Team) (d a b : BitVec 7) (f : Word → Word → Word → Word × FpFlags) : Option FpWrite :=
  some ⟨d.toNat, fun l => f (t.readV s.tick a.toNat l) (t.readV s.tick b.toNat l) (t.readV s.tick d.toNat l), true⟩

/-- Each half of two words in a format (R104): the flags of both halves. -/
def fpHalves (f : FpFmt) (g : Fp → Fp → Nat × FpFlags) (x y : Word) : Word × FpFlags :=
  let at' := fun h => g (f.read (half x h).toNat) (f.read (half y h).toNat)
  (BitVec.ofNat 16 (at' 1).1 ++ BitVec.ofNat 16 (at' 0).1, (at' 0).2 ||| (at' 1).2)

/-- The same with patterns. -/
def fpPatterns (g : Nat → Nat → Nat × FpFlags) (x y : Word) : Word × FpFlags :=
  let at' := fun h => g (half x h).toNat (half y h).toNat
  (BitVec.ofNat 16 (at' 1).1 ++ BitVec.ofNat 16 (at' 0).1, (at' 0).2 ||| (at' 1).2)

/-- The fused product of the halves of three words. -/
def fpHalves3 (f : FpFmt) (x y z : Word) : Word × FpFlags :=
  let at' := fun h => f.fma (f.read (half x h).toNat) (f.read (half y h).toNat) (f.read (half z h).toNat)
  (BitVec.ofNat 16 (at' 1).1 ++ BitVec.ofNat 16 (at' 0).1, (at' 0).2 ||| (at' 1).2)

/-- A sum, product and fused product of FP32 patterns, rounded once to nearest even (R106, R332). -/
def sum32 (x y : Word) : Word × FpFlags :=
  let r := FpFmt.f32.add .rne (FpFmt.f32.read x.toNat) (FpFmt.f32.read y.toNat)
  (BitVec.ofNat 32 r.1, r.2)
/-- See `sum32`. -/
def product32 (x y : Word) : Word × FpFlags :=
  let r := FpFmt.f32.mul (FpFmt.f32.read x.toNat) (FpFmt.f32.read y.toNat)
  (BitVec.ofNat 32 r.1, r.2)
/-- See `sum32`. -/
def fused32 (x y z : Word) : Word × FpFlags :=
  let r := FpFmt.f32.fma (FpFmt.f32.read x.toNat) (FpFmt.f32.read y.toNat) (FpFmt.f32.read z.toNat)
  (BitVec.ofNat 32 r.1, r.2)
/-- The sign changed. -/
def negated (x : Word) : Word := x ^^^ 0x80000000#32

/-- The floating-point instructions that write one vector register. -/
def fpResult (s : State) (t : Team) : Instr → Option FpWrite
  | .fadd _ d a b => fp2 s t d a b sum32
  | .fsub _ d a b => fp2 s t d a b fun x y => sum32 x (negated y)
  | .fmul _ d a b => fp2 s t d a b product32
  | .ffma _ d a b => fp3 s t d a b fused32
  | .ffms _ d a b => fp3 s t d a b fun x y z => fused32 x y (negated z)
  | .fnfma _ d a b => fp3 s t d a b fun x y z => fused32 (negated x) y z
  | .fmin _ d a b => fp2 s t d a b (f32Minmax false false)
  | .fmax _ d a b => fp2 s t d a b (f32Minmax true false)
  | .fminn _ d a b => fp2 s t d a b (f32Minmax false true)
  | .fmaxn _ d a b => fp2 s t d a b (f32Minmax true true)
  | .faddVs _ d a b => some ⟨d.toNat, fun l => sum32 (t.readV s.tick a.toNat l) (t.readS s.tick b.toNat), true⟩
  | .fmulVs _ d a b => some ⟨d.toNat, fun l => product32 (t.readV s.tick a.toNat l) (t.readS s.tick b.toNat), true⟩
  | .ffmaVs _ d a b =>
    some ⟨d.toNat, fun l => fused32 (t.readV s.tick a.toNat l) (t.readS s.tick b.toNat) (t.readV s.tick d.toNat l), true⟩
  | .faddB2 _ d a b => fp2 s t d a b (fpHalves .bf16 (FpFmt.bf16.add .rne))
  | .fmulB2 _ d a b => fp2 s t d a b (fpHalves .bf16 FpFmt.bf16.mul)
  | .ffmaB2 _ d a b => fp3 s t d a b (fpHalves3 .bf16)
  | .fmaxB2 _ d a b => fp2 s t d a b (fpPatterns (FpFmt.bf16.minmax true false))
  | .fminB2 _ d a b => fp2 s t d a b (fpPatterns (FpFmt.bf16.minmax false false))
  | .faddH2 _ d a b => fp2 s t d a b (fpHalves .fp16 (FpFmt.fp16.add .rne))
  | .fmulH2 _ d a b => fp2 s t d a b (fpHalves .fp16 FpFmt.fp16.mul)
  | .ffmaH2 _ d a b => fp3 s t d a b (fpHalves3 .fp16)
  | .fmaxH2 _ d a b => fp2 s t d a b (fpPatterns (FpFmt.fp16.minmax true false))
  | .fminH2 _ d a b => fp2 s t d a b (fpPatterns (FpFmt.fp16.minmax false false))
  | .cvt _ d a o r b =>
    some ⟨d.toNat, fun l => convertWord o.toNat (Rounding.ofField r) (b.toNat == 1) (t.readV s.tick a.toNat l)
      (t.readV s.tick (a.toNat + 1) l) (t.readV s.tick d.toNat l), true⟩
  | .cbnear _ d a i =>
    some ⟨d.toNat, fun l =>
      let x := t.readV s.tick a.toNat l
      (putNibble (t.readV s.tick d.toNat l) i.toNat (nearestCode t.view x),
        if (FpFmt.f32.read x.toNat).signalling then 1#5 else 0#5), true⟩
  | .qred _ d a i =>
    some ⟨d.toNat, fun l =>
      quadReduce i.toNat fun j =>
        if t.computing.getLsbD (l - l % 4 + j) then t.readV s.tick a.toNat (l - l % 4 + j) else quadIdentity i.toNat, true⟩
  | .redAddF _ d a =>
    some ⟨d.toNat, fun l => treeSum (log2Up t.tileSize) (treeInputs s t a.toNat l t.tileSize), false⟩
  | .redMaxF _ d a => some ⟨d.toNat, fun l => tileExtreme true ((t.tileActing l).map fun i => t.readV s.tick a.toNat i), false⟩
  | .redMinF _ d a => some ⟨d.toNat, fun l => tileExtreme false ((t.tileActing l).map fun i => t.readV s.tick a.toNat i), false⟩
  | .scanAddF _ d a =>
    some ⟨d.toNat, fun l => treeSum (log2Up t.tileSize) (treeInputs s t a.toNat l (l - t.tileBase l)), false⟩
  | _ => none

/-- An indexed reduction's winner (R123, R383): no candidate has a better key, none of an equal key a lower index, none of both
equal a lower lane. `better` orders the keys. -/
def Wins (better : Word → Word → Prop) (lanes : List Nat) (key index : Nat → Word) (w : Nat) : Prop :=
  w ∈ lanes ∧ ∀ x ∈ lanes, ¬ better (key x) (key w) ∧
    (key x = key w → (index w).toNat ≤ (index x).toNat ∧ (index x = index w → w ≤ x))

/-- The indexed reductions: destination, sources, order of keys, key and value of a pattern. -/
def indexedForm : Instr → Option (Nat × Nat × Nat × (Word → Word → Prop) × (Word → Word) × (Word → Word))
  | .redMaxixF _ d a b => some (d.toNat, a.toNat, b.toNat, fun x y => y.toNat < x.toNat, key32, id)
  | .redMinixF _ d a b => some (d.toNat, a.toNat, b.toNat, fun x y => x.toNat < y.toNat, key32, id)
  | .redMaxixH _ d a b =>
    some (d.toNat, a.toNat, b.toNat, fun x y => y.toNat < x.toNat, fun x => key32 (widenHalf .fp16 (half x 0)).1,
      fun x => BitVec.ofNat 32 (x.toNat % 65536))
  | _ => none

/-- The elementary functions of pipe X (R120, R122): destination, source and function. -/
def countedForm : Instr → Option (Nat × Nat × (Word → Word × FpFlags))
  | .rcps _ d a => some (d.toNat, a.toNat, rcpSeed)
  | .rsqs _ d a => some (d.toNat, a.toNat, rsqSeed)
  | .exp2 _ d a => some (d.toNat, a.toNat, exp2Value)
  | .log2 _ d a => some (d.toNat, a.toNat, log2Value)
  | .tanh _ d a => some (d.toNat, a.toNat, tanhValue)
  | _ => none

/-! ### Masks -/

/-- The instructions that write bits of a mask register for the acting lanes: destination, and the bit of a lane. -/
def maskResult (s : State) (t : Team) : Instr → Option (Nat × (Nat → Bool))
  | .kand _ k a b => some (k.toNat, fun l => (t.readK a.toNat).getLsbD l && (t.readK b.toNat).getLsbD l)
  | .kor _ k a b => some (k.toNat, fun l => (t.readK a.toNat).getLsbD l || (t.readK b.toNat).getLsbD l)
  | .kxor _ k a b => some (k.toNat, fun l => (t.readK a.toNat).getLsbD l ^^ (t.readK b.toNat).getLsbD l)
  | .kandn _ k a b => some (k.toNat, fun l => (t.readK a.toNat).getLsbD l && !(t.readK b.toNat).getLsbD l)
  | .knot _ k a => some (k.toNat, fun l => !(t.readK a.toNat).getLsbD l)
  | .kmov _ k a => some (k.toNat, fun l => (t.readK a.toNat).getLsbD l)
  | .kset _ k => some (k.toNat, fun _ => true)
  | .kclr _ k => some (k.toNat, fun _ => false)
  | .kfromv _ k v => some (k.toNat, fun l => decide ((t.readV s.tick v.toNat l).toNat ≠ 0))
  | .kbit _ k a n => some (k.toNat, fun l => decide ((t.readV s.tick a.toNat l).toNat / 2 ^ n.toNat % 2 = 1))
  | .kany _ a k => some (k.toNat, fun l => (t.tileActing l).any fun i => (t.readK a.toNat).getLsbD i)
  | .kall _ a k => some (k.toNat, fun l => (t.tileActing l).all fun i => (t.readK a.toNat).getLsbD i)
  | .kpop _ a k =>
    some (k.toNat, fun l =>
      decide ((t.tileActing l).countP (fun i => decide (i < l)) < (t.tileActing l).countP fun i => (t.readK a.toNat).getLsbD i))
  | _ => none

/-- The comparison of two integers under a condition code (R315). -/
def intCompare (cond : Nat) (x y : Int) : Bool :=
  match cond with
  | 0 => decide (x = y)
  | 1 => decide (x ≠ y)
  | 2 => decide (x < y)
  | 3 => decide (x ≤ y)
  | 4 => decide (y < x)
  | 5 => decide (y ≤ x)
  | 6 => false
  | _ => true

/-- The bit and the flags that `CMP` gives a lane (R107, R315): FP32, signed, unsigned, BF16 of the low half. -/
def compared (cond type : Nat) (x y : Word) : Bool × FpFlags :=
  if type = 1 then (intCompare cond x.toInt y.toInt, 0#5)
  else if type = 2 then (intCompare cond x.toNat y.toNat, 0#5)
  else if type = 0 then compareFp cond x y
  else compareFp cond (half x 0 ++ 0#16) (half y 0 ++ 0#16)

end Sys2Proof.Claims

open Sys2Proof Sys2Proof.Machine Sys2Proof.Claims

/-- R55, R106–R110, R312, R322, R323, R332, R333, R336, R377, R383, R390: a floating-point instruction on clean registers writes
each lane's rounded result and ORs in the flags of its acting lanes; nothing else changes but the FIRST_INVALID record. -/
def Sys2Proof.Claims.FloatResult : Prop :=
  ∀ (s : State) (t : Team) (i : Instr) (w : FpWrite), s.team s.cur = some t → Clean t → fpResult s t i = some w →
    ∃ u, exec i s = .next (noteInvalid (s.setTeam s.cur u) s.cur (invalidAt t fun l => (w.value l).2)) ∧
      WritesLanesFlags t u w.d (w.lanes t) (fun l => (w.value l).1) (raised t fun l => (w.value l).2)

/-- R109, R248: the first invalid of a slice whose template sets the flag-event bit puts one FIRST_INVALID record into the recorder's
transit and marks the launch; any other changes nothing. -/
def Sys2Proof.Claims.FirstInvalidRecord : Prop :=
  ∀ (s : State) (k l : Nat) (t : Team) (b : Block) (x : Launch), s.team k = some t → s.block t.block = some b →
    s.launch b.launch = some x →
    noteInvalid s k none = s ∧
    ((x.flagEvt = false ∨ x.invalidSeen = true) → noteInvalid s k (some l) = s) ∧
    (x.flagEvt = true → x.invalidSeen = false →
      let s' := noteInvalid s k (some l)
      s'.launch b.launch = some { x with invalidSeen := true } ∧ s'.home = s.home ∧ s'.teams = s.teams ∧
        ∃ r, s'.recorder.transit = s.recorder.transit ++ [r] ∧ r.bytes.length = 32 ∧
          r.bytes.drop 24 = leBytes 8 (ctxOfTeam k + 16 * l + 2 ^ 32 * t.itemAddr))

/-- R412: `TWOSUM` and `TWOPROD` write the rounded result to vd and its error to vd + 1, with the flags of the first rounding. -/
def Sys2Proof.Claims.FloatPairResult : Prop :=
  ∀ (s : State) (t : Team) (c : BitVec 1) (d a b : BitVec 7), s.team s.cur = some t → Clean t →
    let x := fun l => t.readV s.tick a.toNat l
    let y := fun l => t.readV s.tick b.toNat l
    let gone := fun (r : Word) => decide (255 ≤ r.toNat / 2 ^ 23 % 256)
    let sum := fun l => sum32 (x l) (y l)
    let product := fun l => product32 (x l) (y l)
    (∃ u, exec (.twosum c d a b) s = .next (noteInvalid (s.setTeam s.cur u) s.cur (invalidAt t fun l => (sum l).2)) ∧
      u.regs.fflags = t.regs.fflags ||| raised t (fun l => (sum l).2) ∧
      WritesPairs t { u with regs := { u.regs with fflags := t.regs.fflags } } d.toNat (t.writers d.toNat) (fun l => (sum l).1)
        fun l => if gone (sum l).1 then 0#32 else sumError (x l) (y l) (sum l).1) ∧
    ∃ u, exec (.twoprod c d a b) s = .next (noteInvalid (s.setTeam s.cur u) s.cur (invalidAt t fun l => (product l).2)) ∧
      u.regs.fflags = t.regs.fflags ||| raised t (fun l => (product l).2) ∧
      WritesPairs t { u with regs := { u.regs with fflags := t.regs.fflags } } d.toNat (t.writers d.toNat) (fun l => (product l).1)
        fun l => if gone (product l).1 then 0#32 else (fused32 (x l) (y l) (negated (product l).1)).1

/-- R123, R383: an indexed reduction gives every acting lane of a tile the winner's value pattern in vd and its index in vd + 1. -/
def Sys2Proof.Claims.IndexedReduction : Prop :=
  ∀ (s : State) (t : Team) (i : Instr) (d a b : Nat) (better : Word → Word → Prop) (key value : Word → Word),
    s.team s.cur = some t → Clean t → t.tileSize ≠ 0 → indexedForm i = some (d, a, b, better, key, value) →
    ∃ u, exec i s = .next (s.setTeam s.cur u) ∧ ∃ win : Nat → Nat,
      (∀ l ∈ t.actingLanes, Wins better (t.tileActing l) (fun x => key (t.readV s.tick a x)) (t.readV s.tick b) (win l)) ∧
      WritesPairs t u d t.actingLanes (fun l => value (t.readV s.tick a (win l))) fun l => t.readV s.tick b (win l)

/-- R106, R109, R111, R123, R253: the results of the floating-point instructions that are not counted, their flags and the first-invalid record. -/
def Obligations.FloatResults : Prop := Claims.FloatResult ∧ Claims.FirstInvalidRecord ∧ Claims.FloatPairResult ∧ Claims.IndexedReduction

/-- R65–R67, R120, R330, R364, R380, R410: an elementary function of pipe X issues as one operation counted on SETA that holds its
results; with SETA 15 its results are there before the next instruction; with its flag at 63 it waits and changes nothing but the
run's place. -/
def Sys2Proof.Claims.CountedFunctionResult : Prop :=
  ∀ (s : State) (t : Team) (r : Run) (i : Instr) (d a : Nat) (f : Word → Word × FpFlags),
    s.team s.cur = some t → t.run = some r → Clean t → countedForm i = some (d, a, f) →
    let v := fun l => f (t.readV s.tick a l)
    let g := raised t fun l => (v l).2
    (t.flagFull true = true → exec i s = .next (stallInstr s)) ∧
    (t.flagFull true = false → t.writers d = [] → exec i s = .next (s.setTeam s.cur t)) ∧
    (t.flagFull true = false → t.writers d ≠ [] →
      ∃ u, exec i s = .next (noteInvalid (s.setTeam s.cur u) s.cur (invalidAt t fun l => (v l).2)) ∧
        (r.setA = 15 → u.regs.fflags = t.regs.fflags ||| g ∧ u.flags = t.flags ∧
          u.ops.map (fun o => { o with dirty := [] }) = t.ops.map (fun o => { o with dirty := [] }) ∧
          (∀ l ∈ t.writers d, vreg u d l = (v l).1) ∧
          ∀ key, (∀ l ∈ t.writers d, key ≠ vKey t.mode d l) → Sparse.get 0#32 u.regs.v key = Sparse.get 0#32 t.regs.v key) ∧
        (r.setA ≠ 15 → u.regs = t.regs ∧ u.flag r.setA = t.flag r.setA + 1 ∧
          ∃ o, u.ops = t.ops ++ [o] ∧ o.classA = true ∧ o.flag = some r.setA ∧ o.depth = t.depth ∧ o.fflags = g ∧
            o.waits = false ∧ o.sDest = [] ∧ o.vDest = (t.writers d).map fun l => (vKey t.mode d l, (v l).1, false)))

/-- R350–R353: a mask instruction on clean registers writes the bit its rule states for each acting lane and keeps every other bit. -/
def Sys2Proof.Claims.MaskResult : Prop :=
  ∀ (s : State) (t : Team) (i : Instr) (d : Nat) (f : Nat → Bool), s.team s.cur = some t → Clean t →
    maskResult s t i = some (d, f) →
    ∃ u, exec i s = .next (s.setTeam s.cur u) ∧ WritesBits t u d t.actingLanes f

/-- R107, R314, R315: `CMP` writes the bits of the acting lanes of its mask and raises invalid for a signalling operand. -/
def Sys2Proof.Claims.CompareResult : Prop :=
  ∀ (s : State) (t : Team) (c : BitVec 1) (k : BitVec 4) (a b : BitVec 7) (o : BitVec 4) (ty : BitVec 3),
    s.team s.cur = some t → Clean t → o.toNat < 8 →
    let v := fun l => compared o.toNat ty.toNat (t.readV s.tick a.toNat l) (t.readV s.tick b.toNat l)
    ∃ u, exec (.cmp c k a b o ty) s = .next (noteInvalid (s.setTeam s.cur u) s.cur (invalidAt t fun l => (v l).2)) ∧
      u.regs.fflags = t.regs.fflags ||| raised t (fun l => (v l).2) ∧
      WritesBits t { u with regs := { u.regs with fflags := t.regs.fflags } } k.toNat t.actingLanes fun l => (v l).1

/-- R352, R314: what the mask instructions and the comparisons write. -/
def Obligations.MaskResults : Prop := Claims.MaskResult ∧ Claims.CompareResult

/-- R312: `CBLD` loads the sixteen entries of the codebook from eight lanes of va when an active lane acts and the lanes exist; it
does nothing when none acts, and traps `ILLEGAL_OP` when a lane does not exist. -/
def Sys2Proof.Claims.CodebookLoad : Prop :=
  ∀ (s : State) (t : Team) (c : BitVec 1) (a : BitVec 7) (b : BitVec 9), s.team s.cur = some t → Clean t →
    (t.acting = 0#1024 → exec (.cbld c a b) s = .next (s.setTeam s.cur t)) ∧
    (t.acting ≠ 0#1024 → t.lanes < b.toNat + 8 → exec (.cbld c a b) s = .next (s.setTeam s.cur t.illegalOp)) ∧
    (t.acting ≠ 0#1024 → b.toNat + 8 ≤ t.lanes →
      ∃ u, exec (.cbld c a b) s = .next (s.setTeam s.cur u) ∧ { u with regs := { u.regs with cbt := t.regs.cbt } } = t ∧
        (∀ j, j < 8 → u.regs.codebook (2 * j) = half (t.readV s.tick a.toNat (b.toNat + j)) 0 ∧
          u.regs.codebook (2 * j + 1) = half (t.readV s.tick a.toNat (b.toNat + j)) 1) ∧
        ∀ n, 16 ≤ n → u.regs.codebook n = t.regs.codebook n)

/-- R381: `RDLANE` reads the lane that sb names, whatever its state, once for the team: a lane of word 0 at once, another as an
operation counted on SETA; no lane acting, it does nothing; a lane that does not exist traps `ILLEGAL_OP`. -/
def Sys2Proof.Claims.ReadLane : Prop :=
  ∀ (s : State) (t : Team) (r : Run) (c : BitVec 1) (d : BitVec 6) (a : BitVec 7) (b : BitVec 6),
    s.team s.cur = some t → t.run = some r → Clean t →
    let l := (t.readS s.tick b.toNat).toNat
    let w := t.readV s.tick a.toNat l
    (t.acting = 0#1024 → exec (.rdlane c d a b) s = .next s) ∧
    (t.acting ≠ 0#1024 → t.lanes ≤ l → exec (.rdlane c d a b) s = .next (s.setTeam s.cur t.illegalOp)) ∧
    (t.acting ≠ 0#1024 → l < t.lanes → l < 32 →
      ∃ u, exec (.rdlane c d a b) s = .next (s.setTeam s.cur u) ∧ WritesScalar t u d.toNat w) ∧
    (t.acting ≠ 0#1024 → l < t.lanes → 32 ≤ l → r.setA ≠ 15 → t.flag r.setA < 63 →
      ∃ u o, exec (.rdlane c d a b) s = .next (s.setTeam s.cur u) ∧ u.regs = t.regs ∧ u.ops = t.ops ++ [o] ∧
        o.flag = some r.setA ∧ o.vDest = [] ∧ o.sDest = (if d.toNat = 0 then [] else [(sKey t.mode d.toNat, w, false)]))

/-- R65, R115, R122, R384: the register-only instructions that are counted on SETA, and `CBLD`. -/
def Obligations.CountedResults : Prop := Claims.CountedFunctionResult ∧ Claims.CodebookLoad ∧ Claims.ReadLane

namespace Sys2Proof.Claims

open Sys2Proof.Machine

/-! ### Structured control (R49, R279) -/

/-- What a structured control instruction does: it may not (the stack is of the wrong kind or full), or it leaves a stack, a `k0` with its
difference from the shadow copy, and an event code for `SG`, and goes to its target or on. -/
structure StackMove where
  stack : List StackEntry
  k0    : Mask
  diff  : Mask
  event : Nat
  jumps : Bool
  skips : Bool

/-- The shadow copy of a mask register (R271). -/
def shadow (t : Team) (r : Nat) : Mask := t.readK r ^^^ Sparse.get 0#1024 t.view.kDiff (kKey t.mode r)

/-- Lanes leave an entry. -/
def lanesLeave (m m' : Mask) (e : StackEntry) : StackEntry :=
  { e with saved := e.saved &&& ~~~m, other := e.other &&& ~~~m, sDiff := e.sDiff &&& ~~~m', eDiff := e.eDiff &&& ~~~m' }

/-- The table of R49: none where the instruction traps `MSTACK`. -/
def stackMove (t : Team) : Instr → Option StackMove
  | .ifK k _ =>
    if 32 ≤ t.stack.length then none
    else
      let a := t.readK 0
      let c := t.readK k.toNat
      let both := shadow t 0 &&& shadow t k.toNat
      some ⟨⟨a, a &&& ~~~c, .ifArm, a ^^^ shadow t 0, (a &&& ~~~c) ^^^ (shadow t 0 &&& ~~~shadow t k.toNat)⟩ :: t.stack, a &&& c,
        (a &&& c) ^^^ both, 1, a &&& c == 0#1024, false⟩
  | .elseK _ =>
    match t.stack with
    | e :: rest =>
      if e.kind = .ifArm then some ⟨{ e with kind := .elseArm } :: rest, e.other, e.eDiff, 3, e.other == 0#1024, false⟩ else none
    | [] => none
  | .endIf _ =>
    match t.stack with
    | e :: rest => if e.kind = .loopBody then none else some ⟨rest, e.saved, e.sDiff, 2, false, false⟩
    | [] => none
  | .loop _ _ =>
    if 32 ≤ t.stack.length then none
    else
      let a := t.readK 0
      some ⟨⟨a, 0#1024, .loopBody, a ^^^ shadow t 0, 0#1024⟩ :: t.stack, a, a ^^^ shadow t 0, 1, false, a == 0#1024⟩
  | .brkIf _ k _ =>
    let above := t.stack.takeWhile fun e => e.kind != .loopBody
    if above.length = t.stack.length then none
    else
      let a := t.readK 0
      let m := t.readK k.toNat &&& a
      let left := a &&& ~~~m
      let left' := shadow t 0 &&& ~~~(shadow t k.toNat &&& shadow t 0)
      some ⟨above.map (lanesLeave m m) ++ t.stack.drop above.length, left, left ^^^ left', 4, false, left == 0#1024⟩
  | .endLp _ =>
    match t.stack with
    | e :: rest =>
      if e.kind ≠ .loopBody then none
      else if t.readK 0 = 0#1024 then some ⟨rest, e.saved, e.sDiff, 2, false, false⟩
      else some ⟨t.stack, t.readK 0, t.readK 0 ^^^ shadow t 0, 5, true, false⟩
    | [] => none
  | _ => none

/-- A structured control instruction, with its offset in packets (R60). -/
def stackForm : Instr → Option Int
  | .ifK _ o | .elseK o | .loop _ o | .brkIf _ _ o | .endLp o => some o.toInt
  | .endIf _ => some 0
  | _ => none

/-- The tag of R279 and the folded difference of the two copies of `k0` enter `SG` at depth 0. -/
def tagged (t : Team) (event depth : Nat) (diff : Mask) : Word :=
  if t.depth = 0 then
    sgUpdate (sgUpdate t.sg (BitVec.ofNat 32 (event * 16777216 + depth)))
      ((List.range 32).foldl (fun w i => w ^^^ diff.extractLsb' (32 * i) 32) 0#32)
  else t.sg

/-! ### Transfers (R306, R310, R348, R386) -/

/-- Where an offset in packets from the run's first packet leads, if it is no address below 0 (R60). -/
def packetAt (r : Run) (off : Int) (target : Nat) : Prop := (target : Int) = r.start + 12 * off

/-- The transfers by offset: the offset, and whether it is taken. -/
def branchForm (s : State) (t : Team) : Instr → Option (Int × Bool)
  | .bra o => some (o.toInt, true)
  | .brc k a o =>
    let x := (t.readS s.tick a.toNat).toInt
    let test := match k.toNat with
      | 1 => decide (x = 0)
      | 2 => decide (x ≠ 0)
      | 3 => decide (x < 0)
      | 4 => decide (0 ≤ x)
      | 5 => decide (0 < x)
      | _ => decide (x ≤ 0)
    some (o.toInt, test)
  | _ => none

/-- The transfers by register: the register, and whether the link is written. -/
def registerForm : Instr → Option (Nat × Bool)
  | .callr a => some (a.toNat, true)
  | .ret => some (1, false)
  | .jmpr a => some (a.toNat, false)
  | _ => none

end Sys2Proof.Claims

open Sys2Proof Sys2Proof.Machine Sys2Proof.Claims

/-- R49, R279, R307, R325, R365: a structured control instruction acts on the mask stack and `k0` as the table of R49 says, enters its
tag into `SG` at depth 0, and decides its transfer for the end of the run; it changes nothing else. -/
def Sys2Proof.Claims.StructuredControl : Prop :=
  ∀ (s : State) (t : Team) (r : Run) (i : Instr) (off : Int) (m : StackMove) (target : Nat), s.team s.cur = some t →
    t.run = some r → t.snap = none → stackForm i = some off → stackMove t i = some m → packetAt r off target →
    ∃ u r', exec i s = .next (s.setTeam s.cur u) ∧ u.run = some r' ∧ u.stack = m.stack ∧ kreg u 0 = m.k0 ∧
      Sparse.get 0#1024 u.regs.kDiff 0 = m.diff ∧ u.sg = tagged t m.event m.stack.length m.diff ∧
      r'.target = (if m.jumps || m.skips then some target else r.target) ∧
      (m.skips = false → r'.items = r.items) ∧ (m.skips = true → r.item.chain = false → r'.items = []) ∧
      { r' with target := r.target, items := r.items } = r ∧
      { u with stack := t.stack, sg := t.sg, run := t.run, regs := t.regs } = t ∧
      { u.regs with k := t.regs.k, kDiff := t.regs.kDiff } = t.regs ∧
      ∀ key, key ≠ 0 → Sparse.get 0#1024 u.regs.k key = Sparse.get 0#1024 t.regs.k key ∧
        Sparse.get 0#1024 u.regs.kDiff key = Sparse.get 0#1024 t.regs.kDiff key

/-- R49, R97, R325: where the stack has no room or no entry of the kind required, a structured control instruction traps `MSTACK` with the
depth as its detail and changes neither the stack nor `k0`. -/
def Sys2Proof.Claims.StackTrap : Prop :=
  ∀ (s : State) (t : Team) (r : Run) (i : Instr), s.team s.cur = some t → t.run = some r →
    (stackForm i).isSome → stackMove t i = none →
    ∃ u, exec i s = .next (s.setTeam s.cur u) ∧ TeamTraps t u 17 (BitVec.ofNat 32 t.stack.length) false 0#16

/-- R60, R273, R306, R310, R348, R386: a transfer decides where the team continues at the end of its run, acting once whatever `k0`
holds; `CALL` and `CALLR` write the fall-through address to `s1`; a poisoned scalar read for an acting lane stops it. -/
def Sys2Proof.Claims.Transfers : Prop :=
  ∀ (s : State) (t : Team) (r : Run), s.team s.cur = some t → t.run = some r →
    (∀ (i : Instr) (off : Int) (taken : Bool) (target : Nat), (∀ x, t.poisonS x = false) → branchForm s t i = some (off, taken) →
      packetAt r off target →
      exec i s = .next (s.setTeam s.cur { t with run := some { r with target := if taken then some target else r.target } })) ∧
    (∀ (o : BitVec 22) (target : Nat), packetAt r o.toInt target →
      ∃ u, exec (.call o) s = .next (s.setTeam s.cur u) ∧ u.run = some { r with target := some target } ∧
        WritesScalar t { u with run := t.run } 1 (BitVec.ofNat 32 r.through)) ∧
    ∀ (i : Instr) (a : Nat) (link : Bool), registerForm i = some (a, link) →
      (t.poisonS a = false →
        ∃ u, exec i s = .next (s.setTeam s.cur u) ∧ u.run = some { r with target := some (t.readS s.tick a).toNat } ∧
          (link = true → WritesScalar t { u with run := t.run } 1 (BitVec.ofNat 32 r.through)) ∧
          (link = false → { u with run := t.run } = t)) ∧
      (t.poisonS a = true → t.acting ≠ 0#1024 → exec i s = .next (s.setTeam s.cur (t.consume t.acting)))

/-- R48, R49, R60: the structured control words, the mask-stack trap, and the transfers. -/
def Obligations.ControlFlow : Prop := Claims.StructuredControl ∧ Claims.StackTrap ∧ Claims.Transfers

/-- R55, R68, R274, R327, R328, R370, R378, R388, R416: the instructions that mark the run in progress, or record, and change nothing
else. -/
def Sys2Proof.Claims.RunMarks : Prop :=
  ∀ (s : State) (t : Team) (r : Run), s.team s.cur = some t → t.run = some r →
    (∀ c, exec (.nop c) s = .next s) ∧
    exec .exit s = .next (s.setTeam s.cur { t with run := some { r with exits := t.k0 &&& ~~~r.held } }) ∧
    exec .yield s = .next (s.setTeam s.cur
      { t with run := some { r with yields := true }, lastIssue := s.time, passed := 0, promoted := false }) ∧
    (∀ c, t.acting ≠ 0#1024 → exec (.qfill c) s = .next (s.setTeam s.cur { t with run := some { r with fills := true } })) ∧
    (∀ c, t.mute = false →
      exec (.rgne c) s = .next (s.setTeam s.cur { t with run := some { r with opens := none, closes := true } })) ∧
    (∀ c i, t.mute = false → t.depth = 0 → regionListed s t i = true →
      exec (.rgnb c i) s = .next (s.setTeam s.cur { t with run := some { r with opens := some i, closes := false } })) ∧
    (∀ c i, t.mute = false → (t.depth ≠ 0 ∨ regionListed s t i = false) →
      ∃ u, exec (.rgnb c i) s = .next (s.setTeam s.cur u) ∧ TeamTraps t u 1 (BitVec.ofNat 32 (r.item.word % 2147483648)) false 0#16) ∧
    ∀ c i, ∃ s' x, exec (.evt c i) s = .next s' ∧ s' = { s with recorder := s'.recorder } ∧
      s'.recorder.transit = s.recorder.transit ++ [x] ∧ x.bytes.drop 12 =
        leBytes 2 0x500 ++ leBytes 2 (((s.recorder.sseq.find (256 + coreOfTeam s.cur)).getD 0) % 65536) ++ leBytes 8 0 ++
          leBytes 8 (i.toNat + 2 ^ 20 * ctxOfTeam s.cur + 2 ^ 32 * r.item.addr)

/-- R273, R280, R396: `SIGCK` sets `SG` to all ones, and with another value of its low 20 bits counts as a consumption by every
active lane, with those bits as its detail. -/
def Sys2Proof.Claims.SignatureCheck : Prop :=
  ∀ (s : State) (t : Team) (r : Run) (c : BitVec 1) (i : BitVec 20), s.team s.cur = some t → t.run = some r →
    t.mute = false → t.living &&& ~~~r.held ≠ 0#1024 →
    let bits := r.sgRead.toNat % 1048576
    (bits = i.toNat → exec (.sigck c i) s = .next (s.setTeam s.cur { t with sg := 0xFFFFFFFF#32 })) ∧
    (bits ≠ i.toNat → exec (.sigck c i) s = .next (s.setTeam s.cur { t with
      sg := 0xFFFFFFFF#32
      run := some { r with consumed := r.consumed ++
        [⟨(if t.k0 = 0#1024 then t.living else t.k0) &&& ~~~r.held, 13, BitVec.ofNat 32 bits, r.item.addr, r.itemIdx, false, false,
          false, 0⟩] } }))

/-- R59, R98, R328: a run whose last instruction has issued, with nothing owed by its team, ends: the exiting lanes leave `k0` and
the stack, the team stands at the target or falls through, and its issue slot is free. -/
def Sys2Proof.Claims.RunEnds : Prop :=
  ∀ (s : State) (t : Team) (r : Run), s.team s.cur = some t → t.run = some r → r.items = [] → r.hold = none →
    r.traps = [] → r.consumed = [] → t.due = [] → t.parked = [] → t.rolling = [] → t.region = none → t.opening = none → t.ends = false → r.opens = none →
    r.blocks = none → t.snap = none → (t.depth = 0 → ∀ l, s.launchOf t = some l → l.budget ≠ 0) →
    (r.mode = .u → Sparse.get false (s.core (coreOfTeam s.cur)).steps (ctxOfTeam s.cur) = false) → (r.target.getD r.through) % 12 = 0 →
    (∀ len, textLength s (if t.mode = .u then 1 else 3) (r.newText.getD t.textBase) = some len → r.target.getD r.through < len) →
    (textLength s (if t.mode = .u then 1 else 3) (r.newText.getD t.textBase)).isSome →
    ∃ s' u, finishInstr s = s' ∧ s'.team s.cur = some u ∧ u.pc = r.target.getD r.through ∧ u.run = none ∧
      u.exited = t.exited ||| r.exits ∧ kreg u 0 = kreg t 0 &&& ~~~r.exits ∧ u.depth = t.depth ∧ u.mode = t.mode ∧
      u.stack = t.stack.map (fun e => if r.exits = 0#1024 then e else { e with saved := e.saved &&& ~~~r.exits, other := e.other &&& ~~~r.exits }) ∧
      (s'.core (coreOfTeam s.cur)).slotA ≠ some s.cur ∧ (s'.core (coreOfTeam s.cur)).slotB ≠ some s.cur ∧
      s'.home = s.home ∧ s'.blocks = s.blocks ∧ s'.launches = s.launches ∧ ∀ k, k ≠ s.cur → s'.team k = s.team k

/-- R50, R274, R279, R416: `NOP`, `EVT`, the region marks, `SIGCK`, `EXIT` and `YIELD`. -/
def Obligations.RunWords : Prop := Claims.RunMarks ∧ Claims.SignatureCheck ∧ Claims.RunEnds

namespace Sys2Proof.Claims

open Sys2Proof.Machine

/-! ### Special and privileged registers (R91–R96) -/

/-- The `GETS` ids but the four counter halves, for a team of block `b` and launch `l` (R57, R91). -/
def specialOf (s : State) (t : Team) (b : Block) (l : Launch) (id : Nat) : Word :=
  match id with
  | 0 => BitVec.ofNat 32 (32 * t.words)
  | 1 => BitVec.ofNat 32 t.number
  | 2 => BitVec.ofNat 32 b.index
  | 3 => BitVec.ofNat 32 (s.cur / 16)
  | 4 => BitVec.ofNat 32 (s.cur / 64)
  | 5 => BitVec.ofNat 32 s.hub.device.toNat
  | 6 => BitVec.ofNat 32 (l.id.toNat / 2 ^ 32 % 2 ^ 16)
  | 7 => BitVec.ofNat 32 l.id.toNat
  | 12 => BitVec.ofNat 32 t.lclk
  | 13 => BitVec.ofNat 32 l.budget.toNat
  | 14 => BitVec.ofNat 32 t.regs.fflags.toNat
  | 15 => BitVec.ofNat 32 t.view.part.toNat
  | 16 => BitVec.ofNat 32 t.waitCause
  | 17 => BitVec.ofNat 32 b.nteams
  | 18 => BitVec.ofNat 32 l.nblocks
  | 19 => match t.region with
    | some r => BitVec.ofNat 32 r.id.toNat
    | none => 0xFFFFFFFF#32
  | 20 => BitVec.ofNat 32 t.depth
  | _ => 0#32

/-- Where the privileged registers lie, by xid; the low xid of a pair names the whole of it (R94). -/
def xreg (s : State) (t : Team) (l : Launch) (x : Nat) : BitVec 64 :=
  let cx := s.context l.ctx
  match x with
  | 0x000 => BitVec.ofNat 64 t.mode.code
  | 0x001 => BitVec.ofNat 64 t.regs.part.toNat
  | 0x002 => BitVec.ofNat 64 t.regs.fflags.toNat
  | 0x012 => BitVec.ofNat 64 t.depth
  | 0x014 => cx.xvect
  | 0x016 => cx.xhvect
  | 0x018 => t.xtsp
  | 0x01A => t.xhtsp
  | 0x01C => cx.xtsbase
  | 0x01E => cx.xhtsbase
  | 0x020 => BitVec.ofNat 64 cx.xasid.toNat
  | 0x022 => cx.xptb
  | 0x024 => cx.xstg2
  | 0x030 => cx.xseed
  | 0x032 => BitVec.ofNat 64 (l.budget.toNat % 2 ^ 32)
  | 0x034 => l.deadline
  | 0x036 => BitVec.ofNat 64 (s.queue l.queue).lo.toNat
  | 0x037 => BitVec.ofNat 64 (s.queue l.queue).hi.toNat
  | 0x040 => BitVec.ofNat 64 (s.core (coreOfTeam s.cur)).lanemap.toNat
  | 0x041 => BitVec.ofNat 64 (s.cluster (clusterOf (coreOfTeam s.cur))).rowmap.toNat
  | _ => 0

/-- The 64-bit registers, by their low xids. -/
def pairXids : List Nat := [0x014, 0x016, 0x018, 0x01A, 0x01C, 0x01E, 0x022, 0x024, 0x030, 0x034]
/-- The registers of at most 32 bits that no frame holds. -/
def narrowXids : List Nat := [0x000, 0x001, 0x002, 0x012, 0x020, 0x032, 0x036, 0x037, 0x040, 0x041]
/-- Those whose reads are counted on SETA (R65, R342). -/
def slowXids : List Nat := [0x030, 0x031, 0x032, 0x034, 0x035, 0x036, 0x037, 0x040, 0x041]
/-- Class U, and class H. -/
def classU : List Nat := [0x001, 0x002]
/-- See `classU`. -/
def classH : List Nat := [0x016, 0x017, 0x01A, 0x01B, 0x01E, 0x01F, 0x024, 0x025, 0x040]

/-- A mode may reach a register (R94). -/
def mayReach (m : Mode) (x : Nat) : Prop :=
  match m with
  | .u => x ∈ classU
  | .s => x ∉ classH
  | .h => True

/-- A team, its block and its launch. -/
def Placed (s : State) (t : Team) (n : Nat) (b : Block) (l : Launch) : Prop :=
  s.team s.cur = some t ∧ s.block t.block = some b ∧ b.launch = n ∧ s.launch n = some l

end Sys2Proof.Claims

open Sys2Proof Sys2Proof.Machine Sys2Proof.Claims

/-- R57, R91, R341: `GETS` writes the value its id names. -/
def Sys2Proof.Claims.SpecialRegisterRead : Prop :=
  ∀ (s : State) (t : Team) (n : Nat) (b : Block) (l : Launch) (c : BitVec 1) (d : BitVec 6) (id : BitVec 8),
    Placed s t n b l → t.mute = false → (id.toNat < 8 ∨ 11 < id.toNat) → (id.toNat = 13 → l.budget.toNat < 2 ^ 32) →
    (id.toNat = 14 → t.ops = []) →
    ∃ u, exec (.gets c d id) s = .next (s.setTeam s.cur u) ∧ WritesScalar t u d.toNat (specialOf s t b l id.toNat)

/-- R91, R92: the low half of a counter is read live and latches the high half, which the next read of the high half in that mode
returns whatever the counter then shows; a high half with no latch is read live. -/
def Sys2Proof.Claims.CounterLatch : Prop :=
  ∀ (s : State) (t : Team) (c : BitVec 1) (d : BitVec 6) (id : BitVec 8), s.team s.cur = some t → t.mute = false → d.toNat ≠ 0 →
    ∀ counter, (id.toNat = 8 ∧ counter = s.cycles) ∨ (id.toNat = 10 ∧ counter = s.time) →
    (∃ u, exec (.gets c d id) s = .next (s.setTeam s.cur u) ∧ sreg u d.toNat = BitVec.ofNat 32 counter ∧
      ∀ (s2 : State) (u2 : Team) (e : BitVec 6), s2.team s2.cur = some u2 → u2.mute = false → u2.mode = u.mode →
        u2.clkLatch = u.clkLatch → e.toNat ≠ 0 →
        ∃ v, exec (.gets c e (id + 1#8)) s2 = .next (s2.setTeam s2.cur v) ∧
          sreg v e.toNat = BitVec.ofNat 32 (counter / 2 ^ 32) ∧ v.clkLatch.find (2 * t.mode.code + (id.toNat - 8) / 2) = none) ∧
    (t.clkLatch.find (2 * t.mode.code + (id.toNat - 8) / 2) = none →
      ∃ u, exec (.gets c d (id + 1#8)) s = .next (s.setTeam s.cur u) ∧ sreg u d.toNat = BitVec.ofNat 32 (counter / 2 ^ 32))

/-- R65, R94, R96, R342: `GETX` reads a privileged register in a mode of its class: the low half of a pair at once, latching the high half
for the next read of it in that mode; the registers that R342 lists as an operation counted on SETA. -/
def Sys2Proof.Claims.PrivilegedRead : Prop :=
  ∀ (s : State) (t : Team) (r : Run) (n : Nat) (b : Block) (l : Launch) (c : BitVec 1) (d : BitVec 6) (x : BitVec 11),
    Placed s t n b l → t.run = some r → t.mute = false → t.snap = none → t.ops = [] → mayReach t.mode x.toNat → d.toNat ≠ 0 →
    (x.toNat = 0x032 → l.budget.toNat < 2 ^ 32) → t.flagFull true = false →
    (∀ w : Word,
      (x.toNat ∈ narrowXids ∧ w = (xreg s t l x.toNat).setWidth 32 ∨
        x.toNat ∈ pairXids ∧ w = (xreg s t l x.toNat).setWidth 32 ∨
        x.toNat - 1 ∈ pairXids ∧ t.xLatch.find (4096 * t.mode.code + (x.toNat - 1)) = some w ∧ x.toNat ∉ slowXids ∨
        x.toNat - 1 ∈ pairXids ∧ t.xLatch = [] ∧ w = BitVec.ofNat 32 ((xreg s t l (x.toNat - 1)).toNat / 2 ^ 32)) →
      ∃ u, exec (.getx c d x) s = .next (s.setTeam s.cur u) ∧
        ((x.toNat ∉ slowXids ∨ r.setA = 15) → sreg u d.toNat = w ∧ u.regs.v = t.regs.v ∧ u.regs.k = t.regs.k ∧ u.ops = []) ∧
        (x.toNat ∈ slowXids → r.setA ≠ 15 → u.regs = t.regs ∧
          ∃ o, u.ops = [o] ∧ o.flag = some r.setA ∧ o.vDest = [] ∧ o.sDest = [(sKey t.mode d.toNat, w, false)]) ∧
        (x.toNat ∈ pairXids → u.xLatch.find (4096 * t.mode.code + x.toNat) =
          some (BitVec.ofNat 32 ((xreg s t l x.toNat).toNat / 2 ^ 32))) ∧
        (x.toNat - 1 ∈ pairXids → u.xLatch.find (4096 * t.mode.code + (x.toNat - 1)) = none)) ∧
    (x.toNat = 0x010 ∨ x.toNat = 0x011 → t.double = none → t.depth = 0 →
      ∃ u, exec (.getx c d x) s = .next (s.setTeam s.cur u) ∧ WritesScalar t u d.toNat 0#32) ∧
    ∀ z, t.double = some z →
      (x.toNat = 0x010 → ∃ u, exec (.getx c d x) s = .next (s.setTeam s.cur u) ∧ WritesScalar t u d.toNat (BitVec.ofNat 32 z.resume)) ∧
      (x.toNat = 0x011 → ∃ u, exec (.getx c d x) s = .next (s.setTeam s.cur u) ∧ WritesScalar t u d.toNat 23#32)

/-- R91, R92, R94: `GETS` and `GETX`, with the latches of the counters. -/
def Obligations.RegisterReads : Prop := Claims.SpecialRegisterRead ∧ Claims.CounterLatch ∧ Claims.PrivilegedRead

/-- R94, R96, R201, R208, R392: `SETX` of a register of at most 32 bits writes its low bits; XPART refuses 6 and 7; XLANEMAP is held for the
core's next quiescent block boundary and refuses fields of 32 to 62. -/
def Sys2Proof.Claims.PrivilegedWrite : Prop :=
  ∀ (s : State) (t : Team) (n : Nat) (b : Block) (l : Launch) (c : BitVec 1) (a : BitVec 6) (x : BitVec 11),
    Placed s t n b l → t.mute = false → (∀ r, t.poisonS r = false) → t.ops = [] → mayReach t.mode x.toNat →
    let w := t.readS s.tick a.toNat
    (∀ width, (x.toNat, width) ∈ [(0x001, 3), (0x002, 5), (0x020, 16), (0x032, 32), (0x036, 32), (0x037, 32)] →
      (x.toNat = 0x001 → w.toNat % 8 < 6) →
      ∃ s' t' l', exec (.setx c a x) s = .next s' ∧ Placed s' t' n b l' ∧
        xreg s' t' l' x.toNat = BitVec.ofNat 64 (w.toNat % 2 ^ width) ∧
        (∀ y ∈ pairXids ++ narrowXids, y ≠ x.toNat → xreg s' t' l' y = xreg s t l y) ∧
        t'.regs.v = t.regs.v ∧ t'.regs.s = t.regs.s ∧ t'.regs.k = t.regs.k ∧ t'.pc = t.pc ∧ s'.home = s.home) ∧
    (x.toNat = 0x001 → 6 ≤ w.toNat % 8 → exec (.setx c a x) s = .next (s.setTeam s.cur t.illegalOp)) ∧
    (x.toNat = 0x040 →
      let va := w.toNat % 64
      let vb := w.toNat / 256 % 64
      ((va < 32 ∨ va = 63) ∧ (vb < 32 ∨ vb = 63) →
        ∃ s', exec (.setx c a x) s = .next s' ∧ s' = { s with cores := s'.cores } ∧
          (s'.core (coreOfTeam s.cur)) = { s.core (coreOfTeam s.cur) with newmap := some (BitVec.ofNat 32 (va + 256 * vb)) } ∧
          ∀ k, k ≠ coreOfTeam s.cur → s'.core k = s.core k) ∧
      (¬ ((va < 32 ∨ va = 63) ∧ (vb < 32 ∨ vb = 63)) → exec (.setx c a x) s = .next (s.setTeam s.cur t.illegalOp)))

/-- R96, R201, R392: `SETX` of the low half of a pair holds it, and `SETX` of the high half writes both halves at once; a handler base that
is not 64-byte aligned traps `ILLEGAL_OP`; XDEADLINE re-sets its class at once. -/
def Sys2Proof.Claims.PrivilegedPairWrite : Prop :=
  ∀ (s : State) (t : Team) (n : Nat) (b : Block) (l : Launch) (c : BitVec 1) (a e : BitVec 6) (x : BitVec 11),
    Placed s t n b l → t.mute = false → (∀ r, t.poisonS r = false) → mayReach t.mode x.toNat → x.toNat ∈ pairXids →
    let v := pair64 (t.readS s.tick a.toNat) (t.readS s.tick e.toNat)
    ∃ u, exec (.setx c a x) s = .next (s.setTeam s.cur u) ∧ { u with xHold := t.xHold } = t ∧
      ((x.toNat ∈ [0x014, 0x016] ∧ v.toNat % 64 ≠ 0) →
        exec (.setx c e (x + 1#11)) (s.setTeam s.cur u) = .next ((s.setTeam s.cur u).setTeam s.cur u.illegalOp)) ∧
      ((x.toNat ∉ [0x014, 0x016] ∨ v.toNat % 64 = 0) →
        ∃ s' t' l', exec (.setx c e (x + 1#11)) (s.setTeam s.cur u) = .next s' ∧ Placed s' t' n b l' ∧ xreg s' t' l' x.toNat = v ∧
          (∀ y ∈ pairXids ++ narrowXids, y ≠ x.toNat → xreg s' t' l' y = xreg s t l y) ∧ t'.regs = t.regs ∧ s'.home = s.home ∧
          (x.toNat = 0x034 → l'.cls = min (if v = BitVec.allOnes 64 then 0 else if v.toNat ≤ s.time then 3
            else if v.toNat ≤ s.time + 100000 then 2 else if v.toNat ≤ s.time + 1000000 then 1 else 0) l.classMax))

/-- R86, R94, R97: `GETX` and `SETX` outside the register's class, and `TLBI` and `TLBI.ALL` in U, trap `PRIV` for the acting lanes, the
first two with the xid as detail, the others with the word. -/
def Sys2Proof.Claims.PrivilegeTrap : Prop :=
  ∀ (s : State) (t : Team) (r : Run) (c : BitVec 1) (d : BitVec 6) (x : BitVec 11), s.team s.cur = some t → t.run = some r →
    t.mute = false →
    (¬ mayReach t.mode x.toNat →
      (∃ u, exec (.getx c d x) s = .next (s.setTeam s.cur u) ∧ TeamTraps t u 5 (BitVec.ofNat 32 x.toNat) false 0#16) ∧
      ∃ u, exec (.setx c d x) s = .next (s.setTeam s.cur u) ∧ TeamTraps t u 5 (BitVec.ofNat 32 x.toNat) false 0#16) ∧
    (t.mode = .u →
      let word := BitVec.ofNat 32 (r.item.word % 2147483648)
      (∃ u, exec (.tlbi c d) s = .next (s.setTeam s.cur u) ∧ TeamTraps t u 5 word false 0#16) ∧
      (∃ u, exec (.tlbiAll c) s = .next (s.setTeam s.cur u) ∧ TeamTraps t u 5 word false 0#16) ∧
      ∃ u, exec .rett s = .next (s.setTeam s.cur u) ∧ TeamTraps t u 5 word false 0#16)

/-- R140, R411: `TLBI` takes from every TLB the context's translations of pages that cover the address, `TLBI.ALL` those of the context's
address-space id; every other translation and the rest of the machine stay. -/
def Sys2Proof.Claims.TranslationsRemoved : Prop :=
  ∀ (s : State) (t : Team) (n : Nat) (b : Block) (l : Launch) (c : BitVec 1) (a : BitVec 6), Placed s t n b l → t.mode ≠ .u →
    t.mute = false → (∀ r, t.poisonS r = false) →
    let va := (t.readPair s.tick a.toNat).toNat
    (va < 2 ^ 56 →
      ∃ s', exec (.tlbi c a) s = .next s' ∧ { s' with cores := s.cores, clusters := s.clusters } = s ∧
        (∀ k y, y ∈ (s'.core k).tlb ↔ y ∈ (s.core k).tlb ∧ ¬ (y.ctx = l.ctx ∧ y.base ≤ va ∧ va < y.base + 2 ^ y.bits)) ∧
        ∀ k y, y ∈ (s'.cluster k).tlb ↔ y ∈ (s.cluster k).tlb ∧ ¬ (y.ctx = l.ctx ∧ y.base ≤ va ∧ va < y.base + 2 ^ y.bits)) ∧
    ∃ s', exec (.tlbiAll c) s = .next s' ∧ { s' with cores := s.cores, clusters := s.clusters } = s ∧
      (∀ k y, y ∈ (s'.core k).tlb ↔ y ∈ (s.core k).tlb ∧ ¬ (y.ctx = l.ctx ∧ y.asid = (s.context l.ctx).xasid.toNat)) ∧
      ∀ k y, y ∈ (s'.cluster k).tlb ↔ y ∈ (s.cluster k).tlb ∧ ¬ (y.ctx = l.ctx ∧ y.asid = (s.context l.ctx).xasid.toNat)

/-- R86, R94, R96, R140: `SETX`, `TLBI`, and where they trap `PRIV`. -/
def Obligations.SystemInstructions : Prop := Claims.PrivilegedWrite ∧ Claims.PrivilegedPairWrite ∧ Claims.PrivilegeTrap ∧ Claims.TranslationsRemoved

/-- R103, R308, R343, R405: `SYSC` in U traps `SYSCALL`, `HCALL` in S traps `HYPCALL` into H, each with its imm16, and `PRIV` elsewhere;
`BRKPT` traps `BREAK`; with each the run ends when it was the last instruction. -/
def Sys2Proof.Claims.CallsTrap : Prop :=
  ∀ (s : State) (t : Team) (r : Run), s.team s.cur = some t → t.run = some r →
    let word := BitVec.ofNat 32 (r.item.word % 2147483648)
    (∀ i : BitVec 16, ∃ u, exec (.sysc i) s = .next (finishInstr (s.setTeam s.cur u)) ∧
      (t.mode = .u → TeamTraps t u 20 (BitVec.ofNat 32 i.toNat) false i) ∧ (t.mode ≠ .u → TeamTraps t u 5 word false 0#16)) ∧
    (∀ i : BitVec 16, ∃ u, exec (.hcall i) s = .next (finishInstr (s.setTeam s.cur u)) ∧
      (t.mode = .s → TeamTraps t u 21 (BitVec.ofNat 32 i.toNat) true i) ∧ (t.mode ≠ .s → TeamTraps t u 5 word false 0#16)) ∧
    ∀ c (i : BitVec 20), ∃ u, exec (.brkpt c i) s = .next (finishInstr (s.setTeam s.cur u)) ∧
      TeamTraps t u 19 (BitVec.ofNat 32 i.toNat) false 0#16

/-- R99: taking traps. Where the frame can be written, the handler's text is there and its bank becomes resident, the team enters S (or H, when
a cause goes there or it is in H) at code address 0, one deeper, with the lanes of T active, the frame below its stack pointer,
an empty mask stack, `PART` and `FFLAGS` zero, and each lane's cause in `v116`–`v119` of the mode's bank. -/
def Sys2Proof.Claims.TrapEntry : Prop :=
  ∀ (s s1 s2 : State) (k : Nat) (t t2 : Team) (due : List LaneTrap), s.team k = some t → t.depth ≠ 3 →
    let m : Mode := if t.mode = .h ∨ (∃ x ∈ due, x.inH = true) then .h else .s
    let cx := s.context (s.ctxOf t)
    let sp := if m = .h then t.xhtsp else t.xtsp
    let vect := if m = .h then cx.xhvect else cx.xvect
    let xs := due.map fun x => (if x.lanes = 0#1024 then t.trapSet else x.lanes, x)
    let all := xs.foldl (fun g x => g ||| x.1) 0#1024
    let parked := t.parked.filter fun p => p.depth == t.depth && !p.framed
    let frame := frameBytes t xs all (decide (m = t.mode)) parked
    let sp' := sp - BitVec.ofNat 64 (frameSize t.lanes parked.length (decide (m = t.mode)))
    sp.toNat % 64 = 0 → storeBytes s k m sp'.toNat frame (frame.length / 32 + 2) = (s1, none) →
    (textLength s1 3 vect.toNat).isSome → residentBank s1 k m = (s2, none) → s2.team k = some t2 →
    ∃ s' u, trapEntry s k due = s' ∧ s'.team k = some u ∧ s'.home = s2.home ∧ s'.cores = s2.cores ∧ u.mode = m ∧
      u.depth = t.depth + 1 ∧ u.pc = 0 ∧ u.textBase = vect.toNat ∧ u.stack = [] ∧ u.due = [] ∧ u.region = none ∧
      u.regs.part = 0 ∧ u.regs.fflags = 0 ∧ kreg u 0 = all ∧ kreg u 15 = all ∧
      (m = .h → u.xhtsp = sp' ∧ u.xtsp = t2.xtsp) ∧ (m ≠ .h → u.xtsp = sp' ∧ u.xhtsp = t2.xhtsp) ∧
      (∀ l ∈ lanesOf all t2.lanes, ∀ y ∈ xs, (∀ z ∈ xs, z.1.getLsbD l = true → xs.idxOf y ≤ xs.idxOf z) → y.1.getLsbD l = true →
        vreg u 119 l = y.2.detail ∧ vreg u 118 l = BitVec.ofNat 32 (y.2.addr / 2 ^ 32) ∧ vreg u 117 l = BitVec.ofNat 32 y.2.addr ∧
        vreg u 116 l = BitVec.ofNat 32 (y.2.index % 32 + 256 * y.2.cause + (if y.2.fetch then 65536 else 0) +
          (if t.laneParked l then 131072 else 0))) ∧
      ∀ r l, r < 128 → ¬ (112 ≤ r ∧ r < 120) → l < 1024 → vreg u r l = vreg t2 r l

/-- R94, R100: the bytes of a frame. -/
def Sys2Proof.Claims.FrameLayout : Prop :=
  ∀ (t : Team) (xs : List (Mask × LaneTrap)) (all : Mask) (nested : Bool) (parked : List Parked), t.stack.length ≤ 32 →
    let f := frameBytes t xs all nested parked
    f.length = frameSize t.lanes parked.length nested ∧ fieldAt f 0 4 = t.pc % 2 ^ 32 ∧
      fieldAt f 4 4 = (causeWord xs all t.lanes).toNat ∧ fieldAt f 8 8 = t.textBase % 2 ^ 64 ∧ fieldAt f 16 1 = t.mode.code ∧
      fieldAt f 17 1 = (if nested then 1 else 0) ∧ fieldAt f 18 1 = t.regs.part.toNat ∧ fieldAt f 19 1 = t.regs.fflags.toNat ∧
      fieldAt f 20 4 = t.stack.length ∧ fieldAt f 24 4 = parked.length % 2 ^ 32 ∧ maskAt f 64 = t.k0 ∧ maskAt f 192 = all ∧
      ∀ j e, t.stack.reverse[j]? = some e → maskAt f (320 + 264 * j) = e.saved ∧ maskAt f (320 + 264 * j + 128) = e.other ∧
        fieldAt f (320 + 264 * j + 256) 1 = (match e.kind with
          | .ifArm => 0
          | .elseArm => 1
          | .loopBody => 2)

/-- R102: `RETT` restores from the top frame the mask stack, `PART`, `FFLAGS`, `k0` less the lanes that exited, the mode and the stack
pointer, goes one depth up, and continues at the frame's resume point in its text; at depth 0 it traps `ILLEGAL_OP`. -/
def Sys2Proof.Claims.ReturnFromTrap : Prop :=
  ∀ (s s1 : State) (t : Team) (r : Run) (f : Frame), s.team s.cur = some t → t.run = some r → t.mode ≠ .u → t.mute = false →
    t.double = none →
    (t.depth = 0 → exec .rett s = .next (s.setTeam s.cur t.illegalOp)) ∧
    let sp := if t.mode = .h then t.xhtsp else t.xtsp
    (t.depth ≠ 0 → sp.toNat % 64 = 0 → readFrame s s.cur t sp.toNat = (s1, .ok f) → s1.team s.cur = some t → s1.cur = s.cur →
      t.ops = [] → t.parked = [] → t.snap = none → f.mode ≤ t.mode.code → f.nested = false →
      ∃ u, exec .rett s = .next (s1.setTeam s.cur u) ∧ u.mode.code = f.mode ∧ u.depth = t.depth - 1 ∧
        u.regs.part = BitVec.ofNat 3 (fieldAt f.bytes 18 1) ∧ u.regs.fflags = BitVec.ofNat 5 (fieldAt f.bytes 19 1) ∧
        kreg u 0 = maskAt f.bytes 64 &&& ~~~t.exited ∧
        u.stack = (stackAt f.bytes 320 (min (fieldAt f.bytes 20 4) 32)).map (fun e =>
          { e with saved := e.saved &&& ~~~t.exited, other := e.other &&& ~~~t.exited }) ∧
        (t.mode = .h → u.xhtsp = BitVec.ofNat 64 (sp.toNat + f.size) ∧ u.xtsp = t.xtsp) ∧
        (t.mode = .s → u.xtsp = BitVec.ofNat 64 (sp.toNat + f.size) ∧ u.xhtsp = t.xhtsp) ∧
        u.run = some { r with target := some f.resume, newText := some f.text } ∧ u.regs.v = t.regs.v ∧ u.regs.s = t.regs.s)

/-- R97–R103: the calls, the entry into a trap with its frame, and the return. -/
def Obligations.Traps : Prop := Claims.CallsTrap ∧ Claims.TrapEntry ∧ Claims.FrameLayout ∧ Claims.ReturnFromTrap

namespace Sys2Proof.Claims

open Sys2Proof.Machine

/-! ### What an access issues (R65, R66) -/

/-- A register-writing operation that delivers the elements `vd` and the scalars `sd`, by key: with SETA 15 they hold before the next
instruction; else one operation that will write them counts on the flag of SETA. Its flags `fl` are ORed in when it completes (R110).
Nothing else of the team changes but the note, in operations still out, of what was written beside them (R67). -/
def Delivers (t u : Team) (r : Run) (vd sd : List (Nat × Word)) (fl : FpFlags) : Prop :=
  (r.setA = 15 →
    { u with regs := t.regs, nextOp := t.nextOp, ops := t.ops } = t ∧
      u.ops.map (fun o => { o with dirty := [] }) = t.ops.map (fun o => { o with dirty := [] }) ∧
      { u.regs with
        v := t.regs.v, s := t.regs.s, vPoison := t.regs.vPoison, sPoison := t.regs.sPoison, fflags := t.regs.fflags } = t.regs ∧
      u.regs.fflags = t.regs.fflags ||| fl ∧
      (∀ x ∈ vd, Sparse.get 0#32 u.regs.v x.1 = x.2) ∧ (∀ x ∈ sd, Sparse.get 0#32 u.regs.s x.1 = x.2) ∧
      (∀ key, (∀ x ∈ vd, x.1 ≠ key) → Sparse.get 0#32 u.regs.v key = Sparse.get 0#32 t.regs.v key) ∧
      ∀ key, (∀ x ∈ sd, x.1 ≠ key) → Sparse.get 0#32 u.regs.s key = Sparse.get 0#32 t.regs.s key) ∧
  (r.setA ≠ 15 →
    ∃ o, u = { t with ops := t.ops ++ [o], nextOp := t.nextOp + 1, flags := u.flags } ∧ u.flag r.setA = t.flag r.setA + 1 ∧
      (∀ key, key ≠ 16 * t.depth + r.setA → Sparse.get 0 u.flags key = Sparse.get 0 t.flags key) ∧
      o.classA = true ∧ o.flag = some r.setA ∧ o.depth = t.depth ∧ o.waits = false ∧ o.fflags = fl ∧ o.dirty = [] ∧
      o.vDest = vd.map (fun x => (x.1, x.2, false)) ∧ o.sDest = sd.map fun x => (x.1, x.2, false))

/-- An operation that writes no register: counted on the flag of SETB, and with SETB 15 not at all. -/
def Counted (t u : Team) (r : Run) : Prop :=
  (r.setB = 15 → u = t) ∧
  (r.setB ≠ 15 →
    ∃ o, u = { t with ops := t.ops ++ [o], nextOp := t.nextOp + 1, flags := u.flags } ∧ u.flag r.setB = t.flag r.setB + 1 ∧
      (∀ key, key ≠ 16 * t.depth + r.setB → Sparse.get 0 u.flags key = Sparse.get 0 t.flags key) ∧
      o.classA = false ∧ o.flag = some r.setB ∧ o.depth = t.depth ∧ o.vDest = [] ∧ o.sDest = [])

/-- A lane's trap at the instruction now issuing. -/
structure LaneFault where
  lane   : Nat
  cause  : Nat
  detail : Nat
  addr   : Nat
  inH    : Bool

/-- The team with some lanes trapping at the instruction now issuing (R98). -/
def trapping (t : Team) (r : Run) (xs : List LaneFault) : Team :=
  { t with run := some { r with
    traps := r.traps ++ xs.map fun x =>
      ⟨1#1024 <<< x.lane, x.cause, BitVec.ofNat 32 x.detail, x.addr, r.itemIdx, false, false, x.inH, 0⟩ } }

/-- The elements that values of `n` bytes go to: a register of each lane, or its pair (R4, R358). -/
def loadTargets (m : Mode) (d n : Nat) (vals : List (Nat × Nat)) : List (Nat × Word) :=
  vals.map (fun x => (vKey m d x.1, BitVec.ofNat 32 x.2)) ++
    if n = 8 then vals.map fun x => (vKey m (d + 1) x.1, BitVec.ofNat 32 (x.2 / 2 ^ 32)) else []

/-- The bytes of a size code (R79). -/
def accessBytes (z : BitVec 2) : Nat :=
  match z.toNat with
  | 0 => 4
  | 1 => 8
  | 2 => 2
  | _ => 1

/-- A number of bytes in ascending order, little-endian (R4). -/
def numberOf (bs : List Byte) : Nat := bs.foldr (fun b n => b.toNat + 256 * n) 0

/-! ### Local memory -/

/-- The local access of a lane: what the checks find for it, and the value at a place with its poison. -/
structure LocalAccess where
  d     : Nat
  n     : Nat
  fate  : Nat → LocalFate
  value : Nat → Nat → Nat → Nat × Bool

/-- The bytes of one element by format (R134). -/
def formatBytes (f : Nat) : Nat :=
  match f with
  | 0 | 5 => 4
  | 1 | 2 => 2
  | 3 | 4 => 1
  | 16 => 1
  | _ => 8

/-- The local address and the position along its line of element `e` of a tile (R135). -/
def elementPlace (x : Tile) (e : Nat) : Nat × Nat :=
  let row := e / (x.d1.toNat / 65536)
  let col := e % (x.d1.toNat / 65536)
  let line := if x.d2.toNat / 256 % 4 = 1 then col else row
  let pos := if x.d2.toNat / 256 % 4 = 1 then row else col
  (x.d0.toNat + line * x.d3.toNat + (if x.d2.toNat % 32 = 16 then pos / 2 else pos * formatBytes (x.d2.toNat % 32)), pos)

/-- The checks of a lane's element (R360, R404). -/
def elementFate (s : State) (t : Team) (b : Block) (x : Tile) (store : Bool) (e : Nat) : LocalFate :=
  let at' := (t.run.map (·.item.addr)).getD t.pc
  let f := x.d2.toNat % 32
  if (x.d1.toNat % 65536) * (x.d1.toNat / 65536) ≤ e then .trap 7 (if store then 1 else 0) at'
  else if ¬ (f ≤ 5 ∨ f = 16) then .trap 1 (((t.run.map (·.item.word)).getD 0) % 2147483648) at'
  else checkLocal s s.cur t b (if store then 1 else 0) (formatBytes f) store (elementPlace x e).1

/-- The value `LDT` writes for the bytes of an element (R360). -/
def elementValue (f pos v : Nat) : Nat :=
  if f = 3 then (if v < 128 then v else v + 0xFFFFFF00) else if f = 16 then v / 16 ^ (pos % 2) % 16 else v

/-- The lanewise local loads of a block. -/
def localLoadForm (s : State) (t : Team) (b : Block) : Instr → Option LocalAccess
  | .ldl _ d sb i z =>
    let n := accessBytes z
    some ⟨d.toNat, n, fun l => checkLocal s s.cur t b 0 n false (t.readS s.tick sb.toNat + t.readV s.tick i.toNat l).toNat,
      fun _ core off => (numberOf (scratchBytes s core off n).1, (scratchBytes s core off n).2)⟩
  | .ldt _ d tn i =>
    let x := b.tile tn.toNat
    let e := fun l => (t.readV s.tick i.toNat l).toNat
    let n := formatBytes (x.d2.toNat % 32)
    if x.valid ∧ x.state = 2 ∧ x.eng = false then
      some ⟨d.toNat, 4, fun l => elementFate s t b x false (e l),
        fun l core off => (elementValue (x.d2.toNat % 32) (elementPlace x (e l)).2 (numberOf (scratchBytes s core off n).1),
          (scratchBytes s core off n).2)⟩
    else none
  | _ => none

/-- The lanewise local stores of a block: what the checks find for a lane, the bytes stored, and what byte `j` of them becomes where it
held `old`. -/
structure LaneStore where
  fate : Nat → LocalFate
  n    : Nat
  byte : Nat → Nat → Byte → Byte

/-- See `LaneStore`. -/
def localStoreForm (s : State) (t : Team) (b : Block) : Instr → Option LaneStore
  | .stl _ d sb i z =>
    let n := accessBytes z
    some ⟨fun l => checkLocal s s.cur t b 1 n true (t.readS s.tick sb.toNat + t.readV s.tick i.toNat l).toNat, n,
      fun l j _ => octet (t.readV s.tick (d.toNat + j / 4) l) (j % 4)⟩
  | .stt _ d tn i =>
    let x := b.tile tn.toNat
    let e := fun l => (t.readV s.tick i.toNat l).toNat
    if x.valid ∧ x.state = 1 ∧ x.eng = false then
      some ⟨fun l => elementFate s t b x true (e l), formatBytes (x.d2.toNat % 32),
        fun l j old =>
          let w := t.readV s.tick d.toNat l
          if x.d2.toNat % 32 = 16 then
            (if (elementPlace x (e l)).2 % 2 = 0 then old.extractLsb' 4 4 ++ w.extractLsb' 0 4 else w.extractLsb' 0 4 ++ old.extractLsb' 0 4)
          else octet w j⟩
    else none
  | _ => none

/-- The lanes that trap, with their causes. -/
def localFaults (ls : List Nat) (fate : Nat → LocalFate) : List LaneFault :=
  ls.filterMap fun l => match fate l with
    | .trap c d a => some ⟨l, c, d, a, false⟩
    | .go _ _ => none

/-- No `MDRN` or `MRST` is outstanding, whose area a team would read and leave with old or new elements (R369). -/
def Unsaving (s : State) : Prop := ∀ x ∈ s.teams, ∀ o ∈ x.2.ops, o.area = none

/-- The team has observed a barrier since every scratchpad store from another core (R129, R359). -/
def Ordered (s : State) : Prop := ∀ x ∈ s.hub.loose, x.writer = coreOfTeam s.cur ∨ s.cur ∈ x.seen

/-- What a byte of a scratchpad becomes when the lanes `ls` store in ascending order (R42). -/
def storedOver (ls : List Nat) (w : LaneStore) (core off : Nat) (old : Byte) : Byte :=
  ls.foldl (fun x l => match w.fate l with
    | .go c o => if c = core ∧ o ≤ off ∧ off < o + w.n then w.byte l (off - o) x else x
    | .trap _ _ _ => x) old

end Sys2Proof.Claims

open Sys2Proof Sys2Proof.Machine Sys2Proof.Claims

/-- R129, R132: what a local range names: the block's own allocation, the allocation of a block of the same cluster group through its
window, and nothing beyond an allocation, inside the carve-out, in the windows of an ungrouped launch or above them. -/
def Sys2Proof.Claims.LocalAddresses : Prop :=
  ∀ (s : State) (b : Block) (a n : Nat), 0 < n → b.size ≤ 0x4000000 →
    (a + n ≤ b.size → b.base + a + n ≤ (s.core b.core).carveFrom → localRange s b a n = some (b.core, b.base + a)) ∧
    (a + n ≤ b.size → (s.core b.core).carveFrom < b.base + a + n → localRange s b a n = none) ∧
    (b.size < a + n → a + n ≤ 0x4000000 → localRange s b a n = none) ∧
    (b.grouped = false → b.size ≤ a → localRange s b a n = none) ∧ (0x8000000 ≤ a → localRange s b a n = none) ∧
    ∀ (j o : Nat) (kb : Nat × Block), j < 4 → b.grouped = true →
      (s.blocksOfCore (4 * (b.core / 4) + j)).find? (fun x => x.2.launch == b.launch && x.2.grouped && x.2.index / 4 == b.index / 4) =
        some kb → a = 0x4000000 + 0x1000000 * j + o → o < 0x1000000 → kb.2.size ≤ 0x1000000 →
      (o + n ≤ kb.2.size → kb.2.base + o + n ≤ (s.core kb.2.core).carveFrom → localRange s b a n = some (kb.2.core, kb.2.base + o)) ∧
      (kb.2.size ≤ o → localRange s b a n = none)

/-- R55, R134, R135, R357, R359, R360, R65, R98: `LDL` and `LDT` deliver the value at each lane's place, with the traps of the lanes whose
checks fail; a helper lane that would trap or read poison gives 0; where every lane traps nothing is counted. No `MDRN` or `MRST` is
outstanding, and a barrier orders the stores of other cores (R359, R369). -/
def Sys2Proof.Claims.LocalLoad : Prop :=
  ∀ (s : State) (t : Team) (r : Run) (b : Block) (i : Instr) (w : LocalAccess), s.team s.cur = some t → t.run = some r →
    s.block t.block = some b → Clean t → Unsaving s → Ordered s → localLoadForm s t b i = some w →
    let helpers := if 120 ≤ w.d then lanesOf t.helpers t.lanes else []
    (∀ l ∈ t.actingLanes, ∀ core off, w.fate l = .go core off → (w.value l core off).2 = false) →
    let vals := t.actingLanes.filterMap (fun l => match w.fate l with
        | .go core off => some (l, (w.value l core off).1)
        | .trap _ _ _ => none) ++
      helpers.map fun l => match w.fate l with
        | .go core off => (l, if (w.value l core off).2 then 0 else (w.value l core off).1)
        | .trap _ _ _ => (l, 0)
    let faulted := trapping t r (localFaults t.actingLanes w.fate)
    (t.actingLanes ++ helpers ≠ [] → t.flagFull true = false →
      (vals = [] → exec i s = .next (s.setTeam s.cur faulted)) ∧
      (vals ≠ [] → ∃ u, exec i s = .next (s.setTeam s.cur u) ∧ Delivers faulted u r (loadTargets t.mode w.d w.n vals) [] 0)) ∧
    (t.actingLanes ++ helpers ≠ [] → t.flagFull true = true → exec i s = .next (stallInstr s)) ∧
    (t.actingLanes ++ helpers = [] → exec i s = .next (s.setTeam s.cur t))

/-- R42, R65, R98, R272, R403, R404: `STL` and `STT` write each lane's bytes to its place at once, the higher lane's byte remaining, clear the
poison of the words a lane covers whole, record the traps of the lanes whose checks fail, and count on SETB unless every lane traps; nothing
else of the machine changes, but that in a cluster group the stores are unordered for other cores (R359). No `MDRN` or `MRST` is outstanding (R369). -/
def Sys2Proof.Claims.LocalStore : Prop :=
  ∀ (s : State) (t : Team) (r : Run) (b : Block) (i : Instr) (w : LaneStore), s.team s.cur = some t → t.run = some r →
    s.block t.block = some b → Clean t → Unsaving s → localStoreForm s t b i = some w →
    (t.actingLanes ≠ [] → t.flagFull false = false →
      ∃ s' u, exec i s = .next s' ∧ { s' with cores := s.cores, hub := { s'.hub with loose := s.hub.loose } } = s.setTeam s.cur u ∧
        (b.grouped = false → s'.hub = s.hub) ∧
        ((∃ l ∈ t.actingLanes, ∃ core off, w.fate l = .go core off) →
          Counted (trapping t r (localFaults t.actingLanes w.fate)) u r) ∧
        ((∀ l ∈ t.actingLanes, ∃ c d a, w.fate l = .trap c d a) → u = trapping t r (localFaults t.actingLanes w.fate)) ∧
        ∀ core, { s'.core core with scratch := (s.core core).scratch, scratchPoison := (s.core core).scratchPoison } = s.core core ∧
          (∀ off, Sparse.get 0#8 (s'.core core).scratch off =
            storedOver t.actingLanes w core off (Sparse.get 0#8 (s.core core).scratch off)) ∧
          ∀ word, Sparse.get false (s'.core core).scratchPoison word =
            (Sparse.get false (s.core core).scratchPoison word &&
              !t.actingLanes.any fun l => match w.fate l with
                | .go c o => decide (c = core ∧ o ≤ 4 * word ∧ 4 * word + 4 ≤ o + w.n)
                | .trap _ _ _ => false)) ∧
    (t.actingLanes ≠ [] → t.flagFull false = true → exec i s = .next (stallInstr s)) ∧
    (t.actingLanes = [] → exec i s = .next (s.setTeam s.cur t))

/-- R55, R360, R404: a tile that is not defined, not in the state needed, or held by an engine makes `LDT` and `STT` trap `TILE_STATE` for
every acting lane, with tile, state and the bit for an undefined tile; `LDT` to a run temporary gives its helper lanes 0. -/
def Sys2Proof.Claims.TileStateTrap : Prop :=
  ∀ (s : State) (t : Team) (r : Run) (b : Block) (c : BitVec 1) (d : BitVec 7) (tn : BitVec 6) (v : BitVec 7), s.team s.cur = some t →
    t.run = some r → s.block t.block = some b →
    let x := b.tile tn.toNat
    let detail := BitVec.ofNat 32 (tn.toNat + 256 * x.state.toNat + if x.valid then 0 else 1024)
    let u := if t.acting = 0#1024 then t else { t with run := some { r with
      traps := r.traps ++ [⟨t.acting, 10, detail, r.item.addr, r.itemIdx, false, false, false, 0⟩] } }
    let helpers := if 120 ≤ d.toNat then lanesOf t.helpers t.lanes else []
    (¬ (x.valid ∧ x.state = 2 ∧ x.eng = false) →
      (helpers = [] → exec (.ldt c d tn v) s = .next (s.setTeam s.cur u)) ∧
      (helpers ≠ [] → t.flagFull true = true → exec (.ldt c d tn v) s = .next (stallInstr s)) ∧
      (helpers ≠ [] → t.flagFull true = false →
        ∃ u', exec (.ldt c d tn v) s = .next (s.setTeam s.cur u') ∧
          Delivers u u' r (helpers.map fun l => (vKey t.mode d.toNat l, 0#32)) [] 0)) ∧
    (¬ (x.valid ∧ x.state = 1 ∧ x.eng = false) → exec (.stt c d tn v) s = .next (s.setTeam s.cur u))

/-- R129, R359, R360, R403, R404: loads and stores of the scratchpad, by address and by tile. -/
def Obligations.LocalAccess : Prop := Claims.LocalAddresses ∧ Claims.LocalLoad ∧ Claims.LocalStore ∧ Claims.TileStateTrap

namespace Sys2Proof.Claims

open Sys2Proof.Machine

/-! ### Global memory -/

/-- The lanes that trap, with their causes and addresses. -/
def accessFaults (ls : List Nat) (addr : Nat → Nat) (fate : Nat → Fate) : List LaneFault :=
  ls.filterMap fun l => match fate l with
    | .trap c d h _ => some ⟨l, c, d, addr l, h⟩
    | _ => none

/-- Every lane's checks end in a trap or an access made at once. -/
def Resolved (ls : List Nat) (fate : Nat → Fate) : Prop :=
  ∀ l ∈ ls, (∃ pa attr sh, fate l = .go pa attr sh) ∨ ∃ c d h sh, fate l = .trap c d h sh

/-- The physical addresses of the lanes whose accesses are made. -/
def accessPlaces (ls : List Nat) (fate : Nat → Fate) : List (Nat × Nat) :=
  ls.filterMap fun l => match fate l with
    | .go pa _ _ => some (l, pa)
    | _ => none

/-- The state but for what the L1 of core `c` and L2 hold. -/
def OnlyCaches (s s' : State) (c : Nat) : Prop :=
  { s' with cores := s.cores, home := s.home } = s ∧ { s'.home with l2 := s.home.l2 } = s.home ∧ (∀ j, j ≠ c → s'.core j = s.core j) ∧
    { s'.core c with l1 := (s.core c).l1, l1Poison := (s.core c).l1Poison, l1Keep := (s.core c).l1Keep } = s.core c

/-- A log entry's byte `i`. -/
def entryByte (e : LogEntry) (i : Nat) : Byte := (e.data >>> (8 * i)).setWidth 8

end Sys2Proof.Claims

open Sys2Proof Sys2Proof.Machine Sys2Proof.Claims

/-- R147: the value of a byte for a team of a context on a core: the covering unfolded entry of that context's log there, with the detached
ones that it holds, with the highest position; else the L1 copy, else the byte of the home slice. -/
def Sys2Proof.Claims.ReaderView : Prop :=
  ∀ (s : State) (c ctx tag pa : Nat), (s.core c).tagOf ctx = some tag →
    let entries := (s.core c).log.filter fun e => e.ctx == tag
    let covering := entries.filter fun e => e.chunk == pa / 32 && e.mask.getLsbD (pa % 32)
    (∀ e ∈ covering, (∀ x ∈ covering, x.pos < e.pos ∨ x = e) → viewByte s c ctx true pa = (entryByte e (pa % 32), e.pois)) ∧
    (covering = [] → ∀ line, (s.core c).l1.find (pa / 128) = some line →
      (viewByte s c ctx true pa).1 = line.getD (pa % 128) 0#8) ∧
    (covering = [] → (s.core c).l1.find (pa / 128) = none →
      viewByte s c ctx true pa = (s.home.byte pa, Sparse.get false s.home.poison (pa / 32)))

/-- R298, R357, R402: the checks of one address, in order: a nonzero byte 7 is `PAGE`, a misalignment `ALIGN`, a watch of the access's kind
`WATCH`; a load that overlaps a parked store of its team, and an access with no translation held, park; the held translation's permissions
give `PROT` in S, then in H; then the range locks give `RANGE_HIT`. -/
def Sys2Proof.Claims.AccessChecks : Prop :=
  ∀ (s : State) (k : Nat) (t : Team) (store : Bool) (n va : Nat), 0 < n →
    let a := if store then Access.store n else Access.load n
    let kind := if store then 1 else 0
    let c := coreOfTeam k
    let f := (checkAccess s k t a false va).2
    (checkAccess s k t a false va).1 = s ∧
    (2 ^ 56 ≤ va → f = .trap 6 kind false false) ∧
    (va < 2 ^ 56 → va % n ≠ 0 → f = .trap 8 n false false) ∧
    (va < 2 ^ 56 → va % n = 0 → ∀ w, watchHit s c (s.ctxOf t) va n (kind + 1) = some w → f = .trap 22 w false false) ∧
    (va < 2 ^ 56 → va % n = 0 → watchHit s c (s.ctxOf t) va n (kind + 1) = none → (store = true ∨ t.behindStore va n = false) →
      (lookupTlb s c (s.ctxOf t) va = none → f = .park) ∧
      ∀ x, lookupTlb s c (s.ctxOf t) va = some x →
        let pa := x.pa + (va - x.base)
        ((t.mode = .u ∧ x.ua = false ∨ store = true ∧ x.wr = false) → f = .trap 7 kind false false) ∧
        (¬ (t.mode = .u ∧ x.ua = false ∨ store = true ∧ x.wr = false) → store = true → x.wr2 = false → f = .trap 7 (kind + 4) true false) ∧
        (¬ (t.mode = .u ∧ x.ua = false ∨ store = true ∧ (x.wr = false ∨ x.wr2 = false)) → pa < hbmTop →
          (∀ i, lockHit s c (s.tagOn c (s.ctxOf t)) false c pa n store = some i → f = .trap 9 i false x.sh) ∧
          (lockHit s c (s.tagOn c (s.ctxOf t)) false c pa n store = none → f = .go pa x.attr x.sh))) ∧
    (va < 2 ^ 56 → va % n = 0 → watchHit s c (s.ctxOf t) va n (kind + 1) = none → store = false → t.behindStore va n = true → f = .park)

/-- R55, R65, R98, R147, R356–R358: a vector `LD` whose lanes all resolve delivers to each lane the value its view gives, and records the
traps of the others; a helper lane that would miss or trap gives 0; only what L1 of its core and L2 hold may change besides, which comes
before the helper lanes read. Where every lane traps nothing is counted. -/
def Sys2Proof.Claims.GlobalLoad : Prop :=
  ∀ (s : State) (t : Team) (r : Run) (c : BitVec 1) (d : BitVec 7) (b : BitVec 6) (i : BitVec 7) (z : BitVec 2) (p : BitVec 3),
    s.team s.cur = some t → t.run = some r → Clean t → t.parked = [] → t.flagFull true = false →
    let helpers := if 120 ≤ d.toNat then lanesOf t.helpers t.lanes else []
    t.actingLanes ++ helpers ≠ [] →
    let n := accessBytes z
    let addr := fun l => (pair64 (t.readS s.tick b.toNat) (t.readS s.tick (b.toNat + 1)) + (t.readV s.tick i.toNat l).setWidth 64).toNat
    let fate := fun l => (checkAccess s s.cur t (Access.load n) false (addr l)).2
    let places := accessPlaces t.actingLanes fate
    let value := fun pa => readAt s (coreOfTeam s.cur) (s.ctxOf t) pa n true
    Resolved t.actingLanes fate → (∀ x ∈ places, (value x.2).2 = false) →
    ∃ s' u, exec (.ldVector c d b i z p) s = .next (s'.setTeam s.cur u) ∧ OnlyCaches s s' (coreOfTeam s.cur) ∧
      let vals := places.map (fun x => (x.1, numberOf (value x.2).1)) ++
        helpers.map fun l => match (checkAccess s s.cur t { Access.load n with watch := 0 } false (addr l)).2 with
          | .go pa _ _ =>
            let v := readAt s' (coreOfTeam s.cur) (s.ctxOf t) pa n true
            (l, if v.2 then 0 else numberOf v.1)
          | _ => (l, 0)
      let faulted := trapping t r (accessFaults t.actingLanes addr fate)
      if vals = [] then u = faulted else Delivers faulted u r (loadTargets t.mode d.toNat n vals) [] 0

/-- R65, R98, R356–R358: a scalar `LD` is checked and performed once; its value goes to sd (nothing to `s0`), or its cause strikes the whole
team. -/
def Sys2Proof.Claims.ScalarLoad : Prop :=
  ∀ (s : State) (t : Team) (r : Run) (c : BitVec 1) (d b : BitVec 6) (z : BitVec 2) (o : BitVec 11),
    s.team s.cur = some t → t.run = some r → (∀ x, t.poisonS x = false) → t.parked = [] → t.mute = false → t.flagFull true = false →
    let n := accessBytes z
    let va := (pair64 (t.readS s.tick b.toNat) (t.readS s.tick (b.toNat + 1)) + o.signExtend 64).toNat
    let fate := (checkAccess s s.cur t (Access.load n) false va).2
    (∀ pa attr sh, fate = .go pa attr sh → (readAt s (coreOfTeam s.cur) (s.ctxOf t) pa n true).2 = false →
      ∃ s' u, exec (.ldScalar c d b z o) s = .next (s'.setTeam s.cur u) ∧ OnlyCaches s s' (coreOfTeam s.cur) ∧
        let v := numberOf (readAt s (coreOfTeam s.cur) (s.ctxOf t) pa n true).1
        Delivers t u r [] ((if d.toNat = 0 then [] else [(sKey t.mode d.toNat, BitVec.ofNat 32 v)]) ++
          if n = 8 then [(sKey t.mode (d.toNat + 1), BitVec.ofNat 32 (v / 2 ^ 32))] else []) 0) ∧
    ∀ cause detail h sh, fate = .trap cause detail h sh →
      let lanes := (if t.k0 = 0#1024 then t.living else t.k0) &&& ~~~r.held
      exec (.ldScalar c d b z o) s = .next (s.setTeam s.cur (if lanes = 0#1024 then t else { t with run := some { r with
        traps := r.traps ++ [⟨lanes, cause, BitVec.ofNat 32 detail, va, r.itemIdx, false, false, h, 0⟩] } }))

/-- R139, R211: a load one of whose lanes finds no translation parks those lanes in the operand log with their addresses; with the log's eight
entries full it waits. -/
def Sys2Proof.Claims.LoadParks : Prop :=
  ∀ (s : State) (t : Team) (r : Run) (c : BitVec 1) (d : BitVec 7) (b : BitVec 6) (i : BitVec 7) (z : BitVec 2) (p : BitVec 3),
    s.team s.cur = some t → t.run = some r → Clean t → t.flagFull true = false → (d.toNat < 120 ∨ t.helpers = 0#1024) →
    t.actingLanes ≠ [] →
    let addr := fun l => (t.readPair s.tick b.toNat + (t.readV s.tick i.toNat l).setWidth 64).toNat
    (∀ l ∈ t.actingLanes, (checkAccess s s.cur t (Access.load (accessBytes z)) false (addr l)).2 = .park) →
    (8 ≤ t.parked.length → exec (.ldVector c d b i z p) s = .next (stallInstr s)) ∧
    (t.parked.length < 8 →
      ∃ u q, exec (.ldVector c d b i z p) s = .next (s.setTeam s.cur u) ∧ u.regs = t.regs ∧ u.parked = t.parked ++ [q] ∧
        q.pending = t.actingLanes.map (fun l => (l, addr l, [])) ∧ q.faulted = [] ∧ q.depth = t.depth ∧ q.framed = false ∧
        (r.setA ≠ 15 → u.run = t.run ∧ u.flag r.setA = t.flag r.setA + 1) ∧
        (r.setA = 15 → u.run = some { r with hold := some (.onOp q.op) }))

/-- R139, R211, R298, R356–R358: the checks of a global address, the loads, and their parking. -/
def Obligations.GlobalLoads : Prop := Claims.AccessChecks ∧ Claims.GlobalLoad ∧ Claims.ScalarLoad ∧ Claims.LoadParks

/-- R42, R144–R146, R401, R402: a vector `ST` to HBM whose lanes all resolve appends entries at TAIL, in pass order and one for each chunk
that a pass touches; an entry's bytes are those of the lanes of its pass, the higher lane's where two write one byte. The store is complete
with them, so that it leaves no operation out. Nothing else of the machine changes but monitors that the append wakes. -/
def Sys2Proof.Claims.GlobalStore : Prop :=
  ∀ (s : State) (t : Team) (r : Run) (c : BitVec 1) (d : BitVec 7) (b : BitVec 6) (i : BitVec 7) (z : BitVec 2) (p : BitVec 3) (tag : Nat),
    s.team s.cur = some t → t.run = some r → Clean t → t.parked = [] → t.actingLanes ≠ [] → t.flagFull false = false →
    s.deterministic t = false → (s.core (coreOfTeam s.cur)).tagOf (s.ctxOf t) = some tag →
    (s.core (coreOfTeam s.cur)).ringUsed + t.lanes ≤ ringSize →
    let n := accessBytes z
    let addr := fun l => (t.readPair s.tick b.toNat + (t.readV s.tick i.toNat l).setWidth 64).toNat
    let fate := fun l => (checkAccess s s.cur t (Access.store n) false (addr l)).2
    let places := accessPlaces t.actingLanes fate
    let core := coreOfTeam s.cur
    Resolved t.actingLanes fate → (∀ x ∈ places, x.2 < hbmTop ∧ x.2 % n = 0) →
    ∃ (s' : State) (u : Team) (new : List (Nat × LogEntry)), exec (.stVector c d b i z p) s = .next s' ∧
      s'.team s.cur = some u ∧ u = { trapping t r (accessFaults t.actingLanes addr fate) with monitor := u.monitor } ∧
      { s' with cores := s.cores, teams := s.teams } = s ∧ (∀ j, j ≠ core → s'.core j = s.core j) ∧
      (∀ k, k ≠ s.cur → (s'.team k).map (fun v => { v with monitor := Monitor.clear }) =
        (s.team k).map fun v => { v with monitor := Monitor.clear }) ∧
      { s'.core core with log := (s.core core).log, ctxLogs := (s.core core).ctxLogs } = s.core core ∧
      (s'.core core).log = (s.core core).log ++ new.map (·.2) ∧ (s'.core core).tail tag = (s.core core).tail tag + new.length ∧
      new.Pairwise (fun x y => x.1 < y.1 ∨ x.1 = y.1 ∧ x.2.chunk ≠ y.2.chunk) ∧
      (∀ j x, new[j]? = some x →
        x.2.pos = (s.core core).tail tag + j ∧ x.2.ctx = tag ∧ x.2.pub = false ∧ x.2.spl = false ∧ x.2.eng = false ∧ x.2.pois = false ∧
          x.2.tctx = ctxOfTeam s.cur ∧ x.2.rgn = t.region.isSome ∧
          ∀ m, m < 32 →
            let writers := places.filter fun y => y.1 / 32 == x.1 && decide (y.2 ≤ 32 * x.2.chunk + m ∧ 32 * x.2.chunk + m < y.2 + n)
            x.2.mask.getLsbD m = !writers.isEmpty ∧
              ∀ y, writers.getLast? = some y →
                entryByte x.2 m = octet (t.readV s.tick (d.toNat + (32 * x.2.chunk + m - y.2) / 4) y.1) ((32 * x.2.chunk + m - y.2) % 4)) ∧
      ∀ y ∈ places, ∃ x ∈ new, x.1 = y.1 / 32 ∧ x.2.chunk = y.2 / 32

/-- R42, R144–R146, R356, R401, R402: a scalar `ST` to HBM appends one entry of its bytes at TAIL, and is complete with it. -/
def Sys2Proof.Claims.ScalarStore : Prop :=
  ∀ (s : State) (t : Team) (r : Run) (c : BitVec 1) (d b : BitVec 6) (z : BitVec 2) (o : BitVec 11) (tag pa attr : Nat) (sh : Bool),
    s.team s.cur = some t → t.run = some r → (∀ x, t.poisonS x = false) → t.parked = [] → t.mute = false → t.flagFull false = false →
    0 < t.words → s.deterministic t = false → (s.core (coreOfTeam s.cur)).tagOf (s.ctxOf t) = some tag →
    (s.core (coreOfTeam s.cur)).ringUsed < ringSize →
    let n := accessBytes z
    let core := coreOfTeam s.cur
    let va := (t.readPair s.tick b.toNat + o.signExtend 64).toNat
    (checkAccess s s.cur t (Access.store n) false va).2 = .go pa attr sh → pa < hbmTop → pa % n = 0 →
    ∃ (s' : State) (u : Team) (e : LogEntry), exec (.stScalar c d b z o) s = .next s' ∧ s'.team s.cur = some u ∧
      u = { t with monitor := u.monitor } ∧ { s' with cores := s.cores, teams := s.teams } = s ∧
      (∀ j, j ≠ core → s'.core j = s.core j) ∧
      { s'.core core with log := (s.core core).log, ctxLogs := (s.core core).ctxLogs } = s.core core ∧
      (s'.core core).log = (s.core core).log ++ [e] ∧ (s'.core core).tail tag = (s.core core).tail tag + 1 ∧
      e.pos = (s.core core).tail tag ∧ e.ctx = tag ∧ e.chunk = pa / 32 ∧ e.pub = false ∧ e.tctx = ctxOfTeam s.cur ∧
      ∀ m, m < 32 → e.mask.getLsbD m = decide (pa % 32 ≤ m ∧ m < pa % 32 + n) ∧
        (pa % 32 ≤ m → m < pa % 32 + n → entryByte e m = octet (t.readS s.tick (d.toNat + (m - pa % 32) / 4)) ((m - pa % 32) % 4))

/-- R143–R146, R401, R402: global stores, vector and scalar. -/
def Obligations.GlobalStores : Prop := Claims.GlobalStore ∧ Claims.ScalarStore

namespace Sys2Proof.Claims

open Sys2Proof.Machine

/-! ### Releases and acquires (R148, R149, R151) -/

/-- An entry lies below mark `m` of its log, by its position or one that it had on another core (R145, R157). -/
def belowMark (m : Nat) (e : LogEntry) : Bool := decide (e.pos < m) || e.past.any fun x => decide (x.2 < m)

/-- The log entries that a team's release of context tag `tag` up to mark `m` publishes: a detached log is not its own (R159). -/
def toPublish (tag m : Nat) (e : LogEntry) : Bool := e.ctx == tag && belowMark m e && !e.pub && e.det.isNone

/-- A segment of core `c` has an entry below a mark. -/
def segmentBelow (c m : Nat) (x : Segment) : Bool := x.holds.any fun y => y.1 == c && decide (y.2 < m)

/-! ### `ATOM` (R299, R300) -/

/-- Bytes of an op. -/
def atomSize (op : Nat) : Nat := if op = 1 ∨ op = 14 then 8 else if op = 3 ∨ op = 4 ∨ op = 15 then 64 else 4

/-- The table of R299: what memory becomes, as a number of the op's bytes, what `vd` and `vd + 1` become, and the flags, from the
old number and the operands. -/
def atomTable (op m : Nat) (a b : Word) : Nat × Word × Word × FpFlags :=
  let w := BitVec.ofNat 32 m
  let q := a.toNat + 2 ^ 32 * b.toNat
  let old := BitVec.ofNat 32 (m / 2 ^ 32)
  let pick := fun (better : Bool) => (if better then m else a.toNat, w, 0#32, (0#5 : FpFlags))
  match op with
  | 0 => ((m + a.toNat) % 2 ^ 32, w, 0, 0)
  | 1 => ((m + q) % 2 ^ 64, w, old, 0)
  | 2 => ((sum32 w a).1.toNat, w, 0, (sum32 w a).2)
  | 3 => (((Exa.ofNat m).fold (FpFmt.f32.read a.toNat)).toNat, BitVec.ofNat 32 (Exa.ofNat m).count, 0, 0)
  | 4 => (m, ((Exa.ofNat m).round .rne).1, 0, ((Exa.ofNat m).round .rne).2)
  | 5 => pick (decide (w.toInt < a.toInt))
  | 6 => pick (decide (a.toInt < w.toInt))
  | 7 => pick (decide (w.toNat < a.toNat))
  | 8 => pick (decide (a.toNat < w.toNat))
  | 9 => ((w &&& a).toNat, w, 0, 0)
  | 10 => ((w ||| a).toNat, w, 0, 0)
  | 11 => ((w ^^^ a).toNat, w, 0, 0)
  | 12 => (a.toNat, w, 0, 0)
  | 13 => (if w = a then b.toNat else m, w, if w = a then 1 else 0, 0)
  | 14 => (max m q, w, old, 0)
  | _ => (0, ((Exa.ofNat m).round .rne).1, 0, ((Exa.ofNat m).round .rne).2)

/-- The number that `n` bytes of a memory hold from an address. -/
def memNumber (mem : Nat → Byte) (pa n : Nat) : Nat := numberOf ((List.range n).map fun j => mem (pa + j))

/-- The lanes of an `ATOM` in ascending order, each on the memory that the ones before it leave: the memory, the results with their lanes,
and the flags. -/
def atomLanes (op : Nat) (a b : Nat → Word) : List (Nat × Nat) → (Nat → Byte) → (Nat → Byte) × List (Nat × Word × Word × FpFlags)
  | [], mem => (mem, [])
  | (l, pa) :: rest, mem =>
    let r := atomTable op (memNumber mem pa (atomSize op)) (a l) (b l)
    let mem' := fun x => if pa ≤ x ∧ x < pa + atomSize op then BitVec.ofNat 8 (r.1 / 2 ^ (8 * (x - pa))) else mem x
    let next := atomLanes op a b rest mem'
    (next.1, (l, r.2) :: next.2)

/-- Teams but for their monitors. -/
def SameTeams (s s' : State) (k : Nat) : Prop :=
  ∀ j, j ≠ k → (s'.team j).map (fun v => { v with monitor := Monitor.clear }) =
    (s.team j).map fun v => { v with monitor := Monitor.clear }

/-- Cores but for L1 of core `c`. -/
def SameCores (s s' : State) (c : Nat) : Prop :=
  (∀ j, j ≠ c → s'.core j = s.core j) ∧
    { s'.core c with l1 := (s.core c).l1, l1Poison := (s.core c).l1Poison } = s.core c

/-- No entry waits in any store log. -/
def NoEntries (s : State) : Prop := ∀ kc ∈ s.cores, kc.2.log = []

/-- The run of a team advances an open region (R275). -/
def advancing (t : Team) (r : Run) : Team := { t with run := some { r with advances := true } }

end Sys2Proof.Claims

open Sys2Proof Sys2Proof.Machine Sys2Proof.Claims

/-- R148, R157, R158, R159: a release at CLUSTER scope or wider sets PUB and the new segment's number in every unpublished entry below its
mark, those of detached logs apart, gives the segment the stamp COUNTER + 1 and its scope, widens the narrower published segments below the
mark, and raises PUBPOS; with nothing to publish its stamp is COUNTER, which stays; at SYSTEM scope every such entry below the mark is folded
when it returns. Memory changes in the places of spilled entries alone, in the overflow region. -/
def Sys2Proof.Claims.Release : Prop :=
  ∀ (s : State) (c tag m scope k : Nat) (g : CtxLog), (s.core c).ctxLogs.find tag = some g →
    (∀ x ∈ (s.core c).segs, x.seg ≠ (s.core c).nextSeg) →
    let r := publish s c tag m scope (Publisher.all k)
    (scope = 4 → ∀ e ∈ (r.1.core c).log, ¬ (e.ctx = tag ∧ belowMark m e = true ∧ e.det = none)) ∧
    (scope = 2 ∨ scope = 3 →
    let core := s.core c
    let fresh := core.log.any (toPublish tag m)
    let widen := fun (x : Segment) => if x.ctx = tag ∧ x.scope < scope ∧ segmentBelow c m x then { x with scope := scope } else x
    { r.1 with cores := s.cores, teams := s.teams, home := s.home } = s ∧ { r.1.home with mem := s.home.mem, fold := s.home.fold } = s.home ∧
      (∀ x, r.1.home.tag x = s.home.tag x) ∧
      (∀ x, (∀ e ∈ core.log, toPublish tag m e = true → e.spl = true →
          let place := g.ovfBase.toNat + 64 * (e.pos % 262144)
          x < place ∨ place + 64 ≤ x) → r.1.home.byte x = s.home.byte x) ∧ (∀ j, j ≠ c → r.1.core j = s.core j) ∧
      (r.1.core c).log = core.log.map (fun e => if toPublish tag m e then { e with pub := true, seg := core.nextSeg } else e) ∧
      r.2 = (if fresh then core.counter + 1 else core.counter) ∧ (r.1.core c).counter = r.2 ∧
      (r.1.core c).segs = (if fresh then [⟨tag, g.ctx, core.nextSeg, core.counter + 1, scope,
          (core.log.filter (toPublish tag m)).flatMap fun e => (c, e.pos) :: e.past⟩] else []) ++ core.segs.map widen ∧
      (r.1.core c).pubPos tag = max g.pubPos m ∧ (r.1.core c).tail tag = g.tail)

/-- R149, R150: an acquire at CLUSTER scope or wider leaves no published entry of a segment with a stamp at or below its bound, on a core
within its scope and with a scope that covers the acquirer; it empties the core's L1 and raises COUNTER above the bound. -/
def Sys2Proof.Claims.Acquire : Prop :=
  ∀ (s : State) (c scope b : Nat), 2 ≤ scope →
    let s' := acquire s c scope b
    (s'.core c).l1 = [] ∧ (s'.core c).counter = max (s.core c).counter (b + 1) ∧
      (∀ j, j ≠ c → (s'.core j).counter = (s.core j).counter) ∧
      (∀ j, ∀ e ∈ (s'.core j).log, e ∈ (s.core j).log ∧
        ¬ (e.pub = true ∧ withinScope scope c j = true ∧ segCovers ((s.core j).segOf e) j c = true ∧ ((s.core j).segOf e).stamp ≤ b)) ∧
      ∀ j, ∀ x ∈ (s.core j).segs, s.cores.find j = some (s.core j) → withinScope scope c j = true → segCovers x j c = true →
        x.stamp ≤ acquireBound s c scope

/-- R141, R151: a folded entry gives each byte it covers its value under the tag (stamp, core), unless the byte's tag is greater; every other
byte and tag stays. A sector that L2 does not come to hold, written at the memory controller, has the tag (0, 0). -/
def Sys2Proof.Claims.FoldOrder : Prop :=
  ∀ (s : State) (e : LogEntry) (stamp core pa : Nat),
    let s' := foldEntry stamp core s e
    let t := s.home.tag pa
    let covers := e.chunk = pa / 32 ∧ e.mask.getLsbD (pa % 32) = true
    let tag := if e.keep = 3 ∧ s.home.l2.find (pa / 128) = none then (0, 0) else (stamp, core)
    let wins := ¬ (stamp < t.1 ∨ stamp = t.1 ∧ core < t.2)
    (covers → wins → s'.home.byte pa = entryByte e (pa % 32) ∧ s'.home.tag pa = tag) ∧
    (¬ (covers ∧ wins) → s'.home.byte pa = s.home.byte pa ∧ s'.home.tag pa = t)

/-- R152, R272: a home-slice write sets its bytes, resets their tags, clears the poison of a granule it covers whole, and leaves every other
byte, tag and granule, the sync tags and the cores. -/
def Sys2Proof.Claims.HomeWrite : Prop :=
  ∀ (s : State) (pa : Nat) (bs : List Byte) (pois : Bool), (∀ kc ∈ s.cores, kc.2.log = []) → bs ≠ [] →
    let s' := homeWrite s pa bs pois
    (∀ a, s'.home.byte a = if pa ≤ a then bs.getD (a - pa) (s.home.byte a) else s.home.byte a) ∧
      (∀ a, s'.home.tag a = if pa ≤ a ∧ a < pa + bs.length then (0, 0) else s.home.tag a) ∧
      (∀ g, Sparse.get false s'.home.poison g =
        if 32 * g < pa + bs.length ∧ pa < 32 * g + 32 then
          pois || Sparse.get false s.home.poison g && !decide (pa ≤ 32 * g ∧ 32 * g + 32 ≤ pa + bs.length)
        else Sparse.get false s.home.poison g) ∧
      s'.home.sync = s.home.sync ∧ s'.cores = s.cores

/-- R147, R151, R152: what a load sees, and how entries and home-slice writes reach memory. -/
def Obligations.LogMemory : Prop := Claims.ReaderView ∧ Claims.FoldOrder ∧ Claims.HomeWrite

/-- R65, R109, R110, R297–R300: an `ATOM` with RLX semantics in a launch that is not deterministic, whose lanes all resolve in HBM with
nothing in the logs, performs its lanes in ascending order on memory as the table of R299 says, delivers their results, leaves the sync tags,
and changes no other byte; lanes whose checks fail trap; with no lane performed nothing is counted; and the lowest lane that raises invalid
is noted as R109 says. -/
def Sys2Proof.Claims.AtomicResult : Prop :=
  ∀ (s : State) (t : Team) (r : Run) (c : BitVec 1) (d a : BitVec 7) (op : BitVec 4) (scope : BitVec 3), s.team s.cur = some t →
    t.run = some r → Clean t → t.parked = [] → t.flagFull true = false → s.deterministic t = false →
    NoEntries s → s.home.poison = [] → openRegions s ≤ 65536 →
    let o := op.toNat
    let addr := fun l => (pair64 (t.readV s.tick a.toNat l) (t.readV s.tick (a.toNat + 1) l)).toNat
    let access : Access := ⟨if o = 4 then .load else .atomic, 3, atomSize o, 3, true, o == 2 || o == 3 || o == 15⟩
    let fate := fun l => (checkAccess s s.cur t access false (addr l)).2
    let places := accessPlaces t.actingLanes fate
    let out := atomLanes o (t.readV s.tick d.toNat) (t.readV s.tick (d.toNat + 1)) places s.home.byte
    let trapped := trapping t r (accessFaults t.actingLanes addr fate)
    let going := advancing trapped { r with traps := trapped.run.elim [] Run.traps }
    Resolved t.actingLanes fate → (∀ x ∈ places, x.2 + 64 ≤ hbmTop ∧ x.2 % atomSize o = 0) →
    ∃ s' u, exec (.atom c d a op 0#2 scope) s = .next s' ∧ s'.team s.cur = some u ∧
      { s' with teams := s.teams, cores := s.cores, home := s.home, hub := s.hub } =
        noteInvalid s s.cur ((out.2.find? fun x => x.2.2.2.getLsbD 0).map (·.1)) ∧
      { s'.hub with evicted := s.hub.evicted } = s.hub ∧ SameTeams s s' s.cur ∧ SameCores s s' (coreOfTeam s.cur) ∧
      (∀ x, s'.home.byte x = out.1 x) ∧ s'.home.sync = s.home.sync ∧
      (places = [] → u = going) ∧
      (places ≠ [] → Delivers { going with monitor := u.monitor } u r
        (out.2.flatMap fun x => (vKey t.mode d.toNat x.1, x.2.1) ::
          if o = 1 ∨ o = 13 ∨ o = 14 then [(vKey t.mode (d.toNat + 1) x.1, x.2.2.1)] else []) []
        (out.2.foldl (fun f x => f ||| x.2.2.2) 0))

/-- R150, R153: with nothing in the logs, an `ATOM` whose sem releases raises the STAMP of its sector's sync tag to COUNTER, and at DEVICE scope or
wider leaves no narrow record; one whose sem acquires at CLUSTER scope or wider then raises COUNTER above that STAMP and empties L1. -/
def Sys2Proof.Claims.AtomicOrder : Prop :=
  ∀ (s : State) (t : Team) (c : BitVec 1) (d a : BitVec 7) (op : BitVec 4) (sem : BitVec 2) (scope : BitVec 3) (l pa attr : Nat)
    (sh : Bool), s.team s.cur = some t → t.run.isSome → Clean t → t.parked = [] → t.actingLanes = [l] → t.flagFull true = false →
    s.deterministic t = false → NoEntries s → openRegions s ≤ 65536 → scope.toNat < 5 → (s.home.syncTag (pa / 128)).scope = 7 →
    let o := op.toNat
    let core := coreOfTeam s.cur
    let access : Access := ⟨if o = 4 then .load else .atomic, 3, atomSize o, 3, true, o == 2 || o == 3 || o == 15⟩
    (checkAccess s s.cur t access false (t.readVPair s.tick a.toNat l).toNat).2 = .go pa attr sh → pa + 64 ≤ hbmTop →
    pa % atomSize o = 0 →
    let g := s.home.syncTag (pa / 128)
    let stamp := if 2 ≤ sem.toNat then max g.stamp (s.core core).counter else g.stamp
    ∃ s', exec (.atom c d a op sem scope) s = .next s' ∧
      (s'.home.syncTag (pa / 128)).stamp = stamp ∧ (∀ x, x ≠ pa / 128 → s'.home.syncTag x = s.home.syncTag x) ∧
      (sem.toNat < 2 ∨ 3 ≤ scope.toNat → (s'.home.syncTag (pa / 128)).scope = 7) ∧
      (2 ≤ sem.toNat → scope.toNat < 3 →
        s'.home.syncTag (pa / 128) = ⟨stamp, core, s.tagFor s.cur, scope.toNat, (s.core core).tail (s.tagFor s.cur), s.ctxOf t, none⟩) ∧
      (2 ≤ scope.toNat → sem.toNat % 2 = 1 →
        (s'.core core).counter = max (s.core core).counter (stamp + 1) ∧ (s'.core core).l1 = []) ∧
      (sem.toNat % 2 = 0 ∨ scope.toNat < 2 → (s'.core core).counter = (s.core core).counter)

/-- R150, R153, R297–R300: what `ATOM` does to memory and registers, and its sem. -/
def Obligations.Atomics : Prop := Claims.AtomicResult ∧ Claims.AtomicOrder

/-- R155, R157: in a launch that is not deterministic, with no access pending, `FENCE` makes its release up to TAIL and its acquire with
the bound of R150, at TEAM and CORE scope neither; `LPUB` releases up to its mark and counts on SETB; `LMARK` at TEAM or CORE scope writes
TAIL, and wider the least position below which every entry of the context's log, wherever it lies now, is published so wide; `LACQ` at TEAM or CORE scope does nothing, and of a core
above 255 traps `ILLEGAL_OP`. -/
def Sys2Proof.Claims.LogInstructions : Prop :=
  ∀ (s : State) (t : Team) (r : Run) (c : BitVec 1) (x y : BitVec 6) (scope : BitVec 3), s.team s.cur = some t → t.run = some r →
    t.mute = false → t.awaitsAccess = false → t.flagFull false = false → s.deterministic t = false →
    (∀ n, t.poisonS n = false) → scope.toNat < 5 →
    let n := scope.toNat
    let core := coreOfTeam s.cur
    let tail := (s.core core).tail (s.tagFor s.cur)
    let adv := fun (s : State) => s.modTeam s.cur fun t => { t with run := t.run.map fun r => { r with advances := true } }
    let upTo := fun (m : Nat) => adv (publish s core (s.tagFor s.cur) m n (Publisher.all (ctxOfTeam s.cur))).1
    (∀ k : BitVec 3, k.toNat < 4 → n < 2 → exec (.fence c k scope) s = .next s) ∧
    (2 ≤ n →
      exec (.fence c 0#3 scope) s = .next (upTo tail) ∧
      exec (.fence c 1#3 scope) s = .next (acquire s core n (acquireBound s core n)) ∧
      ∀ k : BitVec 3, k.toNat = 2 ∨ k.toNat = 3 →
        exec (.fence c k scope) s = .next (acquire (upTo tail) core n (acquireBound (upTo tail) core n))) ∧
    (let back := (BitVec.ofNat 32 tail - t.readS s.tick x.toNat).toNat
      let m := if x.toNat = 0 then tail else if 2 ^ 31 ≤ back then tail else tail - back
      exec (.lpub c scope x) s = .next ((if n < 2 then s else upTo m).modTeam s.cur Team.issueB)) ∧
    (∃ u, exec (.lmark c scope x) s = .next (s.setTeam s.cur u) ∧ ∃ p, WritesScalar t u x.toNat (BitVec.ofNat 32 p) ∧
      (n < 2 → p = tail) ∧
      (2 ≤ n →
        let short := fun (x : Nat) => ∃ kc ∈ s.cores, ∃ e ∈ kc.2.log, kc.2.tagOf (s.ctxOf t) = some e.ctx ∧
          ¬ (e.pub = true ∧ n ≤ (kc.2.segOf e).scope) ∧ (core, x) ∈ (kc.1, e.pos) :: e.past
        p ≤ tail ∧ (∀ x, short x → p ≤ x) ∧ (p = tail ∨ short p))) ∧
    (n < 2 → exec (.lacq c scope x y) s = .next s) ∧
    (2 ≤ n → 255 < (t.readS s.tick x.toNat).toNat → exec (.lacq c scope x y) s = .next (s.setTeam s.cur t.illegalOp))

/-- R150, R154, R157: `LACQ` of another core's log whose entries below the mark, wherever they lie now, are already published with segments
that cover the acquirer acquires with the stamp of the segment that holds the position before the mark, folded or not. -/
def Sys2Proof.Claims.LogAcquire : Prop :=
  ∀ (s : State) (t : Team) (c : BitVec 1) (x y : BitVec 6) (scope : BitVec 3) (tag stamp : Nat) (g : CtxLog),
    s.team s.cur = some t → t.mute = false → s.deterministic t = false → (∀ n, t.poisonS n = false) → 2 ≤ scope.toNat →
    let d := (t.readS s.tick x.toNat).toNat
    let m := (t.readS s.tick y.toNat).toNat
    let core := coreOfTeam s.cur
    d < 256 → (s.core d).tagOf (s.ctxOf t) = some tag → (s.core d).ctxLogs.find tag = some g → 0 < m → m ≤ g.tail → g.tail < 2 ^ 31 →
    (∀ kc ∈ s.cores, ∀ e ∈ kc.2.log, kc.2.tagOf (s.ctxOf t) = some e.ctx → (∃ p, p < m ∧ (d, p) ∈ (kc.1, e.pos) :: e.past) →
      e.pub = true ∧ segCovers (kc.2.segOf e) kc.1 core = true) →
    let holds := fun (z : Segment) => z.num = s.ctxOf t ∧ (d, m - 1) ∈ z.holds
    (∃ kc ∈ s.cores, ∃ z ∈ kc.2.segs, holds z) → (∀ kc ∈ s.cores, ∀ z ∈ kc.2.segs, holds z → z.stamp = stamp) →
    exec (.lacq c scope x y) s = .next (acquire s core scope.toNat stamp)

/-- R148–R150, R155, R157: releases and acquires, and the instructions that make them. -/
def Obligations.ReleaseAcquire : Prop := Claims.Release ∧ Claims.Acquire ∧ Claims.LogInstructions ∧ Claims.LogAcquire

/-- R263: in a deterministic launch an `ATOM`, a `FENCE`, `LPUB` or `LACQ` at CLUSTER scope or wider, or an `ST` of which a lane reaches a
shared page stalls in place until its team holds the ladle, wanting it, and has no effect. -/
def Sys2Proof.Claims.LadleGate : Prop :=
  ∀ (s : State) (t : Team) (b : Block) (l : Launch), s.team s.cur = some t → s.block t.block = some b → s.launch b.launch = some l →
    l.determ = true → l.ladle ≠ some s.cur → Clean t → t.parked = [] → t.mute = false → t.actingLanes ≠ [] →
    t.flagFull true = false → t.flagFull false = false → openRegions s + 3072 ≤ 65536 → t.lanes ≤ 1024 →
    let waits : Out := .next (stallInstr (s.modTeam s.cur fun t => { t with wants := true }))
    (∀ c d a o e sc, (∀ i ∈ t.actingLanes, ∃ pa attr sh, checkAccess s s.cur t
        ⟨if o.toNat = 4 then .load else .atomic, 3, atomSize o.toNat, 3, true, o.toNat == 2 || o.toNat == 3 || o.toNat == 15⟩ true
        (t.readVPair s.tick a.toNat i).toNat = (s, .go pa attr sh)) → exec (.atom c d a o e sc) s = waits) ∧
    (∀ c k sc, 2 ≤ sc.toNat → exec (.fence c k sc) s = waits) ∧
    (∀ c x sc, 2 ≤ sc.toNat → exec (.lpub c sc x) s = waits) ∧
    (∀ c x y sc, 2 ≤ sc.toNat → (t.readS s.tick x.toNat).toNat < 256 → exec (.lacq c sc x y) s = waits) ∧
    ∀ c d x i z p, (∀ j ∈ t.actingLanes, ∃ pa attr, checkAccess s s.cur t (Access.store (accessBytes z)) true
        (t.readPair s.tick x.toNat + (t.readV s.tick i.toNat j).setWidth 64).toNat = (s, .go pa attr true)) →
      exec (.stVector c d x i z p) s = waits

/-- R254, R362: `LMON` checks the address of the lowest acting lane for the team, reads the word past L1 into sb, drops the sector from L1 and
arms the monitor on it; its checks' cause strikes the whole team; with no lane it has no effect. -/
def Sys2Proof.Claims.MonitorArm : Prop :=
  ∀ (s : State) (t : Team) (r : Run) (c : BitVec 1) (a : BitVec 7) (sb : BitVec 6), s.team s.cur = some t → t.run = some r → Clean t →
    t.parked = [] →
    (t.actingLanes = [] → exec (.lmon c a sb) s = .next s) ∧
    ∀ l, t.actingLanes.head? = some l →
      let va := (t.readVPair s.tick a.toNat l).toNat
      let core := coreOfTeam s.cur
      let fate := (checkAccess s s.cur t Access.monitor false va).2
      (∀ pa attr sh, fate = .go pa attr sh → pa < hbmTop → (viewBytes s core (s.ctxOf t) false pa 4).2 = false →
        ∃ s' u, exec (.lmon c a sb) s = .next s' ∧ { s' with cores := s.cores } = s.setTeam s.cur u ∧ SameCores s s' core ∧
          ((s.core core).l1 ≠ [] → (s'.core core).l1 = (s.core core).l1.drop (pa / 128)) ∧
          u.monitor = ⟨true, false, pa / 128, s.time, 0, false⟩ ∧
          WritesScalar t { u with monitor := t.monitor } sb.toNat
            (BitVec.ofNat 32 (numberOf (viewBytes s core (s.ctxOf t) false pa 4).1))) ∧
      ∀ cause detail h sh, fate = .trap cause detail h sh → t.k0 ≠ 0#1024 →
        exec (.lmon c a sb) s = .next (s.setTeam s.cur { t with run := some { r with
          traps := r.traps ++ [⟨t.acting, cause, BitVec.ofNat 32 detail, va, r.itemIdx, false, false, h, 0⟩] } })

/-- R223, R275, R414: `WAITM` continues with WAITCAUSE 4 when no lane supplies an address or the monitor is not armed; traps `ILLEGAL_OP`
on another sector; reads the word and disarms with WAITCAUSE 3 when the sector has been written since; and else blocks, waiting. -/
def Sys2Proof.Claims.MonitorWait : Prop :=
  ∀ (s : State) (t : Team) (r : Run) (a : BitVec 7) (sb : BitVec 6), s.team s.cur = some t → t.run = some r → Clean t →
    let closed := fun (t : Team) => { t with run := some { r with closes := true } }
    (t.actingLanes = [] → exec (.waitm a sb) s = .next (s.setTeam s.cur { closed t with waitCause := 4 })) ∧
    ∀ l pa attr sh, t.actingLanes.head? = some l →
      checkAccess s s.cur t (Access.load 4) true (t.readVPair s.tick a.toNat l).toNat = (s, .go pa attr sh) → pa < hbmTop →
      let core := coreOfTeam s.cur
      (t.monitor.armed = false → exec (.waitm a sb) s = .next (s.setTeam s.cur { closed t with waitCause := 4 })) ∧
      (t.monitor.armed = true → t.monitor.sector ≠ pa / 128 → exec (.waitm a sb) s = .next (s.setTeam s.cur t.illegalOp)) ∧
      (t.monitor.armed = true → t.monitor.sector = pa / 128 → t.monitor.written = true →
        (viewBytes s core (s.ctxOf t) false pa 4).2 = false →
        ∃ s' u, exec (.waitm a sb) s = .next s' ∧ { s' with cores := s.cores } = s.setTeam s.cur u ∧ SameCores s s' core ∧
          u.monitor.armed = false ∧ u.waitCause = 3 ∧ u.run = (closed t).run ∧
          WritesScalar t { u with monitor := t.monitor, waitCause := t.waitCause, run := t.run } sb.toNat
            (BitVec.ofNat 32 (numberOf (viewBytes s core (s.ctxOf t) false pa 4).1))) ∧
      (t.monitor.armed = true → t.monitor.sector = pa / 128 → t.monitor.written = false →
        exec (.waitm a sb) s = .next (s.setTeam s.cur { t with
          run := some { r with blocks := some (.monitor (t.readVPair s.tick a.toNat l).toNat pa sb.toNat) }
          monitor := { t.monitor with waiting := true, waitTime := s.time } }))

/-- R223, R254, R362, R414: `LMON` and `WAITM`. -/
def Obligations.MonitorInstructions : Prop := Claims.MonitorArm ∧ Claims.MonitorWait

namespace Sys2Proof.Claims

open Sys2Proof.Machine

/-! ### Block-wide state -/

/-- The number of set bits among the first sixteen. -/
def bits16 (m : BitVec 16) : Nat := (List.range 16).countP fun i => m.getLsbD i

/-- A barrier register whose open phase is complete (R173). -/
def phaseDone (x : Barrier) : Prop := x.teams ≤ bits16 (x.arrt ||| x.exited) ∧ x.pend = 0 ∧ x.ext ≤ 0

/-- A register with a team's arrival, which notes its ladle clock (R264). -/
def withArrival (x : Barrier) (t : Team) : Barrier := { x with arrt := x.arrt ||| (1#16 <<< t.number), clks := x.clks.put t.number t.ldclk }

/-- What the completed phases of a register from `p` on owe their observers: widest scope and greatest bound (R174). -/
def owes (x : Barrier) (p : BitVec 8) : Nat × Nat :=
  let of := fun (i : Nat) => (x.acqs.find (p + BitVec.ofNat 8 i).toNat).getD (0, 0)
  ((List.range (x.phase - p).toNat).foldl (fun a i => max a (of i).1) 0, (List.range (x.phase - p).toNat).foldl (fun a i => max a (of i).2) 0)

/-- The hub but for what waits in it: offers, blocks evicted, deliveries and scratchpad stores to observe. -/
def HubWaits (s s' : State) : Prop :=
  { s'.hub with offers := s.hub.offers, evicted := s.hub.evicted, deliveries := s.hub.deliveries, loose := s.hub.loose } = s.hub

/-- A team may arrive (R173). -/
def arrivalAllowed (b : Block) (x : Barrier) (t : Team) : Prop :=
  0 < x.teams ∧ b.regrouped = false ∧ x.arrt.getLsbD t.number = false

/-- The run closes an open region (R275). -/
def closing (t : Team) (r : Run) : Team := { t with run := some { r with closes := true } }

/-- A tile action traps `TILE_STATE` for its team (R97, R407). -/
def tileTrap (t : Team) (r : Run) (x : Tile) (n : Nat) : Team :=
  let lanes := (if t.k0 = 0#1024 then t.living else t.k0) &&& ~~~r.held
  if lanes = 0#1024 then t
  else { t with run := some { r with traps := r.traps ++ [⟨lanes, 10,
    BitVec.ofNat 32 (n + 256 * x.state.toNat + if x.valid then 0 else 1024), r.item.addr, r.itemIdx, false, false, false, 0⟩] } }

/-- Element size in half bytes by format (R134). -/
def formatHalves (f : Nat) : Nat :=
  match f with
  | 0 | 5 => 8
  | 1 | 2 => 4
  | 3 | 4 => 2
  | 16 => 1
  | _ => 16

/-- The extent of a tile of layout 0 or 1 (R134): lines, line size. -/
def tileLines (x : Tile) : Nat × Nat :=
  let rows := x.d1.toNat % 65536
  let cols := x.d1.toNat / 65536
  if x.d2.toNat / 256 % 4 = 1 then (cols, rows * formatHalves (x.d2.toNat % 32) / 2) else (rows, cols * formatHalves (x.d2.toNat % 32) / 2)

/-- A descriptor passes orders 2 to 5 of `TDEF` (R134). -/
def descriptorGood (s : State) (b : Block) (x : Tile) : Prop :=
  let rows := x.d1.toNat % 65536
  let cols := x.d1.toNat / 65536
  let layout := x.d2.toNat / 256 % 4
  let fmt := x.d2.toNat % 32
  let lines := tileLines x
  let npi := 9 ≤ fmt ∧ fmt ≤ 15
  (fmt ≤ 5 ∨ 9 ≤ fmt ∧ fmt ≤ 17) ∧ layout ≤ 2 ∧ x.d2.toNat < 1024 ∧ x.d2.toNat / 32 % 8 = 0 ∧ 1 ≤ rows ∧ rows ≤ 1024 ∧ 1 ≤ cols ∧
    cols ≤ 1024 ∧ (layout = 2 ↔ npi) ∧ (layout = 2 → rows = 128 ∧ cols = 128 ∧ x.d3 = 0#32) ∧
    (fmt = 16 → (if layout = 1 then rows else cols) % 2 = 0) ∧ x.d0.toNat % 128 = 0 ∧
    (layout ≠ 2 → lines.2 ≤ x.d3.toNat ∧ x.d3.toNat % 4 = 0) ∧
    (localRange s b x.d0.toNat
      (if layout = 2 then 1024 + 2048 * (fmt - 7) else (lines.1 - 1) * x.d3.toNat + lines.2)).isSome

/-- A held handle (R205): KIND 1, core, slot, serial number. -/
def handleBits (core slot serial : Nat) : Nat := 2 ^ 62 + core % 256 * 2 ^ 54 + slot * 2 ^ 48 + serial % 2 ^ 48

/-- A launch whose grid barrier is not completed by one more arrival (R339). -/
def gridOpen (s : State) (l : Launch) : Prop := l.gridArr.length + 1 + l.gridEnd.length < l.nblocks * teamsPerBlock s l

end Sys2Proof.Claims

open Sys2Proof Sys2Proof.Machine Sys2Proof.Claims

/-- R171–R174, R302–R304: the barrier instructions. `BINIT` and `BEXP` set TEAMS and add to EXT where their requirements hold; `BPHASE` reads
the phase with LFAULT; an arrival captures the phase and sets the team's bit, and completes the phase when nothing more is expected;
`BWAIT` continues when the phase is another and else blocks with its bit in WAITERS; `BARW` does both. Who finds a phase complete acquires
what it and the phases completed since owe. A requirement that fails is an `ILLEGAL_OP` of the team. -/
def Obligations.Barriers : Prop :=
  ∀ (s : State) (t : Team) (r : Run) (b : Block) (c : BitVec 1) (n : BitVec 4) (sb : BitVec 6), s.team s.cur = some t → t.run = some r →
    s.block t.block = some b → t.mute = false → (∀ x, t.poisonS x = false) → s.deterministic t = false → t.ops = [] →
    let x := b.barrier n.toNat
    let v := (t.readS s.tick sb.toNat).toNat
    let adv := advancing t r
    let refused : Out := .next (s.setTeam s.cur adv.illegalOp)
    let keep := fun (u : Team) (y : Barrier) => (s.setTeam s.cur u).setBlock t.block (b.setBarrier n.toNat y)
    let free := x.arrt = 0#16 ∧ x.pend = 0 ∧ x.ext = 0 ∧ v ≤ b.nteams
    let last := x.phase - 1#8
    let waited := BitVec.ofNat 8 v
    let acquired := fun (p : BitVec 8) => acquire s (coreOfTeam s.cur) (owes x p).1 (owes x p).2
    let counts := 1 ≤ v ∧ v ≤ 4095 ∧ x.ext + v ≤ 32767
    (free → exec (.binit c n sb) s = .next (keep adv { x with teams := v, fault := false, openFlt := [] })) ∧
    (¬ free → exec (.binit c n sb) s = refused) ∧
    (counts → ∃ s', exec (.bexp c n sb) s = .next s' ∧ HubWaits s s' ∧
      { s' with hub := s.hub } = keep adv { x with
        ext := x.ext + v, openAcq := if x.ext < 0 then (max x.openAcq.1 3, x.openAcq.2) else x.openAcq }) ∧
    (¬ counts → exec (.bexp c n sb) s = refused) ∧
    (∃ s' u, exec (.bphase c n sb) s = .next s' ∧ s'.team s.cur = some u ∧
      WritesScalar adv { u with monitor := t.monitor } sb.toNat (BitVec.ofNat 32 (x.phase.toNat + if x.lfault then 256 else 0)) ∧
      ((owes x last).1 < 2 → { s' with hub := s.hub } = s.setTeam s.cur u ∧ HubWaits s s') ∧
      (2 ≤ (owes x last).1 → s'.cores = (acquired last).cores ∧ s'.home = (acquired last).home)) ∧
    (¬ arrivalAllowed b x t → exec (.barr c n sb) s = refused ∧ exec (.barw n sb) s = .next (s.setTeam s.cur (closing t r).illegalOp)) ∧
    (arrivalAllowed b x t → ¬ phaseDone (withArrival x t) →
      (∃ u, exec (.barr c n sb) s = .next (keep u (withArrival x t)) ∧
        WritesScalar adv u sb.toNat (x.phase.setWidth 32)) ∧
      ∃ u, exec (.barw n sb) s = .next (keep u { withArrival x t with waiters := x.waiters ||| (1#16 <<< t.number) }) ∧
        u.run = some { r with closes := true, blocks := some (.barrier n.toNat x.phase none) } ∧
        WritesScalar t { u with run := t.run } sb.toNat (x.phase.setWidth 32)) ∧
    (arrivalAllowed b x t → phaseDone (withArrival x t) → t.wait = none →
      ∃ s' b' u, exec (.barr c n sb) s = .next s' ∧ s'.block t.block = some b' ∧ s'.team s.cur = some u ∧ s'.home = s.home ∧
        (b'.barrier n.toNat).phase = x.phase + 1#8 ∧ (b'.barrier n.toNat).lfault = x.fault ∧ (b'.barrier n.toNat).fault = false ∧
        (b'.barrier n.toNat).arrt = 0#16 ∧ (b'.barrier n.toNat).opened = s.time ∧ (b'.barrier n.toNat).ext = x.ext ∧
        (∀ m, m ≠ n.toNat → b'.barrier m = b.barrier m) ∧ (sb.toNat ≠ 0 → sreg u sb.toNat = x.phase.setWidth 32) ∧
        ∀ k w ph, k ≠ s.cur → s.team k = some w → w.block = t.block → w.wait = some (.barrier n.toNat ph none) → ph ≠ x.phase + 1#8 →
          ∃ w' acq, s'.team k = some w' ∧ w'.wait = some (.barrier n.toNat ph (some acq))) ∧
    (waited ≠ x.phase →
      ∃ s' u, exec (.bwait n sb) s = .next s' ∧ s'.team s.cur = some u ∧
        { u with monitor := t.monitor } = { closing t r with waitCause := 1, due := t.due ++ x.lastFlt } ∧
        ((owes x waited).1 < 2 → { s' with hub := s.hub } = s.setTeam s.cur u ∧ HubWaits s s') ∧
        (2 ≤ (owes x waited).1 → s'.cores = (acquired waited).cores ∧ s'.home = (acquired waited).home)) ∧
    (waited = x.phase →
      exec (.bwait n sb) s = .next (keep
        { t with run := some { r with closes := true, blocks := some (.barrier n.toNat x.phase none) } }
        { x with waiters := x.waiters ||| (1#16 <<< t.number) }))

/-- R51, R53, R71, R98, R338, R339, R385, R435: the block-wide points and the dictionary word. `GBAR` of a resident launch releases at DEVICE
scope, arrives with its stamp and waits; `REGRP` waits with the target of every active lane and its table's code address; `ENDRG` of a
regrouped block waits to return; a mask stack that is not empty traps `MSTACK` there, and the team waits all the same; where they may not
act, each traps `ILLEGAL_OP`. A dictionary word leaves the run with its two entries, each under its window, in its place; an index without
an entry traps `DICT_BAD`, and a window that takes a field past `v119` `ILLEGAL_OP`. -/
def Obligations.BlockPoints : Prop :=
  ∀ (s : State) (t : Team) (r : Run) (n : Nat) (b : Block) (l : Launch), Placed s t n b l → t.run = some r → Clean t →
    (t.mute = false → l.cores = true → b.regrouped = false → t.depth = 0 → s.deterministic t = false → gridOpen s l →
      let rel := publish s (coreOfTeam s.cur) (s.tagFor s.cur) (teamTail s s.cur) 3 (Publisher.all (ctxOfTeam s.cur))
      ∃ s' u, exec .gbar s = .next s' ∧ s'.team s.cur = some u ∧ (u.run.map fun x => { x with blocks := r.blocks }) = some r ∧
        (u.run.bind Run.blocks) = some .grid ∧ s'.launch n = some { l with gridArr := l.gridArr ++
          [(32 * b.index + t.number, rel.2, t.ldclk)] } ∧ s'.cores = rel.1.cores ∧ s'.home = rel.1.home ∧ s'.blocks = s.blocks) ∧
    (t.mute = false → (l.cores = false ∨ b.regrouped = true ∨ t.depth ≠ 0) → exec .gbar s = .next (s.setTeam s.cur t.illegalOp)) ∧
    (∀ (v : BitVec 4) (o : BitVec 18) (target : Nat), b.regrouped = false → t.stack = [] → packetAt r o.toInt target → t.lanes ≤ 1024 →
      (∀ j ∈ lanesOf t.k0 t.lanes, (t.readV s.tick (8 * v.toNat + 6) j).toNat < 4) →
      ∃ digits, exec (.regrp v o) s =
          .next (s.setTeam s.cur { t with run := some { r with blocks := some (.regroup false target digits) } }) ∧
        ∀ j, digits / 8 ^ j % 8 =
          if j ∈ lanesOf t.k0 t.lanes then 1 + (t.readV s.tick (8 * v.toNat + 6) j).toNat else 0) ∧
    (∀ (v : BitVec 4) (o : BitVec 18) (target : Nat), b.regrouped = false → t.stack ≠ [] → packetAt r o.toInt target →
      let u := t.raiseAll 17 (BitVec.ofNat 32 t.stack.length)
      exec (.regrp v o) s = .next (s.setTeam s.cur { u with run := u.run.map fun x => { x with blocks := some (.regroup false target 0) } })) ∧
    (∀ v o, b.regrouped = true → exec (.regrp v o) s = .next (s.setTeam s.cur t.illegalOp)) ∧
    (b.regrouped = true → t.ends = false → t.stack = [] → exec .endrg s =
      .next (s.setTeam s.cur { t with run := some { r with blocks := some (.regroup true r.through 0) } })) ∧
    (b.regrouped = true → t.ends = false → t.stack ≠ [] →
      let u := t.raiseAll 17 (BitVec.ofNat 32 t.stack.length)
      exec .endrg s = .next (s.setTeam s.cur { u with run := u.run.map fun x => { x with blocks := some (.regroup true x.through 0) } })) ∧
    (b.regrouped = false ∨ t.ends = true → exec .endrg s = .next (s.setTeam s.cur t.illegalOp)) ∧
    ∀ (ch h : BitVec 1) (w w2 : BitVec 2) (i j : BitVec 10),
      let dict := dictOf s t
      let entry := fun (k : Nat) => dict.getD k 0 % 2147483648
      (dict.length ≤ i.toNat → exec (.dict ch h w i w2 j) s = .next (s.setTeam s.cur (t.raiseAll 4 (i.setWidth 32)))) ∧
      (i.toNat < dict.length → dict.length ≤ j.toNat →
        exec (.dict ch h w i w2 j) s = .next (s.setTeam s.cur (t.raiseAll 4 (j.setWidth 32)))) ∧
      (i.toNat < dict.length → j.toNat < dict.length →
        windowBreaks (vectorLows (entry i.toNat)) w.toNat (entry i.toNat) = true ∨
          windowBreaks (vectorLows (entry j.toNat)) w2.toNat (entry j.toNat) = true →
        exec (.dict ch h w i w2 j) s = .next (s.setTeam s.cur t.illegalOp)) ∧
      (i.toNat < dict.length → j.toNat < dict.length → w = 0#2 → w2 = 0#2 →
        exec (.dict ch h w i w2 j) s = .next (s.setTeam s.cur { t with run := some { r with
          items := ⟨entry i.toNat, r.item.addr, decide (h = 1#1)⟩ :: ⟨entry j.toNat, r.item.addr, decide (ch = 1#1)⟩ :: r.items
          item := { r.item with chain := r.inChain } } })) ∧
      (i.toNat < dict.length → j.toNat < dict.length → windowBreaks (vectorLows (entry i.toNat)) w.toNat (entry i.toNat) = false →
        windowBreaks (vectorLows (entry j.toNat)) w2.toNat (entry j.toNat) = false →
        ∃ x y, exec (.dict ch h w i w2 j) s = .next (s.setTeam s.cur { t with run := some { r with
            items := ⟨x, r.item.addr, decide (h = 1#1)⟩ :: ⟨y, r.item.addr, decide (ch = 1#1)⟩ :: r.items
            item := { r.item with chain := r.inChain } } }) ∧
          x = windowWord (vectorLows (entry i.toNat)) w.toNat (entry i.toNat) ∧
          y = windowWord (vectorLows (entry j.toNat)) w2.toNat (entry j.toNat))

/-- R133, R134, R136, R406, R407: `TDEF` defines an empty tile from four scalars that pass its checks; `TACQ`, `TRDY` and `TREL` take a tile
from the state R136 requires to the next; `TSTAT` reads its status word. On a tile in another state, or not defined, or held by an
engine, each traps `TILE_STATE`. -/
def Sys2Proof.Claims.TileActions : Prop :=
  ∀ (s : State) (t : Team) (r : Run) (b : Block) (c : BitVec 1) (n sb : BitVec 6), s.team s.cur = some t → t.run = some r →
    s.block t.block = some b → t.mute = false → (∀ x, t.poisonS x = false) → t.ops = [] →
    let x := b.tile n.toNat
    let adv := advancing t r
    let keep := fun (y : Tile) => (s.setTeam s.cur adv).setBlock t.block (b.setTile n.toNat y)
    let refused : Out := .next (s.setTeam s.cur (tileTrap adv { r with advances := true } x n.toNat))
    let fits := fun (st : BitVec 2) => x.valid = true ∧ x.state = st ∧ x.eng = false
    let new : Tile := ⟨t.readS s.tick sb.toNat, t.readS s.tick (sb.toNat + 1), t.readS s.tick (sb.toNat + 2),
      t.readS s.tick (sb.toNat + 3), false, true, 0#2⟩
    (sb.toNat ≤ 60 → (x.valid = false ∨ x.state = 0#2) → descriptorGood s b new → exec (.tdef c n sb) s = .next (keep new)) ∧
    (60 < sb.toNat → exec (.tdef c n sb) s = .next (s.setTeam s.cur adv.illegalOp)) ∧
    (sb.toNat ≤ 60 → x.valid = true → x.state ≠ 0#2 → exec (.tdef c n sb) s = refused) ∧
    (sb.toNat ≤ 60 → (x.valid = false ∨ x.state = 0#2) → ¬ descriptorGood s b new →
      ∃ u, exec (.tdef c n sb) s = .next (s.setTeam s.cur u) ∧ u.regs = t.regs) ∧
    (fits 0#2 → exec (.tacq c n) s = .next (keep { x with state := 1#2 })) ∧ (¬ fits 0#2 → exec (.tacq c n) s = refused) ∧
    (fits 1#2 → exec (.trdy c n) s = .next (keep { x with state := 2#2 })) ∧ (¬ fits 1#2 → exec (.trdy c n) s = refused) ∧
    (fits 2#2 → exec (.trel c n) s = .next (keep { x with state := 0#2 })) ∧ (¬ fits 2#2 → exec (.trel c n) s = refused) ∧
    (x.valid = true → ∃ u, exec (.tstat c n sb) s = .next (s.setTeam s.cur u) ∧
      WritesScalar adv u sb.toNat (BitVec.ofNat 32 (x.state.toNat + 4 + if x.eng then 8 else 0))) ∧
    (x.valid = false → exec (.tstat c n sb) s = refused)

/-- R205, R206, R408, R409: `THAND` of ready tiles of the block's own allocation puts them into the lowest free hold slot under a new serial
number, takes them from the block's table and writes the held handle; `TADOPT` of a live held handle of this core binds the recorded
descriptors as ready tiles and frees the slot. -/
def Sys2Proof.Claims.TileHandles : Prop :=
  ∀ (s : State) (t : Team) (r : Run) (b : Block) (c : BitVec 1) (sb : BitVec 6), s.team s.cur = some t → t.run = some r →
    s.block t.block = some b → t.mute = false → (∀ x, t.poisonS x = false) → t.ops = [] → sb.toNat % 2 = 0 →
    coreOfTeam s.cur < 256 →
    let core := coreOfTeam s.cur
    let m := t.readPair s.tick sb.toNat
    let tiles := (List.range 64).filter fun i => m.getLsbD i
    let adv := advancing t r
    (tiles ≠ [] → (∀ n ∈ tiles, (b.tile n).valid = true ∧ (b.tile n).state = 2#2 ∧ (b.tile n).eng = false ∧
        (b.tile n).d0.toNat < 0x4000000) →
      ∀ slot, (List.range 16).find? (fun i => ((s.core core).holds.find i).isNone) = some slot →
      ∃ s' b' u v h, exec (.thand c sb) s = .next s' ∧ { s' with cores := s.cores, blocks := s.blocks, teams := s.teams } = s ∧
        s'.block t.block = some b' ∧ (∀ n, (b'.tile n).valid = (if n ∈ tiles then false else (b.tile n).valid)) ∧
        (∀ n, n ∉ tiles → b'.tile n = b.tile n) ∧ s'.team s.cur = some u ∧
        (s'.core core).serial = (s.core core).serial + 1 ∧ (s'.core core).holds.find slot = some h ∧
        (∀ i, i ≠ slot → (s'.core core).holds.find i = (s.core core).holds.find i) ∧
        h.serial = (s.core core).serial + 1 ∧ h.base = b.base ∧ h.block = t.block ∧ h.launch = b.launch ∧ h.exitAt = none ∧
        h.tiles = tiles.map (fun n => (n, [(b.tile n).d0, (b.tile n).d1, (b.tile n).d2, (b.tile n).d3])) ∧ h.extent % 2048 = 0 ∧
        WritesScalar adv v sb.toNat (BitVec.ofNat 32 (handleBits core slot ((s.core core).serial + 1))) ∧
        WritesScalar v u (sb.toNat + 1) (BitVec.ofNat 32 (handleBits core slot ((s.core core).serial + 1) / 2 ^ 32))) ∧
    ∀ slot h, m.toNat = handleBits core slot h.serial → slot < 64 → h.serial < 2 ^ 48 →
      (s.core core).holds.find slot = some h → (∀ x ∈ h.tiles, (b.tile x.1).valid = true → (b.tile x.1).state = 0#2) →
      (h.tiles.map (·.1)).Nodup →
      ∃ s' b', exec (.tadopt c sb) s = .next s' ∧ HubWaits s s' ∧ core ∈ s'.hub.offers ∧
        { s' with cores := s.cores, blocks := s.blocks, hub := s.hub } = s.setTeam s.cur adv ∧
        s'.block t.block = some b' ∧ (s'.core core).holds.find slot = none ∧
        (∀ i, i ≠ slot → (s'.core core).holds.find i = (s.core core).holds.find i) ∧
        (∀ x ∈ h.tiles, b'.tile x.1 = ⟨x.2.getD 0 0, x.2.getD 1 0, x.2.getD 2 0, x.2.getD 3 0, false, true, 2#2⟩) ∧
        ∀ n, n ∉ h.tiles.map (·.1) → b'.tile n = b.tile n

/-- R133–R136, R205, R206, R406–R409: the tile instructions and the handles. -/
def Obligations.TileInstructions : Prop := Claims.TileActions ∧ Claims.TileHandles

namespace Sys2Proof.Claims

open Sys2Proof.Machine

/-! ### Engine commands -/

/-- A block and team able to issue a command on barrier `n`: nothing poisoned or held, room in PEND and in the flag (R165). -/
def MayIssue (s : State) (t : Team) (r : Run) (b : Block) (n : Nat) : Prop :=
  s.team s.cur = some t ∧ t.run = some r ∧ s.block t.block = some b ∧ t.mute = false ∧ (∀ x, t.poisonS x = false) ∧
    s.deterministic t = false ∧ (b.barrier n).pend < 4095 ∧ t.flagFull false = false

/-- From `s` to `s'` the command `c` issues for the current team on barrier `n`: it is numbered, counted on SETB for the team `t0`, and
adds one to PEND; no other command, and no other barrier of the block, changes (R165, R173). -/
def CommandIssues (s s' : State) (t t0 : Team) (r : Run) (b : Block) (n : Nat) (c : Cmd) : Prop :=
  s'.cmd s.hub.nextCmd = some c ∧ s'.hub.nextCmd = s.hub.nextCmd + 1 ∧ (∀ m, m ≠ s.hub.nextCmd → s'.cmd m = s.cmd m) ∧
    c.team = s.cur ∧ c.block = t.block ∧ c.ctx = s.ctxOf t ∧ c.mode = t.mode ∧ c.barrier = some n ∧ c.phase = (b.barrier n).phase ∧
    c.done = [] ∧ c.fault = none ∧ c.localDone = false ∧ c.op = (if r.setB = 15 then none else some t.nextOp) ∧
    (∃ u, s'.team s.cur = some u ∧ Counted t0 u r) ∧ (∀ k, k ≠ s.cur → s'.team k = s.team k) ∧
    ∃ b', s'.block t.block = some b' ∧ (∀ m, m ≠ n → b'.barrier m = b.barrier m) ∧ (b'.barrier n).pend = (b.barrier n).pend + 1 ∧
      (b'.barrier n).arrt = (b.barrier n).arrt ∧ (b'.barrier n).phase = (b.barrier n).phase ∧ (b'.barrier n).ext = (b.barrier n).ext ∧
      ∀ m, b'.tile m = if m ∈ c.tiles then { b.tile m with state := if c.fill then 1#2 else 3#2, eng := true } else b.tile m

/-- The command holds, each in a range-lock entry of its core that was free, the ranges `xs`: destination, on a scratchpad, where, from,
bytes (R169). No other entry changes. -/
def HoldsRanges (s s' : State) (c : Cmd) (xs : List (Bool × Bool × Nat × Nat × Nat)) : Prop :=
  let core := coreOfTeam s.cur
  c.locks.length = xs.length ∧ c.locks.Nodup ∧ (∀ i, i ∉ c.locks → (s'.core core).locks.find i = (s.core core).locks.find i) ∧
    ∀ (j i : Nat) (x : Bool × Bool × Nat × Nat × Nat), c.locks[j]? = some i → xs[j]? = some x → i < 64 ∧ (s.core core).locks.find i = none ∧
      ∃ l, (s'.core core).locks.find i = some l ∧ l.dst = x.1 ∧ l.isLocal = x.2.1 ∧ l.home = x.2.2.1 ∧ l.base = x.2.2.2.1 ∧
        l.len = (x.2.2.2.1 + x.2.2.2.2 + 127) / 128 - x.2.2.2.1 / 128 ∧ l.cid = c.cid ∧ l.time = s.time

/-- The physical ranges of a virtual one as the command's engine translates it, and the state with those translations held. -/
def spanOf (s : State) (t : Team) (k : AccessKind) (xs : List (Nat × Nat)) : State × List (Nat × Nat) :=
  match xs with
  | [] => (s, [])
  | x :: _ => physicalRanges (coreOfTeam s.cur) (s.ctxOf t) t.mode k (pageSteps x.2) s x.1 x.2 []

/-- What a command moves: its ends, the pitch of the lines on each side, units of 128 bytes to a line and in all, reduction,
publication scope, index array, tiles it takes and whether it fills them, the local ranges it locks (destination, core, offset, bytes)
and the global ones (address, bytes). -/
structure CopyAsk where
  src       : Place
  dst       : Place
  srcPitch  : Nat := 0
  dstPitch  : Nat := 0
  lineUnits : Nat
  units     : Nat
  reduce    : Nat := 0
  scope     : Nat := 0
  index     : List Nat := []
  tiles     : List Nat := []
  fill      : Bool := false
  ranges    : List (Bool × Nat × Nat × Nat) := []
  reads     : List (Nat × Nat) := []
  writes    : List (Nat × Nat) := []

/-- The image of a tile for a pitch of `n` units: bytes in the scratchpad, units of a line, units in all, bytes it spans in global
memory, and whether shape and pitch agree (R164, R165). -/
def imageOf (x : Tile) (n : Nat) : Nat × Nat × Nat × Nat × Bool :=
  let l := tileLines x
  if x.d2.toNat / 256 % 4 = 2 then
    (1024 + 2048 * (x.d2.toNat % 32 - 7), (1024 + 2048 * (x.d2.toNat % 32 - 7)) / 128, (1024 + 2048 * (x.d2.toNat % 32 - 7)) / 128,
      1024 + 2048 * (x.d2.toNat % 32 - 7), n == 0)
  else
    ((l.1 - 1) * x.d3.toNat + l.2, l.2 / 128, l.1 * (l.2 / 128), (l.1 - 1) * n * 128 + l.2, decide (l.2 % 128 = 0 ∧ l.2 ≤ 128 * n))

/-- SCOPE of Z, and the scope it selects (R164). -/
def scopeField (z : Nat) : Nat := z / 16 % 8
/-- See `scopeField`. -/
def publishesAt (z : Nat) : Nat := if scopeField z = 0 then 3 else scopeField z
/-- SCOPE may stand in Z for a global destination. -/
def scopeGood (z : Nat) : Prop := scopeField z = 0 ∨ scopeField z = 2 ∨ scopeField z = 3 ∨ scopeField z = 4
/-- A format takes a reduction (R165). -/
def reduces (op fmt : Nat) : Prop := op = 0 ∨ op = 3 ∧ fmt = 0 ∨ op ≠ 3 ∧ (fmt = 0 ∨ fmt = 5)

/-- What the copy commands and `GATHER` move when they pass the checks of R165 and R167, with the barrier they name (R163, R164). -/
def copyAsk (s : State) (t : Team) (b : Block) (i : Instr) (n : Nat) (a : CopyAsk) : Prop :=
  let word := fun (x : BitVec 6) => (t.readS s.tick x.toNat).toNat
  let pair := fun (x : BitVec 6) => (t.readPair s.tick x.toNat).toNat
  let usable := fun (x : Tile) (st : BitVec 2) => x.valid = true ∧ x.state = st ∧ x.eng = false
  match i with
  | .cpyG2t _ x y z bn =>
    let v := b.tile x.toNat
    let g := imageOf v (word z / 128)
    n = bn.toNat ∧ usable v 0#2 ∧ word z % 128 = 0 ∧ g.2.2.2.2 = true ∧ y.toNat % 2 = 0 ∧ pair y % 128 = 0 ∧
      ∃ core off, localRange s b v.d0.toNat g.1 = some (core, off) ∧
        a = { src := .global (pair y), dst := .scratch core off, srcPitch := word z / 128 * 128, dstPitch := v.d3.toNat
              lineUnits := g.2.1, units := g.2.2.1, tiles := [x.toNat], fill := true, ranges := [(true, core, off, g.1)]
              reads := [(pair y, g.2.2.2.1)] }
  | .cpyT2g _ x y z bn =>
    let v := b.tile y.toNat
    let g := imageOf v (word z / 128)
    n = bn.toNat ∧ usable v 2#2 ∧ scopeGood (word z) ∧ word z % 16 ≤ 9 ∧ reduces (word z % 16) (v.d2.toNat % 32) ∧ g.2.2.2.2 = true ∧
      x.toNat % 2 = 0 ∧ pair x % 128 = 0 ∧
      ∃ core off, localRange s b v.d0.toNat g.1 = some (core, off) ∧
        a = { src := .scratch core off, dst := .global (pair x), srcPitch := v.d3.toNat, dstPitch := word z / 128 * 128
              lineUnits := g.2.1, units := g.2.2.1, reduce := word z % 16, scope := publishesAt (word z), tiles := [y.toNat]
              ranges := [(false, core, off, g.1)], writes := [(pair x, g.2.2.2.1 * if word z % 16 = 3 then 16 else 1)] }
  | .cpyL2l _ x y z bn =>
    let m := word z / 128
    n = bn.toNat ∧ word z % 128 = 0 ∧ m ≠ 0 ∧ word x % 128 = 0 ∧ word y % 128 = 0 ∧
      ∃ core off core' off', localRange s b (word x) (128 * m) = some (core, off) ∧
        localRange s b (word y) (128 * m) = some (core', off') ∧
        a = { src := .scratch core' off', dst := .scratch core off, lineUnits := m, units := m
              ranges := [(false, core', off', 128 * m), (true, core, off, 128 * m)] }
  | .cpyG2g _ x y z bn =>
    let m := word z / 128
    n = bn.toNat ∧ scopeGood (word z) ∧ word z % 16 = 0 ∧ m ≠ 0 ∧ x.toNat % 2 = 0 ∧ y.toNat % 2 = 0 ∧ pair x % 128 = 0 ∧
      pair y % 128 = 0 ∧
      a = { src := .global (pair y), dst := .global (pair x), lineUnits := m, units := m, scope := publishesAt (word z)
            reads := [(pair y, 128 * m)], writes := [(pair x, 128 * m)] }
  | .cpyG2l _ x y z bn =>
    let m := word z / 128
    n = bn.toNat ∧ word z % 128 = 0 ∧ m ≠ 0 ∧ y.toNat % 2 = 0 ∧ word x % 128 = 0 ∧ pair y % 128 = 0 ∧
      ∃ core off, localRange s b (word x) (128 * m) = some (core, off) ∧
        a = { src := .global (pair y), dst := .scratch core off, lineUnits := m, units := m, ranges := [(true, core, off, 128 * m)]
              reads := [(pair y, 128 * m)] }
  | .cpyL2g _ x y z bn =>
    let m := word z / 128
    n = bn.toNat ∧ scopeGood (word z) ∧ word z % 16 ≤ 9 ∧ m ≠ 0 ∧ x.toNat % 2 = 0 ∧ pair x % 128 = 0 ∧ word y % 128 = 0 ∧
      ∃ core off, localRange s b (word y) (128 * m) = some (core, off) ∧
        a = { src := .scratch core off, dst := .global (pair x), lineUnits := m, units := m, reduce := word z % 16
              scope := publishesAt (word z), ranges := [(false, core, off, 128 * m)]
              writes := [(pair x, 128 * m * if word z % 16 = 3 then 16 else 1)] }
  | .gather _ x y z bn =>
    let v := b.tile x.toNat
    let rows := v.d1.toNat % 65536
    let l := tileLines v
    n = bn.toNat ∧ usable v 0#2 ∧ v.d2.toNat / 256 % 4 = 0 ∧ l.2 % 128 = 0 ∧ y.toNat % 2 = 0 ∧ pair y % 128 = 0 ∧ word z % 4 = 0 ∧
      ∃ core off core' off', localRange s b v.d0.toNat ((l.1 - 1) * v.d3.toNat + l.2) = some (core, off) ∧
        localRange s b (word z) (4 * rows) = some (core', off') ∧
        a = { src := .global (pair y), dst := .scratch core off, dstPitch := v.d3.toNat, lineUnits := l.2 / 128
              units := l.1 * (l.2 / 128)
              index := (List.range rows).map fun j => numberOf ((List.range 4).map fun m => (scratchBytes s core' (off' + 4 * j + m) 1).1.getD 0 0#8)
              tiles := [x.toNat], fill := true
              ranges := [(true, core, off, (l.1 - 1) * v.d3.toNat + l.2), (false, core', off', 4 * rows)] }
  | _ => False

/-! ### Fabric commands -/

/-- What a fabric command asks: key index, bytes its key entry must reach, permissions, local and global ranges as for a copy, class,
channel, signal word, packets of data, whether a signal follows, whether the team waits (R231–R233). -/
structure FabricAsk where
  kind    : CmdKind
  kix     : Nat
  offset  : Nat
  perms   : BitVec 8
  bytes   : Nat
  src     : Place := .global 0
  dst     : Place := .global 0
  ranges  : List (Bool × Nat × Nat × Nat) := []
  reads   : List (Nat × Nat) := []
  writes  : List (Nat × Nat) := []
  cls     : Nat
  vc      : Nat
  signal  : Word := 0
  data    : Nat
  signals : Bool := false
  wait    : Bool := false

/-- A buffer pair (R231): its place, and what it locks as a destination or a source; its address is a multiple of 128. -/
def bufferOf (s : State) (b : Block) (dst : Bool) (p : BitVec 64) (n : Nat) (at' : Place) (ranges : List (Bool × Nat × Nat × Nat))
    (global : List (Nat × Nat)) : Prop :=
  if p.getLsbD 63 then
    p.toNat / 2 ^ 32 = 2 ^ 31 ∧ p.toNat % 128 = 0 ∧ ∃ core off, localRange s b (p.toNat % 2 ^ 32) n = some (core, off) ∧
      at' = .scratch core off ∧ ranges = [(dst, core, off, n)] ∧ global = []
  else p.toNat < 2 ^ 56 ∧ p.toNat % 128 = 0 ∧ at' = .global p.toNat ∧ ranges = [] ∧ global = [(p.toNat, n)]

/-- What the fabric commands but `CSEND` ask when they pass orders 1 to 3 of R232, with the barrier they name. -/
def fabricAsk (s : State) (t : Team) (r : Run) (b : Block) (i : Instr) (n : Nat) (a : FabricAsk) : Prop :=
  let word := fun (x : Nat) => (t.readS s.tick x)
  let pair := fun (x : BitVec 6) => t.readPair s.tick x.toNat
  let good := fun (z : Word) (lo hi : Nat) => lo ≤ z.toNat / 128 ∧ z.toNat / 128 ≤ hi ∧ z.toNat / 64 % 2 = 0 ∧ z.toNat % 4 = 0
  let ref := fun (p : BitVec 64) => p.toNat / 2 ^ 40 % 2 ^ 18 = 0 ∧ p.toNat % 128 = 0
  let put := fun (x y : BitVec 6) (bn : BitVec 4) (z : Word) (k : CmdKind) (perms : BitVec 8) (w : Word) (sig : Bool) =>
    n = bn.toNat ∧ x.toNat % 2 = 0 ∧ y.toNat % 2 = 0 ∧ good z 1 65536 ∧ z.toNat / 4 % 2 = 0 ∧ ref (pair x) ∧
      ∃ at' ranges global, bufferOf s b false (pair y) (z.toNat / 128 * 128) at' ranges global ∧
        a = { kind := k, kix := (pair x).toNat / 2 ^ 58, offset := (pair x).toNat % 2 ^ 40, perms := perms
              bytes := z.toNat / 128 * 128, src := at', ranges := ranges, reads := global, cls := z.toNat / 32 % 4, vc := z.toNat / 8 % 4
              signal := w, data := (z.toNat / 128 + 31) / 32, signals := sig }
  match i with
  | .put _ x y z bn => put x y bn (word z.toNat) .put 1#8 0#32 false
  | .puts _ x y z bn =>
    z.toNat % 2 = 0 ∧ (word (z.toNat + 1)).toNat < 2 ^ 20 ∧ put x y bn (word z.toNat) .puts 5#8 (word (z.toNat + 1)) true
  | .get _ x y z bn =>
    let w := word z.toNat
    n = bn.toNat ∧ x.toNat % 2 = 0 ∧ y.toNat % 2 = 0 ∧ good w 1 65536 ∧ ref (pair y) ∧ (w.getLsbD 2 = true → r.items = []) ∧
      ∃ at' ranges global, bufferOf s b true (pair x) (w.toNat / 128 * 128) at' ranges global ∧
        a = { kind := .get, kix := (pair y).toNat / 2 ^ 58, offset := (pair y).toNat % 2 ^ 40, perms := 2#8
              bytes := w.toNat / 128 * 128, dst := at', ranges := ranges, writes := global, cls := w.toNat / 32 % 4
              vc := w.toNat / 8 % 4, data := 1, wait := w.getLsbD 2 }
  | .rsig _ x y z bn =>
    let w := word z.toNat
    n = bn.toNat ∧ (word x.toNat).toNat < 64 ∧ (word y.toNat).toNat < 2 ^ 20 ∧ good w 0 0 ∧ w.toNat / 4 % 2 = 0 ∧
      a = { kind := .rsig, kix := (word x.toNat).toNat, offset := 0, perms := 4#8, bytes := 0, cls := w.toNat / 32 % 4
            vc := w.toNat / 8 % 4, signal := word y.toNat, data := 1 }
  | _ => False

/-- The entry `e` of a context's key table is valid with some permissions, and its window reaches a length (R230, R232). -/
def KeyHolds (s : State) (t : Team) (kix : Nat) (perms : BitVec 8) (reach : Nat) (e : List Byte) : Prop :=
  let pa := (s.context (s.ctxOf t)).fktbase.toNat + 32 * kix
  pa + 32 ≤ hbmTop ∧ e = (List.range 32).map (fun j => s.home.byte (pa + j)) ∧ (e.getD 3 0#8).getLsbD 7 = true ∧
    e.getD 3 0#8 &&& perms = perms ∧ reach ≤ numberOf ((e.drop 8).take 8)

/-- A route's first port has room for a packet (R232). -/
def PortRoom (s : State) (dev : Nat) : Prop := ∀ p, (routePorts s dev).head? = some p → storeUsed s p + 4224 ≤ 4194304

end Sys2Proof.Claims

open Sys2Proof Sys2Proof.Machine Sys2Proof.Claims

/-- R65, R163–R165, R167, R169, R173, R317, R318, R337: a copy command that passes its checks, with room for its locks, issues: it captures
what R163 and R164 give it, takes its range locks and its tile transition, adds to PEND and counts on SETB; the team is otherwise
unchanged, and memory is as its translations left it. -/
def Sys2Proof.Claims.CopyCommands : Prop :=
  ∀ (s : State) (t : Team) (r : Run) (b : Block) (i : Instr) (n : Nat) (a : CopyAsk), MayIssue s t r b n → copyAsk s t b i n a →
    let adv := advancing t r
    let rd := spanOf (s.setTeam s.cur adv) t .load a.reads
    let wr := spanOf rd.1 t .store a.writes
    (∀ x ∈ rd.2 ++ wr.2, x.1 + x.2 ≤ hbmTop) → (a.reduce ∈ [1, 3, 6, 7] → ∀ g ∈ regionsOf wr.2, regionOpen wr.1 g = false) →
    a.ranges.length + rd.2.length + wr.2.length ≤ ((List.range 64).filter fun e => ((s.core (coreOfTeam s.cur)).locks.find e).isNone).length →
    ∃ s' c, exec i s = .next s' ∧ CommandIssues s s' t adv r b n c ∧
      HoldsRanges wr.1 s' c (a.ranges.map (fun (x : Bool × Nat × Nat × Nat) => (x.1, true, x.2)) ++ rd.2.map (fun (x : Nat × Nat) => (false, false, coreOfTeam s.cur, x)) ++
        wr.2.map fun (x : Nat × Nat) => (true, false, coreOfTeam s.cur, x)) ∧
      s'.home = wr.1.home ∧ c.src = a.src ∧ c.dst = a.dst ∧ c.srcPitch = a.srcPitch ∧ c.dstPitch = a.dstPitch ∧
      c.lineUnits = a.lineUnits ∧ c.units = a.units ∧ c.reduce = a.reduce ∧ c.scope = a.scope ∧ c.index = a.index ∧
      c.tiles = a.tiles ∧ c.fill = a.fill ∧ c.stamp = none ∧ c.seq = none

/-- R165: a copy command that fails a check traps for its team, and is not counted, takes no lock, changes no tile and adds nothing to its
barrier; the first of the checks that fails gives the cause. -/
def Sys2Proof.Claims.CopyChecks : Prop :=
  ∀ (s : State) (t : Team) (r : Run) (b : Block) (c : BitVec 1) (x y z : BitVec 6) (bn : BitVec 4), MayIssue s t r b bn.toNat →
    let adv := advancing t r
    let w := (t.readS s.tick z.toNat).toNat
    let d := (t.readS s.tick x.toNat).toNat
    let a := (t.readS s.tick y.toNat).toNat
    let refused : Out := .next (s.setTeam s.cur adv.illegalOp)
    let aligns := fun (q : Nat) (o : Out) => ∃ u, o = .next (s.setTeam s.cur u) ∧
      (t.trapSet ≠ 0#1024 → u.run = some { r with advances := true, traps := r.traps ++
        [⟨t.trapSet, 8, 128#32, q, r.itemIdx, false, false, false, 0⟩] })
    (¬ ((b.tile x.toNat).valid = true ∧ (b.tile x.toNat).state = 0#2 ∧ (b.tile x.toNat).eng = false) →
      exec (.cpyG2t c x y z bn) s = .next (s.setTeam s.cur (tileTrap adv { r with advances := true } (b.tile x.toNat) x.toNat)) ∧
        exec (.gather c x y z bn) s = .next (s.setTeam s.cur (tileTrap adv { r with advances := true } (b.tile x.toNat) x.toNat))) ∧
    (¬ ((b.tile y.toNat).valid = true ∧ (b.tile y.toNat).state = 2#2 ∧ (b.tile y.toNat).eng = false) →
      exec (.cpyT2g c x y z bn) s = .next (s.setTeam s.cur (tileTrap adv { r with advances := true } (b.tile y.toNat) y.toNat))) ∧
    (w % 128 ≠ 0 ∨ w / 128 = 0 → exec (.cpyL2l c x y z bn) s = refused ∧ exec (.cpyG2l c x y z bn) s = refused) ∧
    (¬ scopeGood w ∨ w % 16 ≠ 0 ∨ w / 128 = 0 ∨ x.toNat % 2 = 1 ∨ y.toNat % 2 = 1 → exec (.cpyG2g c x y z bn) s = refused) ∧
    (¬ scopeGood w ∨ 9 < w % 16 ∨ w / 128 = 0 ∨ x.toNat % 2 = 1 → exec (.cpyL2g c x y z bn) s = refused) ∧
    (w % 128 = 0 → w / 128 ≠ 0 → d % 128 ≠ 0 → aligns d (exec (.cpyL2l c x y z bn) s)) ∧
    (w % 128 = 0 → w / 128 ≠ 0 → d % 128 = 0 → a % 128 ≠ 0 → aligns a (exec (.cpyL2l c x y z bn) s))

/-- R163–R169, R173: copy commands that issue, and those that fail a check. -/
def Obligations.CopyInstructions : Prop := Claims.CopyCommands ∧ Claims.CopyChecks

/-- R65, R169, R231–R234, R340, R374, R375: `PUT`, `PUTS`, `GET` and `RSIG` that pass their checks issue for the window their key entry names,
lock what they read or write here, take OSEQ values in issue order, the signal's after the data's, and count on SETB and on their barrier;
a `GET` that waits blocks its team at the end of the run. A key entry that does not permit the command traps `FAB_KEY`. -/
def Sys2Proof.Claims.FabricCommands : Prop :=
  ∀ (s : State) (t : Team) (r : Run) (b : Block) (i : Instr) (n : Nat) (a : FabricAsk) (e : List Byte), MayIssue s t r b n →
    fabricAsk s t r b i n a →
    let adv := advancing t r
    let s0 := s.setTeam s.cur adv
    let rd := spanOf s0 t .load a.reads
    let wr := spanOf rd.1 t .store a.writes
    let dev := numberOf (e.take 2)
    syncDevice s0 = s0 →
    (KeyHolds s t a.kix a.perms (a.offset + a.bytes) e → (∀ x ∈ rd.2 ++ wr.2, x.1 + x.2 ≤ hbmTop) →
      a.ranges.length + rd.2.length + wr.2.length ≤ ((List.range 64).filter fun e => ((s.core (coreOfTeam s.cur)).locks.find e).isNone).length →
      PortRoom wr.1 dev →
      ∃ s' c, exec i s = .next s' ∧
        CommandIssues s s' t (if a.wait then { t with run := some { r with
          closes := true, advances := false, blocks := some (.get s.hub.nextCmd) } } else adv) r b n c ∧
        HoldsRanges wr.1 s' c (a.ranges.map (fun (x : Bool × Nat × Nat × Nat) => (x.1, true, x.2)) ++ rd.2.map (fun (x : Nat × Nat) => (false, false, coreOfTeam s.cur, x)) ++
          wr.2.map fun (x : Nat × Nat) => (true, false, coreOfTeam s.cur, x)) ∧
        s'.home = wr.1.home ∧ c.kind = a.kind ∧ c.src = a.src ∧ c.dst = a.dst ∧ c.dev = dev ∧ c.win = (e.getD 2 0#8).toNat ∧
        c.key = numberOf ((e.drop 4).take 2) ∧ c.kix = a.kix ∧ c.offset = a.offset ∧ c.cls = a.cls ∧ c.vc = a.vc ∧
        c.signal = a.signal ∧ c.wait = a.wait ∧ c.bytes = a.bytes ∧ c.tiles = [] ∧ c.oseq = nextOseq s dev a.vc ∧
        c.sigOseq = c.oseq + (if a.cls = 0 then a.data else 0) ∧
        ((a.cls = 0 ∨ a.signals = true) → nextOseq s' dev a.vc =
          (nextOseq s dev a.vc + (if a.cls = 0 then a.data else 0) + if a.signals then 1 else 0) % 2 ^ 32)) ∧
    ((s.context (s.ctxOf t)).fktbase.toNat + 32 * a.kix + 32 ≤ hbmTop →
      e = (List.range 32).map (fun j => s.home.byte ((s.context (s.ctxOf t)).fktbase.toNat + 32 * a.kix + j)) →
      ((e.getD 3 0#8).getLsbD 7 = false ∨ e.getD 3 0#8 &&& a.perms ≠ a.perms ∨ numberOf ((e.drop 8).take 8) < a.offset + a.bytes) →
      exec i s = .next (s.setTeam s.cur (adv.raiseAll 16 (BitVec.ofNat 32 a.kix))))

/-- R231, R232, R239, R320: a `CSEND` whose descriptor keeps R239 and R242, with clean bytes, an allowing key entry and room, issues, locks
its descriptor and payload as sources, and leaves one packet of KIND 5 at this hub for its first route entry to act on. -/
def Sys2Proof.Claims.CollectiveSend : Prop :=
  ∀ (s : State) (t : Team) (r : Run) (b : Block) (ch : BitVec 1) (x y z : BitVec 6) (bn : BitVec 4) (dq pq : Nat × Nat)
    (d e body : List Byte), MayIssue s t r b bn.toNat →
    let adv := advancing t r
    let s0 := s.setTeam s.cur adv
    let da := (t.readS s.tick x.toNat).toNat
    let pa := (t.readS s.tick y.toNat).toNat
    let chunk := (t.readS s.tick z.toNat).toNat
    let f := fieldAt d
    let len := f 8 2 * [4, 2, 2, 4, 0, 4, 8].getD (f 6 1) 0
    chunk < 65536 → da % 64 = 0 → pa % 4 = 0 → localRange s b da 64 = some dq → scratchBytes s dq.1 dq.2 64 = (d, false) →
    f 6 1 ≠ 4 → descriptorOk d = true → nelemOk d len = true → localRange s b pa len = some pq →
    scratchBytes s pq.1 pq.2 len = (body, false) → syncDevice s0 = s0 → KeyHolds s t (f 11 1) 8#8 0 e →
    2 ≤ ((List.range 64).filter fun e => ((s.core (coreOfTeam s.cur)).locks.find e).isNone).length →
    storeUsed s (f 16 2 / 256 % 16) + 4224 ≤ 4194304 →
    ∃ s' c p, exec (.csend ch x y z bn) s = .next s' ∧ CommandIssues s s' t adv r b bn.toNat c ∧
      HoldsRanges s s' c [(false, true, dq.1, dq.2, 64), (false, true, pq.1, pq.2, len)] ∧ s'.home = s.home ∧
      s'.hub.waiting = s.hub.waiting ++ [⟨16, Packet.bytes p, [s.hub.nextCmd], none⟩] ∧
      p.src = s.hub.device.toNat ∧ p.dst = 0xFFFF ∧ p.kind = 5 ∧ p.cls = f 7 1 % 2 ∧ p.vc = f 7 1 / 2 % 4 ∧ p.efmt = f 6 1 ∧
      p.cid = c.cid ∧ p.collid = f 0 4 ∧ p.chunk = chunk ∧ p.rank = f 4 2 ∧
      p.route = (List.range (f 10 1)).map (fun i => f (16 + 2 * i) 2) ∧ p.fan0 = f 32 2 ∧ p.fan1 = f 34 2 ∧
      p.key = numberOf ((e.drop 4).take 2) ∧ p.win = (e.getD 2 0#8).toNat ∧ p.sigbar = f 14 1 ∧ p.offset = f 40 5 ∧ p.sigblk = f 12 2 ∧
      p.nelem = f 8 2 ∧ p.nsrc = 1 ∧ p.void = false ∧ p.payload = body ∧
      (f 7 1 % 2 = 0 → p.oseq = nextOseq s 0xFFFF (f 7 1 / 2 % 4))

/-- R231–R234, R239: the fabric commands. -/
def Obligations.FabricInstructions : Prop := Claims.FabricCommands ∧ Claims.CollectiveSend

/-- R198, R204, R344, R345, R398–R400: `SPAWN` and `HPASS` that pass their checks issue as commands and reach the walker's lists with what they
ask, in order of arrival; a `SPAWN` whose queue has no room, counting the work ahead of it, waits there in that order and blocks its team at
the end of the run, and the queue's count of blocked commands rises. -/
def Obligations.WalkerCommands : Prop :=
  ∀ (s : State) (t : Team) (r : Run) (b : Block) (l : Launch) (ch : BitVec 1) (x y z : BitVec 6) (bn : BitVec 4),
    MayIssue s t r b bn.toNat → s.launch b.launch = some l →
    let adv := advancing t r
    let id := s.hub.nextCmd
    let node := (t.readS s.tick y.toNat).toNat
    let inum := (t.readS s.tick z.toNat).toNat
    node < graphSize s t →
    (∀ p bs, inum ≠ 0 → (t.readS s.tick x.toNat).toNat % 32 = 0 → localRange s b (t.readS s.tick x.toNat).toNat 32 = some p →
      scratchBytes s p.1 p.2 32 = (bs, false) →
      let dead := fieldAt bs 0 8
      let arg := fieldAt bs 8 8
      let q := nodeQueue s (graphOf s t) node (nodeField s (graphOf s t) node 0 4)
      arg % 64 = 0 → fieldAt bs 24 8 = 0 → fieldAt bs 16 8 = 0 →
      ∃ s' c, exec (.spawn ch x y z bn) s = .next s' ∧ c.locks = [] ∧ s'.home = s.home ∧
        c.ask = ⟨0, node, inum, if dead = 0 then l.deadline.toNat else dead,
          if arg = 0 then nodeField s (graphOf s t) node 40 8 else arg, q⟩ ∧
        (queueTaken s q < (s.queue q).size → CommandIssues s s' t adv r b bn.toNat c ∧ s'.hub.walk = s.hub.walk ++ [⟨s.hub.walkSeq, .spawn id⟩] ∧
          s'.hub.walkSeq = s.hub.walkSeq + 1 ∧ s'.queue q = s.queue q) ∧
        ((s.queue q).size ≤ queueTaken s q →
          CommandIssues s s' t { t with run := some { r with advances := true, closes := true, blocks := some (.spawn q) } } r b bn.toNat c ∧
            s'.hub.walk = s.hub.walk ∧ s'.hub.walkSeq = s.hub.walkSeq + 1 ∧ (s'.queue q).blocked = (s.queue q).blocked + 1 ∧
            (s'.queue q).waiters = (s.queue q).waiters ++ [⟨s.hub.walkSeq, s.cur, id⟩])) ∧
    (∀ h, h = (t.readPair s.tick x.toNat).toNat → x.toNat % 2 = 0 → h / 2 ^ 62 = 2 →
      (nodeSuccs s (graphOf s t) l.node).contains node = true →
      ∃ s' c, exec (.hpass ch x y z bn) s = .next s' ∧ CommandIssues s s' t adv r b bn.toNat c ∧ c.locks = [] ∧ s'.home = s.home ∧
        c.ask = ⟨h, node, inum, 0, 0, 0⟩ ∧ s'.hub.walk = s.hub.walk ++ [⟨s.hub.walkSeq, .pass id⟩] ∧
        s'.hub.walkSeq = s.hub.walkSeq + 1)

namespace Sys2Proof.Claims

open Sys2Proof.Machine

/-! ### The matrix engine -/

/-- What an engine instruction captures in its reservation (R179, R193, R294). -/
structure EngineAsk where
  opA    : Nat := 0
  opB    : Nat := 0
  handle : BitVec 64 := 0
  mask   : Mask := 0
  desc   : List Word := []
  data   : List (Nat × Word × Word × Bool) := []
  vd     : Nat := 0
  classA : Bool := false

/-- A format of the engine (R179): BF16, FP16, NPI2 to NPI8. -/
def multiplies (f : Nat) : Prop := f = 1 ∨ f = 2 ∨ 9 ≤ f ∧ f ≤ 15

/-- What the engine instructions capture when they pass orders 1 to 3 of R179. -/
def engineAsk (s : State) (t : Team) (b : Block) (i : Instr) (a : EngineAsk) : Prop :=
  let word := fun (x : BitVec 6) => (t.readS s.tick x.toNat).toNat
  let ready := fun (x : Tile) => x.valid = true ∧ x.state = 2#2 ∧ x.eng = false ∧ multiplies (x.d2.toNat % 32)
  let move := fun (row col : BitVec 6) => word col ≤ 127 ∧ ∀ l ∈ t.actingLanes, word row + l < b.accRows
  let lanes : Mask := (List.range 1024).foldl (fun m l => if l ∈ t.actingLanes then m ||| (1#1024 <<< l) else m) 0#1024
  match i with
  | .mldwTile _ x _ =>
    let v := b.tile x.toNat
    ready v ∧ v.d1.toNat = 128 + 65536 * 128 ∧ a = { desc := [v.d0, v.d1, v.d2, v.d3] }
  | .mldwHandle _ p _ =>
    let h := t.readPair s.tick p.toNat
    let f := h.toNat % 32
    let lay := h.toNat / 32 % 4
    p.toNat % 2 = 0 ∧ h.toNat < 2 ^ 56 ∧ multiplies f ∧ (9 ≤ f → lay = 2) ∧ (f < 9 → lay < 2) ∧ a = { handle := h }
  | .mma _ x g sb _ _ =>
    let v := b.tile x.toNat
    ready v ∧ (v.d2.toNat / 256 % 4 ≠ 2 → v.d1.toNat / 65536 = 128 ∧ v.d1.toNat % 65536 ≤ 128) ∧ 128 * g.toNat < t.lanes ∧
      word sb + v.d1.toNat % 65536 ≤ b.accRows ∧
      a = { opA := word sb, opB := v.d1.toNat % 65536, desc := [v.d0, v.d1, v.d2, v.d3]
            mask := (List.range 128).foldl (fun m j => if t.acting.getLsbD (128 * g.toNat + j) then m ||| (1#1024 <<< j) else m) 0#1024 }
  | .mz _ sb n => word n ≤ 512 ∧ (0 < word n → word sb + word n ≤ b.accRows) ∧ a = { opA := word sb, opB := word n }
  | .accrd _ d row col | .accrdF _ d row col =>
    move row col ∧ a = { opA := word row, opB := word col, mask := lanes, vd := d.toNat, classA := true }
  | .accwr _ d row col =>
    move row col ∧ a = { opA := word row, opB := word col, mask := lanes, vd := d.toNat
                         data := t.actingLanes.map fun l =>
                           (l, t.readV s.tick d.toNat l, t.readV s.tick (d.toNat + 1) l, false) }
  | .accwrF _ d row col =>
    move row col ∧ a = { opA := word row, opB := word col, mask := lanes, vd := d.toNat
                         data := t.actingLanes.map fun l => (l, t.readV s.tick d.toNat l, 0#32, false) }
  | _ => False

/-- A register-writing operation that ends by an event counts on the flag of SETA, and with SETA 15 holds the run until it ends. -/
def Awaited (t u : Team) (r : Run) : Prop :=
  ∃ o, o.classA = true ∧ o.waits = true ∧ o.vDest = [] ∧ o.sDest = [] ∧ o.num = t.nextOp ∧ o.depth = t.depth ∧
    (r.setA ≠ 15 → o.flag = some r.setA ∧ u.flag r.setA = t.flag r.setA + 1 ∧
      u = { t with ops := t.ops ++ [o], nextOp := t.nextOp + 1, flags := u.flags } ∧
      ∀ key, key ≠ 16 * t.depth + r.setA → Sparse.get 0 u.flags key = Sparse.get 0 t.flags key) ∧
    (r.setA = 15 → o.flag = none ∧
      u = { t with ops := t.ops ++ [o], nextOp := t.nextOp + 1, run := t.run.map fun x => { x with hold := some (.onOp o.num) } })

/-- The reservations of a block, and the lowest free entry of a cluster's table. -/
def reserved (s : State) (cl bk : Nat) : List (Nat × Reservation) := (s.cluster cl).table.filter fun x => x.2.block == bk
/-- See `reserved`. -/
def lowestFree (s : State) (cl e : Nat) : Prop := e < 16 ∧ (s.cluster cl).table.find e = none ∧ ∀ j, j < e → (s.cluster cl).table.find j ≠ none

/-- The cluster of the current team. -/
def ownCluster (s : State) : Nat := s.cur / 64

end Sys2Proof.Claims

open Sys2Proof Sys2Proof.Machine Sys2Proof.Claims

/-- R65, R178, R179, R185, R294: `MLDW`, `MMA`, `MZ` and the accumulator moves that pass their checks take the lowest free entry of their
cluster's reservation table with the operands they capture, counted on SETB, or for the reads on SETA; with no entry free they wait.
Accumulators, slots and memory are as before. -/
def Obligations.MatrixReservations : Prop :=
  ∀ (s : State) (t : Team) (r : Run) (b : Block) (i : Instr) (a : EngineAsk), s.team s.cur = some t → t.run = some r →
    s.block t.block = some b → t.mute = false → Clean t → engineAsk s t b i a → t.flagFull a.classA = false →
    let adv := advancing t r
    let cl := ownCluster s
    (∀ e, lowestFree s cl e →
      ∃ s' u x, exec i s = .next s' ∧ s'.team s.cur = some u ∧ (a.classA = false → Counted adv u r) ∧ (a.classA = true → Awaited adv u r) ∧
        (∀ k, k ≠ s.cur → s'.team k = s.team k) ∧ s'.home = s.home ∧ s'.cores = s.cores ∧ s'.blocks = s.blocks ∧
        (∀ k, k ≠ cl → s'.cluster k = s.cluster k) ∧ (s'.cluster cl).slots = (s.cluster cl).slots ∧
        (s'.cluster cl).table.find e = some x ∧ (∀ j, j ≠ e → (s'.cluster cl).table.find j = (s.cluster cl).table.find j) ∧
        x.core = coreOfTeam s.cur ∧ x.block = t.block ∧ x.team = s.cur ∧ x.number = t.number ∧ x.depth = t.depth ∧ x.issued = s.cycles ∧
        x.granted = false ∧ x.opA = a.opA ∧ x.opB = a.opB ∧ x.handle = a.handle ∧ x.mask = a.mask ∧ x.desc = a.desc ∧ x.data = a.data ∧
        x.vd = a.vd ∧ x.flag = (if a.classA then (if r.setA = 15 then none else some r.setA) else if r.setB = 15 then none else some r.setB) ∧
        (a.classA = true ∨ r.setB ≠ 15 → x.op = some t.nextOp)) ∧
    ((∀ e, e < 16 → (s.cluster cl).table.find e ≠ none) → exec i s = .next (stallInstr (s.setTeam s.cur adv)))

/-- R179, R184, R190–R193: the block's engine state as a whole. `MREL` waits for the block's reservations and then empties both slots. `MDRN` of a
block with nothing granted and no accumulator move pending writes MAGIC, the slots and the reservations in issue order to its area,
removes those reservations and empties the slots; `MRST` of an area with a wrong MAGIC restores nothing and owes the team `MATRIX`, and of
a good one without records fills the slots it lists; with a slot full or a reservation pending it traps `MATRIX`. Both wait for a free entry
of the cluster's table. -/
def Obligations.EngineState : Prop :=
  ∀ (s : State) (t : Team) (r : Run) (b : Block) (c : BitVec 1) (sb : BitVec 6), s.team s.cur = some t → t.run = some r →
    s.block t.block = some b → t.mute = false → (∀ x, t.poisonS x = false) → t.flagFull false = false →
    let adv := advancing t r
    let cl := ownCluster s
    let own := reserved s cl t.block
    let slot := fun (q : State) n => (q.cluster cl).slots.find (2 * t.block + n)
    let area := (t.readS s.tick sb.toNat).toNat
    (own ≠ [] → exec (.mrel c) s = .next (stallInstr (s.setTeam s.cur adv))) ∧
    (own = [] → ∃ s', exec (.mrel c) s = .next s' ∧ { s' with clusters := s.clusters } = s.setTeam s.cur adv ∧
      { s'.cluster cl with slots := (s.cluster cl).slots } = s.cluster cl ∧ slot s' 0 = none ∧ slot s' 1 = none ∧
      ∀ k, k ≠ 2 * t.block → k ≠ 2 * t.block + 1 → (s'.cluster cl).slots.find k = (s.cluster cl).slots.find k) ∧
    (own ≠ [] ∨ slot s 0 ≠ none ∨ slot s 1 ≠ none → exec (.mrst c sb) s = .next (s.setTeam s.cur (adv.raiseAll 18 16#32))) ∧
    (area % 128 ≠ 0 → own = [] → slot s 0 = none → slot s 1 = none →
      exec (.mrst c sb) s = .next (s.setTeam s.cur (adv.raise t.trapSet 8 128#32 area false 0))) ∧
    ∀ p, area % 128 = 0 → localRange s b area 68672 = some p →
      ((∀ e, e < 16 → (s.cluster cl).table.find e ≠ none) → exec (.mdrn c sb) s = .next (stallInstr (s.setTeam s.cur adv)) ∧
        (own = [] → slot s 0 = none → slot s 1 = none → exec (.mrst c sb) s = .next (stallInstr (s.setTeam s.cur adv)))) ∧
      ∀ e, lowestFree s cl e →
      let bytes := (scratchBytes s p.1 p.2 68672).1
      (own = [] → slot s 0 = none → slot s 1 = none → fieldAt bytes 0 4 ≠ 0x4D450001 →
        ∃ u, exec (.mrst c sb) s = .next (s.setTeam s.cur u) ∧ u.regs = t.regs ∧
          ∃ y, u.due = t.due ++ [y] ∧ y.cause = 18 ∧ y.detail = 17#32) ∧
      (own = [] → slot s 0 = none → slot s 1 = none → fieldAt bytes 0 4 = 0x4D450001 → fieldAt bytes 4 1 < 4 →
        (∀ j, 5 ≤ j → j < 64 → fieldAt bytes j 1 = if j = 6 ∧ fieldAt bytes 4 1 % 2 = 1 ∨ j = 7 ∧ 2 ≤ fieldAt bytes 4 1 then 1 else 0) →
        (∀ j, 67648 ≤ j → j < 68672 → fieldAt bytes j 1 = 0) → (s.cluster cl).table.length ≤ 16 →
        ∃ s' u, exec (.mrst c sb) s = .next s' ∧ { s' with clusters := s.clusters } = s.setTeam s.cur u ∧ Counted adv u r ∧
          (s'.cluster cl).table = (s.cluster cl).table ∧
          ∀ n, n < 2 → (fieldAt bytes 4 1 / 2 ^ n % 2 = 0 → slot s' n = none) ∧
            (fieldAt bytes 4 1 / 2 ^ n % 2 = 1 → ∃ w, slot s' n = some w ∧ w.fmt = 1 ∧
              ∀ j, j < 33792 → Sparse.get 0#8 w.bytes j = bytes.getD (64 + 33792 * n + j) 0#8)) ∧
      ((∀ x ∈ own, x.2.granted = false ∧ x.2.kind.port = false) → own.length ≤ 16 → (own.map (·.2.order)).Nodup → (own.map (·.1)).Nodup →
        (∀ n w, slot s n = some w → w.fmt < 256) →
        ∃ s' u, exec (.mdrn c sb) s = .next s' ∧ s'.team s.cur = some u ∧ u.regs = t.regs ∧
          (r.setB ≠ 15 → u.flag r.setB = t.flag r.setB + 1) ∧
          reserved s' cl t.block = [] ∧ slot s' 0 = none ∧ slot s' 1 = none ∧ s'.home = s.home ∧
          (∀ j y, (j, y) ∈ (s'.cluster cl).table ↔ (j, y) ∈ (s.cluster cl).table ∧ y.block ≠ t.block) ∧
          let saved := (scratchBytes s' p.1 p.2 68672).1
          fieldAt saved 0 4 = 0x4D450001 ∧ fieldAt saved 4 1 = (if slot s 0 = none then 0 else 1) + (if slot s 1 = none then 0 else 2) ∧
          fieldAt saved 5 1 = own.length ∧
          (∀ n w, n < 2 → slot s n = some w → fieldAt saved (6 + n) 1 = w.fmt) ∧
          ∀ x ∈ own, ∃ j, j = (own.filter fun y => decide (y.2.order < x.2.order)).length ∧
            fieldAt saved (67648 + 64 * j) 4 = x.2.word % 2 ^ 32 ∧ fieldAt saved (67648 + 64 * j + 8) 4 = x.2.opA % 2 ^ 32 ∧
            fieldAt saved (67648 + 64 * j + 12) 4 = x.2.opB % 2 ^ 32 ∧ fieldAt saved (67648 + 64 * j + 16) 8 = x.2.handle.toNat ∧
            fieldAt saved (67648 + 64 * j + 40) 8 = x.2.cid.toNat ∧
            fieldAt saved (67648 + 64 * j + 4) 1 = (16 * x.2.flag.getD 15 + x.2.number) % 256)

namespace Sys2Proof.Claims

open Sys2Proof.Machine

/-! ### What comes about in a team between runs -/

/-- A team that owes nothing, has no parked access, and waits for no checkpoint. -/
def Idle (t : Team) : Prop := t.due = [] ∧ t.rolling = [] ∧ t.parked = [] ∧ t.opening = none

/-- The arbiter's order (R46, R47): promoted teams first, the oldest of them; then the higher class; then the one least recently issued,
the lower team context on a tie. -/
def Goes (s : State) (a b : Nat × Team) : Prop :=
  let p := fun (t : Team) => t.promoted = true ∨ 256 ≤ t.passed
  let cls := fun (t : Team) => ((s.launchOf t).map (·.cls)).getD 0
  let older := a.2.lastIssue < b.2.lastIssue ∨ a.2.lastIssue = b.2.lastIssue ∧ a.1 < b.1
  (p a.2 ∧ ¬ p b.2) ∨ (p a.2 ∧ p b.2 ∧ older) ∨ (¬ p a.2 ∧ ¬ p b.2 ∧ (cls b.2 < cls a.2 ∨ cls a.2 = cls b.2 ∧ older))

/-- The budget of a team's launch is spent. -/
def Spent (s : State) (t : Team) : Prop := ∃ l, s.launchOf t = some l ∧ l.budget = 0

/-- The `BUDGET` trap that a team owes at a code address (R208). -/
def budgetDue (pc : Nat) : LaneTrap := ⟨0, 14, 0, pc, 0, false, false, false, 0⟩

/-- The team that goes on after a wait with a wake code (R223). -/
def awake (t : Team) (code : Nat) : Team := { t with wait := none, waitSince := 0, waitCause := code }

/-- A home team's lane and where `REGRP` puts it (R52): target, place in its column of 32. -/
def columnPlace (live : List (Nat × Team)) (k l : Nat) : Option (Nat × Nat) :=
  let lanes := live.flatMap fun kt => (List.range kt.2.lanes).map fun i => (kt.1, i, kt.2.regroupDigits / 8 ^ i % 8)
  match lanes.find? fun x => x.1 == k && x.2.1 == l with
  | none => none
  | some x =>
    if x.2.2 = 0 then none
    else some (x.2.2 - 1, ((lanes.takeWhile fun y => !(y.1 == k && y.2.1 == l)).filter fun y => y.2.2 == x.2.2 && y.2.1 % 32 == l % 32).length)

end Sys2Proof.Claims

open Sys2Proof Sys2Proof.Machine Sys2Proof.Claims

/-- R44–R47, R63, R208: `RUN_START` at a free issue slot starts the run of the eligible team that comes first in the arbiter's order; the
other eligible teams of the core are passed once more. A run that fails a fetch check is a trap in its place, and a spent budget `BUDGET`.
`TEAM_PROMOTE` promotes a team passed 256 times. -/
def Obligations.RunStart : Prop :=
  (∀ (s : State) (core slot k : Nat) (t : Team) (b : Block), slot < 2 → (if slot = 0 then (s.core core).slotA else (s.core core).slotB) = none →
    s.module.tripped = false → syncDevice s = s → (k, t) ∈ eligibleTeams s core → s.team k = some t → coreOfTeam k = core → t.yielded = [] →
    (∀ x ∈ eligibleTeams s core, x.2.yielded = [] → x ≠ (k, t) → Goes s (k, t) x) → s.block t.block = some b → b.firstAcq = none →
    s.deterministic t = false → (t.mode = .u ∨ (if t.mode = .h then t.bankH else t.bankS) = .resident) →
    let chosen := { t with lastIssue := s.time, passed := 0, promoted := false, yielded := [] }
    (¬ (t.depth = 0 ∧ Spent s t) →
      (∀ f, fetchRun s t = .ok f →
        ∃ s' u r, exec (.runStart core slot) s = .next s' ∧ s'.cur = k ∧ s'.home = s.home ∧ s'.blocks = s.blocks ∧
          s'.team k = some u ∧ { u with run := none } = { chosen with run := none } ∧ u.run = some r ∧ r.start = t.pc ∧ r.setA = f.setA ∧
          r.setB = f.setB ∧ r.items = f.items ∧ r.index = 0 ∧ r.through = f.through ∧ r.target = none ∧ r.traps = [] ∧ r.consumed = [] ∧
          r.hold = none ∧ r.helper = false ∧ r.exits = 0#1024 ∧ r.mode = t.mode ∧
          (if slot = 0 then (s'.core core).slotA = some k ∧ (s'.core core).slotB = (s.core core).slotB
            else (s'.core core).slotB = some k ∧ (s'.core core).slotA = (s.core core).slotA) ∧
          (s'.core core).runs = (s.core core).runs + 1 ∧
          ∀ j v, j ≠ k → s.team j = some v → ∃ w, s'.team j = some w ∧ { w with passed := v.passed, yielded := v.yielded } = v ∧
            w.passed = (if coreOfTeam j = core ∧ (∃ x ∈ eligibleTeams s core, x.1 = j) then v.passed + 1 else v.passed)) ∧
      ∀ e, fetchRun s t = .error e →
        ∃ s1 u, exec (.runStart core slot) s = .next (tryEnter s1 k) ∧ s1.home = s.home ∧ s1.cores = s.cores ∧ s1.team k = some u ∧
          u = { chosen with due := t.due ++ [⟨0, e.cause, e.detail, e.addr, e.index, true, false, false, 0⟩] }) ∧
    (t.depth = 0 → Spent s t → ∃ s1 u, exec (.runStart core slot) s = .next (tryEnter s1 k) ∧ s1.home = s.home ∧
      s1.team k = some u ∧ u = { chosen with due := t.due ++ [budgetDue t.pc] })) ∧
  (∀ (s : State) (t : Team) (f : Fetched), fetchRun s t = .ok f →
    let h := homeNat s (t.textBase + t.pc) 4
    h / 2 ^ 25 % 64 = 0 ∧ h / 2 ^ 31 % 2 = 0 ∧ h % 32 < 24 ∧ f.wait = h / 2 ^ 13 % 2 ^ 12 ∧ f.setA = h / 2 ^ 9 % 16 ∧ f.setB = h / 2 ^ 5 % 16 ∧
      ¬ (12 ≤ f.setA ∧ f.setA ≤ 14) ∧ ¬ (12 ≤ f.setB ∧ f.setB ≤ 14) ∧ f.items.length = h % 32 + 1 ∧
      f.through = t.pc + 12 * ((h % 32 + 4) / 3) ∧
      ∀ i it, f.items[i]? = some it → it.addr = t.pc + 4 * (i + 1) ∧
        it.word + (if it.chain then 2 ^ 31 else 0) = homeNat s (t.textBase + t.pc + 4 * (i + 1)) 4 % 2 ^ 32) ∧
  ∀ (s : State) (k : Nat) (t : Team), s.team k = some t →
    exec (.teamPromote k) s = .next (s.setTeam k (if 256 ≤ t.passed then { t with promoted := true } else t))

/-- R65, R67, R139, R158, R211, R212: `OPERATION_COMPLETE` of an operation whose effect is known writes its elements, lowers its flag and
lets a run that held for it go on; `WALK_COMPLETE` performs the parked load of one lane whose walk ends with a translation, writes
its value, frees its log entry and lowers its flag; a walk that no parked lane awaits changes nothing. -/
def Obligations.Completions : Prop :=
  (∀ (s : State) (k op : Nat) (t : Team) (o : Op), s.team k = some t → Idle t → t.ops.find? (fun x => x.num == op) = some o → o.waits = false →
    o.dirty = [] → o.past = false → (∀ d ∈ o.vDest ++ o.sDest, d.2.2 = false) → ((o.vDest.map (·.1)).Nodup ∧ (o.sDest.map (·.1)).Nodup) →
    t.regs.vPoison = [] → t.regs.sPoison = [] →
    ∃ u, exec (.operationComplete k op) s = .next (s.setTeam k u) ∧
      { u with regs := t.regs, ops := t.ops, flags := t.flags, run := t.run } = t ∧ u.ops.map (fun x => { x with dirty := [] }) = (t.ops.filter fun x => x.num != op).map (fun x => { x with dirty := [] }) ∧
      { u.regs with v := t.regs.v, s := t.regs.s, fflags := t.regs.fflags } = t.regs ∧ u.regs.fflags = t.regs.fflags ||| o.fflags ∧
      (∀ d ∈ o.vDest, Sparse.get 0#32 u.regs.v d.1 = d.2.1) ∧ (∀ d ∈ o.sDest, Sparse.get 0#32 u.regs.s d.1 = d.2.1) ∧
      (∀ key, (∀ d ∈ o.vDest, d.1 ≠ key) → Sparse.get 0#32 u.regs.v key = Sparse.get 0#32 t.regs.v key) ∧
      (∀ key, (∀ d ∈ o.sDest, d.1 ≠ key) → Sparse.get 0#32 u.regs.s key = Sparse.get 0#32 t.regs.s key) ∧
      (∀ f, o.flag = some f → Sparse.get 0 u.flags (16 * o.depth + f) = Sparse.get 0 t.flags (16 * o.depth + f) - 1) ∧
      (∀ key, (∀ f, o.flag = some f → key ≠ 16 * o.depth + f) → Sparse.get 0 u.flags key = Sparse.get 0 t.flags key) ∧
      u.run = t.run.map fun r => if r.hold = some (.onOp op) then { r with hold := none } else r) ∧
  (∀ (s : State) (die ctx page : Nat),
    (∀ kt ∈ s.teams, ∀ p ∈ kt.2.parked, ∀ x ∈ p.pending, x.2.1 / 65536 ≠ page) → exec (.walkComplete die ctx page) s = .next s) ∧
  ∀ (s s1 : State) (k l va pa attr : Nat) (sh : Bool) (t : Team) (p : Parked) (o : Op) (ws : List Word) (c : BitVec 1) (d : BitVec 7) (b : BitVec 6)
      (i : BitVec 7) (z : BitVec 2) (pol : BitVec 3),
    s.team k = some t → t.due = [] → t.rolling = [] → t.opening = none → t.parked = [p] → p.turn = false → p.pending = [(l, va, ws)] → p.faulted = [] → p.framed = false →
    (s.teams.filter fun kt => kt.1 == k || !kt.2.parked.isEmpty) = [(k, t)] →
    decodeWord (p.word % 2 ^ 31) = .ok (.ldVector c d b i z pol) → d.toNat < 112 → t.ops = [o] → o.num = p.op → o.vDest = [] → o.sDest = [] →
    o.dirty = [] → t.regs.vPoison = [] → t.regs.sPoison = [] →
    resolve s k t p.mode (Access.load (accessBytes z)) true va = (s1, .go pa attr sh) →
    (readAt s1 (coreOfTeam k) (s.ctxOf t) pa (accessBytes z) true).2 = false →
    ∃ s' u, exec (.walkComplete (coreOfTeam k / 128) (s.ctxOf t) (va / 65536)) s = .next s' ∧ s'.team k = some u ∧ u.parked = [] ∧ u.ops = [] ∧
      (∀ x ∈ loadTargets p.mode d.toNat (accessBytes z)
          [(l, numberOf (readAt s1 (coreOfTeam k) (s.ctxOf t) pa (accessBytes z) true).1)], Sparse.get 0#32 u.regs.v x.1 = x.2) ∧
      (∀ f, o.flag = some f → Sparse.get 0 u.flags (16 * o.depth + f) = Sparse.get 0 t.flags (16 * o.depth + f) - 1) ∧ { s'.home with l2 := s1.home.l2 } = s1.home

/-- R90, R99, R161, R274–R277: `TRAP_ENTRY` takes what a team between runs owes, once its operations have ended and the bank it enters has
room; owing nothing it changes nothing. `REGION_ROLLBACK` of a consuming team with an open region that may roll back restores its
checkpoint (`s1`–`s63`, `SG`, `k0`, the mask stack, the pc) and removes the team's unpublished entries since, its engines' among them;
otherwise the consumption is owed as a trap. -/
def Obligations.TurnsBetweenRuns : Prop :=
  ∀ (s : State) (k : Nat) (t : Team), s.team k = some t → t.run = none → t.wait = none → t.ended = false → t.ops = [] → t.parked = [] →
    t.opening = none → t.gone = false →
    (t.rolling = [] → t.due ≠ [] → bankWaits s k (entryMode t t.due) = false →
      exec (.trapEntry k) s = .next (trapEntry (s.setTeam k t) k t.due)) ∧
    (t.rolling = [] → t.due ≠ [] → bankWaits s k (entryMode t t.due) = true → exec (.trapEntry k) s = .next (s.setTeam k t)) ∧
    (t.due = [] → exec (.trapEntry k) s = .next s) ∧
    (∀ r, t.rolling ≠ [] → t.due = [] → t.depth = 0 → t.region = some r → r.leaked = false → r.rolled = false →
      ∃ s' u, exec (.regionRollback k) s = .next s' ∧ s'.team k = some u ∧ s'.home = s.home ∧ u.rolling = [] ∧ u.pc = r.restart ∧ u.sg = r.sg ∧
        u.ldclk = r.ldclk ∧ u.regs.s = r.s ∧ u.regs.v = t.regs.v ∧ kreg u 0 = r.k0 &&& ~~~t.exited ∧
        u.stack = r.stack.map (fun e => { e with saved := e.saved &&& ~~~t.exited, other := e.other &&& ~~~t.exited }) ∧
        u.region = some { r with rolled := true } ∧
        ∀ e, e ∈ (s'.core (coreOfTeam k)).log ↔ e ∈ (s.core (coreOfTeam k)).log ∧
          ¬ (e.tctx = ctxOfTeam k ∧ some e.ctx = (s.core (coreOfTeam k)).tagOf (s.ctxOf t) ∧ r.mark ≤ e.pos ∧ e.pub = false)) ∧
    (t.rolling ≠ [] → t.due = [] → (t.region = none ∨ t.depth ≠ 0 ∨ ∃ r, t.region = some r ∧ (r.leaked = true ∨ r.rolled = true)) →
      bankWaits s k (entryMode t t.rolling) = false →
      ∃ s1, exec (.regionRollback k) s = .next (trapEntry s1 k t.rolling) ∧ s1.team k = some { t with due := t.rolling, rolling := [] } ∧
        s1.home = s.home ∧ s1.cores = s.cores)

/-- R263–R265: `LADLE_GRANT` gives the free ladle of a deterministic launch without evicted blocks to the team that wants it with the least
key, when that key is less than the effective key of every other team of the launch; else nothing happens. -/
def Sys2Proof.Claims.LadleGranted : Prop :=
  ∀ (s : State) (n k : Nat) (t : Team) (b : Block) (l : Launch), s.launch n = some l → l.determ = true → l.ended = false → l.ladle = none →
    (∀ ke ∈ s.hub.evicted, ke.2.launch ≠ n) → s.team k = some t → (k, t) ∈ s.teams → t.ended = false → s.block t.block = some b →
    b.launch = n → (t.run.bind Run.hold) = some .retry →
    let less := fun (x y : Nat × Nat × Nat) => x.1 < y.1 ∨ x.1 = y.1 ∧ (x.2.1 < y.2.1 ∨ x.2.1 = y.2.1 ∧ x.2.2 < y.2.2)
    let index := fun (u : Team) => ((s.block u.block).map (·.index)).getD 0
    let rivals := s.teams.filter fun kt => !kt.2.ended && s.launchNo kt.2 == some n && kt != (k, t)
    (t.wants = true → (∀ y ∈ rivals, y.1 ≠ k) →
      (∀ y ∈ rivals, less (t.ldclk, b.index, t.number) (effectiveClock s n l y.2, index y.2, y.2.number) ∧
        (y.2.wants = true → less (t.ldclk, b.index, t.number) (y.2.ldclk, index y.2, y.2.number))) →
      exec (.ladleGrant n) s = .next (s.setLaunch n { l with ladle := some k })) ∧
    ((∀ kt ∈ s.teams, kt.2.wants = false) → exec (.ladleGrant n) s = .next s)

/-- R263–R265: the gate of a deterministic launch, and the grant of its ladle. -/
def Obligations.Ladle : Prop := Claims.LadleGate ∧ Claims.LadleGranted

/-- R174, R208, R223, R304, R339, R414: `TEAM_WAKE` of a team whose wake condition holds ends its wait with the wake code: 1 a barrier, its
acquire made and its waiter bit down; 2 the grid; 3 a written monitor, whose word goes to the scalar; 5 no `SPAWN` waiting; 6 its `GET`
gone. While the condition does not hold nothing changes. -/
def Obligations.TeamWakes : Prop :=
  ∀ (s : State) (k : Nat) (t : Team) (b : Block) (l : Launch), s.team k = some t → s.block t.block = some b → s.launch b.launch = some l →
    t.run = none → Idle t → l.determ = false → ¬ (t.depth = 0 ∧ l.budget = 0) →
    (∀ n ph acq, t.wait = some (.barrier n ph (some acq)) →
      ∃ s' u b', exec (.teamWake k) s = .next s' ∧ s'.team k = some u ∧ { u with monitor := t.monitor } = awake t 1 ∧ s'.block t.block = some b' ∧
        (b'.barrier n).waiters = (b.barrier n).waiters &&& ~~~(1#16 <<< t.number) ∧ (b'.barrier n).phase = (b.barrier n).phase ∧
        (2 ≤ acq.1 → (s'.core (coreOfTeam k)).l1 = [] ∧ acq.2 < (s'.core (coreOfTeam k)).counter)) ∧
    (∀ n ph, t.wait = some (.barrier n ph none) → (b.barrier n).phase = ph → exec (.teamWake k) s = .next s) ∧
    (t.wait = some .grid → (∀ x ∈ l.gridArr, x.1 ≠ 32 * b.index + t.number) →
      ∃ s' u, exec (.teamWake k) s = .next s' ∧ s'.team k = some u ∧ { u with monitor := t.monitor } = awake t 2 ∧ (s'.core (coreOfTeam k)).l1 = [] ∧
        l.gridBound.1 < (s'.core (coreOfTeam k)).counter) ∧
    (t.wait = some .grid → (∃ x ∈ l.gridArr, x.1 = 32 * b.index + t.number) → exec (.teamWake k) s = .next s) ∧
    (∀ va pa sb, t.wait = some (.monitor va pa sb) → t.monitor.written = false → exec (.teamWake k) s = .next s) ∧
    (∀ va pa sb, t.wait = some (.monitor va pa sb) → t.monitor.written = true → pa < hbmTop → sb < 64 →
      (viewBytes s (coreOfTeam k) (s.ctxOf t) false pa 4).2 = false → t.ops = [] → t.snap = none →
      ∃ s' u, exec (.teamWake k) s = .next s' ∧ s'.team k = some u ∧ u.wait = none ∧ u.waitCause = 3 ∧ u.monitor.armed = false ∧
        WritesScalar t { u with wait := t.wait, waitSince := t.waitSince, waitCause := t.waitCause, monitor := t.monitor } sb
          (BitVec.ofNat 32 (numberOf (viewBytes s (coreOfTeam k) (s.ctxOf t) false pa 4).1)) ∧ s'.home = s.home) ∧
    (∀ q, t.wait = some (.spawn q) → (s.queue q).waiters = [] →
      ∃ s', exec (.teamWake k) s = .next s' ∧ s'.team k = some (awake t 5) ∧ s'.home = s.home) ∧
    (∀ c, t.wait = some (.get c) → s.cmd c = none →
      ∃ s', exec (.teamWake k) s = .next s' ∧ s'.team k = some (awake t 6) ∧ s'.home = s.home) ∧
    ∀ c x, t.wait = some (.get c) → s.cmd c = some x → x.team = k → x.block = t.block → exec (.teamWake k) s = .next s

/-- R148, R173, R198, R206, R208, R329: `TEAM_END` of a team of no living lane with nothing outstanding ends it: its stores are published at
DEVICE scope and its exit is an event on its block's barriers. `BLOCK_END` of a block whose teams have ended, with no reservation and no
command on a barrier, publishes what is left and removes the block and its teams. `BUDGET_OUT` makes the running teams of a spent
slice at depth 0 owe `BUDGET`, and records that the budget is spent, once. -/
def Obligations.TeamsEnd : Prop :=
  (∀ (s : State) (k tag : Nat) (t : Team) (b : Block) (l : Launch), s.team k = some t → s.block t.block = some b → s.launch b.launch = some l →
    l.determ = false → t.ended = false → t.gone = true → t.run = none → t.wait = none → t.ops = [] → t.homes = [] → t.depth = 0 →
    (s.core (coreOfTeam k)).tagOf (s.ctxOf t) = some tag → b.barriers = [] → t.number < 16 →
    (∀ e ∈ (s.core (coreOfTeam k)).log, e.spl = true → e.pub = true) →
    ∃ s' u b', exec (.teamEnd k) s = .next s' ∧ s'.team k = some u ∧ u.ended = true ∧ u.due = [] ∧ u.regs = t.regs ∧ s'.home = s.home ∧
      s'.block t.block = some b' ∧ b'.exited = b.exited ||| (1#16 <<< t.number) ∧
      (∀ n, n < 16 → (b'.barrier n).exited = 1#16 <<< t.number) ∧
      ∀ e ∈ (s'.core (coreOfTeam k)).log, e.ctx = tag → e.pos < (s.core (coreOfTeam k)).tail tag → e.det = none → e.pub = true) ∧
  (∀ (s : State) (k : Nat) (t : Team), s.team k = some t → t.ended = true ∨ t.gone = false ∨ t.run ≠ none ∨ t.wait ≠ none →
    exec (.teamEnd k) s = .next s) ∧
  (∀ (s : State) (bk : Nat) (b : Block) (l : Launch), s.block bk = some b → b.regrouped = false → s.launch b.launch = some l → l.determ = false →
    (∀ kt ∈ s.teams, kt.2.block = bk → kt.2.ended = true) → (∀ kr ∈ (s.cluster (b.core / 4)).table, kr.2.block ≠ bk) →
    (∀ x ∈ b.barriers, x.2.pend = 0) → (∀ kt ∈ s.teams, kt.2.region = none) → l.next < l.nblocks → s.hub.instances = [] →
    (∀ e ∈ (s.core b.core).log, e.spl = true → e.pub = true) →
    ∃ s', exec (.blockEnd bk) s = .next s' ∧ s'.block bk = none ∧ (∀ j, j ≠ bk → s'.block j = s.block j) ∧
      (∀ kt, kt ∈ s'.teams ↔ kt ∈ s.teams ∧ kt.2.block ≠ bk) ∧ s'.home = s.home ∧
      ∀ i h, (s.core b.core).holds.find i = some h →
        (s'.core b.core).holds.find i = some (if h.block = bk ∧ h.exitAt = none then { h with exitAt := some s.time } else h)) ∧
  (∀ (s : State) (bk : Nat) (b : Block), s.block bk = some b → (∃ kt ∈ s.teams, kt.2.block = bk ∧ kt.2.ended = false) →
    exec (.blockEnd bk) s = .next s) ∧
  ∀ (s : State) (n : Nat), (s.teams.map (·.1)).Nodup → (∀ kt ∈ s.teams, s.launchNo kt.2 = some n → kt.2.run ≠ none) →
    ∃ s', exec (.budgetOut n) s = .next s' ∧ s'.home = s.home ∧ s'.cores = s.cores ∧
      (∀ l, s.launch n = some l → (∃ kt ∈ s.teams, s.launchNo kt.2 = some n ∧ kt.2.depth = 0 ∧ Spent s kt.2 ∧ kt.2.ended = false ∧
          ∀ x ∈ kt.2.due, x.cause ≠ 14) → s'.launch n = some { l with spent := true }) ∧
      ∀ k t, s.team k = some t →
        (s.launchNo t = some n → t.depth = 0 → Spent s t → t.ended = false → (∀ x ∈ t.due, x.cause ≠ 14) →
          s'.team k = some { t with due := t.due ++ [budgetDue t.pc] }) ∧
        (s.launchNo t ≠ some n ∨ t.depth ≠ 0 ∨ ¬ Spent s t ∨ t.ended = true ∨ (∃ x ∈ t.due, x.cause = 14) → s'.team k = some t)

/-- R51–R53, R385: `REGRP_FORM` of a block whose live teams have all arrived, with their tables in their text, keeps them as home teams and
puts each lane that has a target into the lane of a new team that R52 gives it, active, with its rows of `v0`–`v111`; before they all
arrive nothing happens. `ENDRG_RETURN` of a regrouped block whose new teams have all arrived gives each home lane its row back, and
nothing happens before. -/
def Obligations.RegroupEvents : Prop :=
  (∀ (s : State) (bk : Nat) (b : Block) (live : List (Nat × Team)), s.block bk = some b → b.regrouped = false → s.hub.evicted = [] →
    live = s.teams.filter (fun kt => kt.2.block == bk) → live.Pairwise (fun x y => x.2.number < y.2.number) → (s.teams.map (·.1)).Nodup →
    (∀ kt ∈ live, s.team kt.1 = some kt.2 ∧ kt.2.ended = false ∧ Idle kt.2 ∧ kt.2.mode = .u ∧ kt.2.depth = 0 ∧ kt.2.words ≤ 32 ∧
      Sparse.wf 0#32 kt.2.regs.v = true ∧ coreOfTeam kt.1 = b.core) → live ≠ [] → syncDevice s = s →
    ((∀ kt ∈ live, kt.2.arrivedRegroup false = true) →
      (∀ kt ∈ live, ∃ n, textLength s 1 kt.2.textBase = some n ∧ kt.2.regroupTable + 16 ≤ n) →
      (newTeams (placings (live.map fun kt => (kt.1, kt.2.words, kt.2.regroupDigits)))).length ≤
        (regroupContexts s b.core ((live.filter fun kt => kt.2.regroupDigits != 0).map (·.1))).length →
      (∀ kt ∈ live, kt.2.regroupDigits ≠ 0) → (∀ kt ∈ live, ∀ j ∈ [0, 1, 2, 3], codeAddressCause s kt.2 true
        (homeNat s (kt.2.textBase + kt.2.regroupTable + 4 * j) 4) = none) → (∀ kt ∈ live, kt.2.regroupDigits < 8 ^ kt.2.lanes) →
      (∀ kt ∈ live, ∀ i, kt.2.regroupDigits / 8 ^ i % 8 ≤ 4) →
      ∃ s' b', exec (.regrpForm bk) s = .next s' ∧ s'.home = s.home ∧ s'.block bk = some b' ∧ b'.regrouped = true ∧
        (∀ kt ∈ live, b'.homes.find kt.1 = some { kt.2 with wait := none, waitSince := 0, bankS := .unwritten, bankH := .unwritten }) ∧
        ∀ kt ∈ live, ∀ l j place, columnPlace live kt.1 l = some (j, place) →
          let i := 32 * (place % 32) + l % 32
          ∃ x ∈ s'.teams, x.2.block = bk ∧ x.2.homes.find i = some (kt.2.number, l) ∧ (kreg x.2 0).getLsbD i = true ∧ x.2.mode = .u ∧
            (∃ ht ∈ live, x.2.pc = homeNat s (ht.2.textBase + ht.2.regroupTable + 4 * j) 4) ∧
            ∀ r, r < 112 → vreg x.2 r i = vreg kt.2 r l) ∧
    ((∃ kt ∈ live, kt.2.arrivedRegroup false = false) → exec (.regrpForm bk) s = .next s)) ∧
  ∀ (s : State) (bk : Nat) (b : Block), s.block bk = some b → b.regrouped = true → (s.teams.map (·.1)).Nodup →
    ((∃ kt ∈ s.teams, kt.2.block = bk ∧ kt.2.homes ≠ [] ∧ kt.2.ended = false ∧ kt.2.arrivedRegroup true = false) →
      exec (.endrgReturn bk) s = .next s) ∧
    ∀ (k h : Nat) (t home : Team) (at' : Nat), s.teams.filter (fun kt => kt.2.block == bk && !kt.2.homes.isEmpty) = [(k, t)] →
      t.ended = false → t.wait = some (.regroup true at' 0) → t.arrivedRegroup true = true → Idle t → Idle home → b.homes = [(h, home)] →
      (∀ x ∈ t.homes, x.1 < 1024 ∧ x.2.1 = home.number ∧ x.2.2 < home.lanes ∧ home.exited.getLsbD x.2.2 = false) → (t.homes.map (·.1)).Nodup → (t.homes.map (·.2.2)).Nodup →
      home.lanes ≤ 1024 → Sparse.wf 0#32 t.regs.v = true → Sparse.wf 0#32 home.regs.v = true → home.mode = .u → t.mode = .u → (k = h ∨ s.team h = none) →
      ∃ s' b' u, exec (.endrgReturn bk) s = .next s' ∧ s'.home = s.home ∧ s'.block bk = some b' ∧ b'.regrouped = false ∧ b'.homes = [] ∧
        s'.team h = some u ∧ u.pc = at' ∧ u.wait = none ∧ u.stack = [] ∧
        (∀ x ∈ t.homes, (∀ r, r < 112 → vreg u r x.2.2 = vreg t r x.1) ∧ u.exited.getLsbD x.2.2 = t.exited.getLsbD x.1 ∧
          (kreg u 0).getLsbD x.2.2 = !t.exited.getLsbD x.1) ∧
        ∀ l, (∀ x ∈ t.homes, x.2.2 ≠ l) → l < 1024 → ∀ r, r < 112 → vreg u r l = vreg home r l

namespace Sys2Proof.Claims

open Sys2Proof.Machine

/-! ### Events of memory and the engines -/

/-- The instructions that an engine, the fabric or the walker takes (R163, R231, R344, R398). -/
def engineCommand : Instr → Bool
  | .cpyG2t _ _ _ _ _ | .cpyT2g _ _ _ _ _ | .cpyL2l _ _ _ _ _ | .cpyG2g _ _ _ _ _ | .cpyG2l _ _ _ _ _ | .cpyL2g _ _ _ _ _
  | .gather _ _ _ _ _ | .put _ _ _ _ _ | .puts _ _ _ _ _ | .get _ _ _ _ _ | .csend _ _ _ _ _ | .rsig _ _ _ _ _ | .spawn _ _ _ _ _
  | .hpass _ _ _ _ _ => true
  | _ => false

/-- Place `p` moved on by `n` bytes. -/
def onward (p : Place) (n : Nat) : Place :=
  match p with
  | .global va => .global (va + n)
  | .scratch c o => .scratch c (o + n)
  | .saved e o => .saved e (o + n)

/-- Where unit `u` of a copy comes from and goes to (R166). -/
def unitEnds (c : Cmd) (u : Nat) : Place × Place :=
  let line := u / c.lineUnits
  let col := u % c.lineUnits * 128
  (onward c.src (line * c.srcPitch + col), onward c.dst (line * c.dstPitch + col))

/-- A reduction of one 4-byte element (R168): the destination's number and the source's. -/
def reduced (op d x : Nat) : Nat :=
  let a := BitVec.ofNat 32 d
  let b := BitVec.ofNat 32 x
  match op with
  | 1 => (sum32 a b).1.toNat
  | 2 => (d + x) % 2 ^ 32
  | 4 => if a.toInt ≤ b.toInt then d else x
  | 5 => if a.toInt ≤ b.toInt then x else d
  | 8 => (a &&& b).toNat
  | _ => (a ||| b).toNat

/-- A reservation that may be granted (R186–R188, R190): no earlier one of its block is in its way, a frozen engine does not stop it, and
the array is free unless it only moves accumulator elements. -/
def MayGrant (s : State) (cl : Nat) (r : Reservation) : Prop :=
  let table := (s.cluster cl).table
  r.granted = false ∧ (∀ q ∈ table, q.2.order < r.order → q.2.conflicts r = false) ∧ (r.freezes = true → frozen s cl = false) ∧
    (r.kind.port = true ∨ ∀ q ∈ table, q.2.granted = true → q.2.kind.port = true)

/-- The arbiter's order (R187): promoted reservations first, oldest first; then the higher class; then the earlier issue, the lower core,
the lower entry. -/
def GrantedFirst (s : State) (a b : Nat × Reservation) : Prop :=
  let old := fun (r : Reservation) => r.promoted = true ∨ r.issued + 4096 ≤ s.cycles
  let earlier := a.2.issued < b.2.issued ∨ a.2.issued = b.2.issued ∧ (a.2.core < b.2.core ∨ a.2.core = b.2.core ∧ a.1 < b.1)
  (old a.2 ∧ ¬ old b.2) ∨ (old a.2 ∧ old b.2 ∧ earlier) ∨
    (¬ old a.2 ∧ ¬ old b.2 ∧ (b.2.cls < a.2.cls ∨ a.2.cls = b.2.cls ∧ earlier))

/-- Entry `e` holds the reservation that the arbiter grants next. -/
def NextGrant (s : State) (cl e : Nat) (r : Reservation) : Prop :=
  (s.cluster cl).table.find e = some r ∧ (e, r) ∈ (s.cluster cl).table ∧ MayGrant s cl r ∧
    (∀ q ∈ (s.cluster cl).table, q.2.cls ≤ 3) ∧ ∀ q ∈ (s.cluster cl).table, q ≠ (e, r) → MayGrant s cl q.2 → GrantedFirst s (e, r) q

/-- The tile of a reservation holds the bytes that it held at the issue (R369). -/
def Unstored (s : State) (b : Block) (r : Reservation) : Prop := ∀ (i : Nat) (x : Byte), r.seen[i]? = some x → (tileImage s b r.tile).1[i]? = some x

/-- The granted entry, and nothing else of the cluster's table. -/
def Grants (s s' : State) (cl e : Nat) (r : Reservation) : Prop :=
  (s'.cluster cl).table.find e = some { r with granted := true } ∧
    ∀ j, j ≠ e → (s'.cluster cl).table.find j = (s.cluster cl).table.find j

/-- A sector leaves L2, and its bytes' fold tags with it (R151, R284). -/
def LeavesL2 (s s' : State) (sector : Nat) : Prop :=
  (∀ x, s'.home.l2.find x = if x = sector then none else s.home.l2.find x) ∧
    ∀ a, s'.home.tag a = if a / 128 = sector then (0, 0) else s.home.tag a

/-- An accumulator element of a block's row and column (R177). -/
def element (s : State) (core : Nat) (b : Block) (row col : Nat) : BitVec 64 :=
  Sparse.get 0#64 (s.core core).acc (128 * (b.accBase + row) + col)

end Sys2Proof.Claims

open Sys2Proof Sys2Proof.Machine Sys2Proof.Claims

/-- R151, R152, R160, R266, R271, R284: `FOLD` folds the first published entry of a core's log, under its segment's stamp, and frees it;
`REBASE`, once a COUNTER has reached 2^47 and with every log empty, zeroes COUNTERs, launch stamps and fold tags and changes no byte;
`L2_SECTOR_EVICT` takes a clean sector without announced entries out of L2, and a dirty one in two turns, the first recording its intent;
`L1_LINE_EVICT` takes a line out of L1; home memory keeps its bytes. -/
def Obligations.MemoryEvents : Prop :=
  (∀ (s : State) (core : Nat), (∀ e ∈ (s.core core).log, e.pub = false) → exec (.fold core) s = .next s) ∧
  (∀ (s : State) (core : Nat) (e : LogEntry), (s.core core).log.find? (fun x => x.pub) = some e →
    ∃ s', exec (.fold core) s = .next s' ∧ (s'.core core).log = (s.core core).log.filter (fun x => x != e) ∧
      (∀ j, j ≠ core → (s'.core j).log = (s.core j).log) ∧
      ((s.core core).log.filter (fun x => x == e) = [e] → ∀ pa,
        let stamp := ((s.core core).segOf e).stamp
        let covers := e.chunk = pa / 32 ∧ e.mask.getLsbD (pa % 32) = true
        let carried := if e.keep = 3 ∧ s.home.l2.find (pa / 128) = none then (0, 0) else (stamp, core)
        let wins := ¬ (stamp < (s.home.tag pa).1 ∨ stamp = (s.home.tag pa).1 ∧ core < (s.home.tag pa).2)
        (covers → wins → s'.home.byte pa = entryByte e (pa % 32) ∧ s'.home.tag pa = carried) ∧
          (¬ (covers ∧ wins) → s'.home.byte pa = s.home.byte pa ∧ s'.home.tag pa = s.home.tag pa))) ∧
  (∀ s : State, (∀ kc ∈ s.cores, kc.2.counter < 2 ^ 47) → exec .rebase s = .next s) ∧
  (∀ s : State, (∃ kc ∈ s.cores, 2 ^ 47 ≤ kc.2.counter) → NoEntries s →
    ∃ s', exec .rebase s = .next s' ∧ (∀ a, s'.home.byte a = s.home.byte a ∧ s'.home.tag a = (0, 0)) ∧
      (∀ kc ∈ s'.cores, kc.2.counter = 0) ∧ (∀ kl ∈ s'.launches, kl.2.ls = 0) ∧
      ∀ k l, s.launch k = some l → ∃ l', s'.launch k = some l' ∧ { l' with ls := l.ls, gridBound := l.gridBound, gridArr := l.gridArr, gridEnd := l.gridEnd } = l) ∧
  (∀ (s : State) (sector : Nat),
    ((∃ kc ∈ s.cores, ∃ e ∈ kc.2.log, e.pub = true ∧ e.chunk / 4 = sector) → exec (.l2SectorEvict sector) s = .next s) ∧
    ((∀ kc ∈ s.cores, ∀ e ∈ kc.2.log, e.pub = true → e.chunk / 4 ≠ sector) →
      ∃ s', exec (.l2SectorEvict sector) s = .next s' ∧ { s' with home := s.home } = s ∧ (∀ a, s'.home.byte a = s.home.byte a) ∧
        (s.home.l2.find sector = none → s' = s) ∧
        ∀ x, s.home.l2.find sector = some x →
          (sector ∈ s.home.intents → LeavesL2 s s' sector ∧ s'.home.intents = s.home.intents.filter (· ≠ sector)) ∧
          (sector ∉ s.home.intents → (x.keep = 1 ∨ ∀ y ∈ s.home.l2, y.2.keep = x.keep) →
            (x.dirty = false → LeavesL2 s s' sector ∧ s'.home.intents = s.home.intents) ∧
            (x.dirty = true → s.home.intents = [] → s'.home = { s.home with intents := [sector] })))) ∧
  ∀ (s : State) (core sector : Nat), ∃ s', exec (.l1LineEvict core sector) s = .next s' ∧ { s' with cores := s.cores } = s ∧
    SameCores s s' core ∧ ∀ x, (s'.core core).l1.find x = if x = sector then none else (s.core core).l1.find x

/-- R165, R166, R168, R171–R173, R318: `ENGINE_COMMAND_ISSUE` has a stalled command issue as its instruction does; `COPY_UNIT` moves one unit
of a command with no fault: into a scratchpad its 128 bytes; into memory entries at TAIL, or with a reduction the element results at
the home slices; a unit moved already, or of a faulted command, is not moved again. `COPY_COMPLETE` of a command with nothing left frees
its locks, moves its tiles on, lowers PEND and its flag, publishes what it wrote, and forgets it; before that it changes nothing. -/
def Obligations.EngineEvents : Prop :=
  (∀ (s : State) (k : Nat) (t : Team) (r : Run) (it : RunItem) (rest : List RunItem) (i : Instr), s.team k = some t → t.run = some r →
    r.items = it :: rest →
    (r.hold = some .retry → decodeWord (it.word % 2 ^ 31 + if it.chain then 2 ^ 31 else 0) = .ok i → engineCommand i = true →
      ∀ s2, exec i ({ s with cur := k }.modTeam k Team.begin) = .next s2 →
        exec (.engineCommandIssue k) s = .next (finishInstr s2)) ∧
    (r.hold ≠ some .retry → exec (.engineCommandIssue k) s = .next s)) ∧
  (∀ (s : State) (id u : Nat) (c : Cmd), s.cmd id = some c → c.kind = .copy →
    ((c.fault ≠ none ∨ c.units ≤ u ∨ u ∈ c.done) → exec (.copyUnit id u) s = .next s) ∧
    (c.fault = none → u < c.units → u ∉ c.done → c.poison = false → ∀ core off, (unitEnds c u).1 = .scratch core off →
      off % 4 = 0 → (scratchBytes s core off 128).2 = false →
      (∀ core' off', c.reduce = 0 → (unitEnds c u).2 = .scratch core' off' → off' % 4 = 0 →
        ∃ s', exec (.copyUnit id u) s = .next s' ∧ { s' with cores := s.cores, cmds := s.cmds } = s ∧
          s'.cmd id = some { c with done := c.done ++ [u] } ∧ (∀ j, j ≠ id → s'.cmd j = s.cmd j) ∧
          (scratchBytes s' core' off' 128) = ((scratchBytes s core off 128).1, false) ∧
          (∀ a, a < off' ∨ off' + 128 ≤ a → Sparse.get 0#8 (s'.core core').scratch a = Sparse.get 0#8 (s.core core').scratch a) ∧
          ∀ j, j ≠ core' → s'.core j = s.core j) ∧
      (∀ va pa attr s1 tag, c.reduce = 0 → c.block < noBlock → (unitEnds c u).2 = .global va →
        dstPlace s (coreOfTeam c.team) c.ctx c.mode va = (s1, .ok (pa, attr)) →
        pa + 128 ≤ hbmTop → pa % 128 = 0 → (s1.core (coreOfTeam c.team)).tagOf c.ctx = some tag →
        (s1.core (coreOfTeam c.team)).ringUsed + 4 ≤ ringSize →
        ∃ s' new, exec (.copyUnit id u) s = .next s' ∧ s'.home = s1.home ∧ s'.cmd id = some { c with done := c.done ++ [u] } ∧
          (s'.core (coreOfTeam c.team)).log = (s1.core (coreOfTeam c.team)).log ++ new ∧ new.length = 4 ∧
          (s'.core (coreOfTeam c.team)).tail tag = (s1.core (coreOfTeam c.team)).tail tag + 4 ∧
          ∀ j e, new[j]? = some e → e.ctx = tag ∧ e.pos = (s1.core (coreOfTeam c.team)).tail tag + j ∧ e.chunk = pa / 32 + j ∧
            e.mask = BitVec.allOnes 32 ∧ e.cmd = some id ∧ e.eng = true ∧ e.pub = false ∧
            ∀ m, m < 32 → entryByte e m = ((scratchBytes s core off 128).1).getD (32 * j + m) 0#8) ∧
      (∀ va pa attr, c.reduce ∈ [1, 2, 4, 5, 8, 9] → c.block < noBlock → c.releasedReduce = true → c.seq = none → NoEntries s → (unitEnds c u).2 = .global va →
        (∀ j, j < 32 → dstPlace s (coreOfTeam c.team) c.ctx c.mode (va + 4 * j) = (s, .ok (pa + 4 * j, attr))) → pa + 128 ≤ hbmTop → pa % 128 = 0 →
        s.home.poison = [] →
        ∃ s', exec (.copyUnit id u) s = .next s' ∧ s'.cmd id = some { c with done := c.done ++ [u] } ∧ s'.cores = s.cores ∧
          (∀ j, j < 32 → memNumber s'.home.byte (pa + 4 * j) 4 =
            reduced c.reduce (memNumber s.home.byte (pa + 4 * j) 4) (numberOf (scratchBytes s core (off + 4 * j) 4).1)) ∧
          ∀ a, a < pa ∨ pa + 128 ≤ a → s'.home.byte a = s.home.byte a))) ∧
  ∀ (s : State) (id : Nat) (c : Cmd), s.cmd id = some c → c.kind = .copy ∨ c.kind = .gather →
    (c.fault = none → c.done.length < c.units → exec (.copyComplete id) s = .next s) ∧
    ∀ t b n o tag, c.fault = none → c.units ≤ c.done.length → s.team c.team = some t → Idle t → t.block = c.block → s.block c.block = some b →
      c.block < noBlock → c.barrier = some n → c.op = some o.num → t.ops = [o] → o.vDest = [] → o.sDest = [] → o.dirty = [] →
      (s.core (coreOfTeam c.team)).tagOf c.ctx = some tag → t.wait = none →
      ∃ s' b' u, exec (.copyComplete id) s = .next s' ∧ s'.cmd id = none ∧ (∀ j, j ≠ id → s'.cmd j = s.cmd j) ∧
        s'.block c.block = some b' ∧ (b'.barrier n).pend = (b.barrier n).pend - 1 ∧
        (∀ m, b'.tile m = if m ∈ c.tiles then { b.tile m with state := if c.fill then 2#2 else 0#2, eng := false } else b.tile m) ∧
        (∀ i, (s'.core (coreOfTeam c.team)).locks.find i = if i ∈ c.locks then none else (s.core (coreOfTeam c.team)).locks.find i) ∧
        s'.team c.team = some u ∧ u.ops = [] ∧
        (∀ f, o.flag = some f → Sparse.get 0 u.flags (16 * o.depth + f) = Sparse.get 0 t.flags (16 * o.depth + f) - 1) ∧
        ((∃ va, c.dst = .global va) → c.reduce = 0 → c.stamp = none → ∀ e ∈ (s'.core (coreOfTeam c.team)).log, e.cmd = some id → e.ctx = tag →
          e.pub = true)

/-- R180–R190, R294, R368, R369: `RESERVATION_GRANT` grants the reservation that the arbiter puts first, with its effect: `MZ` zeroes its rows,
`ACCWR` writes the captured pairs and `ACCWR.F` folds into the elements, `ACCRD` leaves hi and lo for its operation, `MLDW` of a tile
fills its slot, `MMA.OVW` writes (dot, +0) in the rows of its mask, where nothing was stored to the tile since the issue; with none that may be granted nothing happens.
`RESERVATION_RETIRE` frees a granted entry and lowers its flag, where nothing was stored to its tile since the grant; `RESERVATION_PROMOTE` promotes one that has waited 4,096 cycles. -/
def Obligations.ReservationEvents : Prop :=
  (∀ (s : State) (cl : Nat), (∀ q ∈ (s.cluster cl).table, ¬ MayGrant s cl q.2) → exec (.reservationGrant cl) s = .next s) ∧
  (∀ (s : State) (cl e : Nat) (r : Reservation) (b : Block), NextGrant s cl e r → s.block r.block = some b → (s.core r.core).accOpen = [] →
    (r.kind = .mz → ∃ s', exec (.reservationGrant cl) s = .next s' ∧ Grants s s' cl e r ∧ s'.home = s.home ∧
      ∀ row col, col < 128 → element s' r.core b row col = if r.opA ≤ row ∧ row < r.opA + r.opB then 0#64 else element s r.core b row col) ∧
    (r.kind = .accwr → (r.data.map (·.1)).Nodup → r.opB < 128 → ∃ s', exec (.reservationGrant cl) s = .next s' ∧ Grants s s' cl e r ∧ s'.home = s.home ∧
      (∀ x ∈ r.data, element s' r.core b (r.opA + x.1) r.opB = x.2.2.1 ++ x.2.1) ∧
      ∀ row col, col < 128 → (∀ x ∈ r.data, ¬ (row = r.opA + x.1 ∧ col = r.opB)) → element s' r.core b row col = element s r.core b row col) ∧
    (r.kind = .accwrF → (r.data.map (·.1)).Nodup → r.opB < 128 → ∃ s', exec (.reservationGrant cl) s = .next s' ∧ Grants s s' cl e r ∧ s'.home = s.home ∧
      (∀ x ∈ r.data, let old := element s r.core b (r.opA + x.1) r.opB
        let y := df32Fold (old.extractLsb' 0 32) (old.extractLsb' 32 32) x.2.1
        element s' r.core b (r.opA + x.1) r.opB = y.2 ++ y.1) ∧
      ∀ row col, col < 128 → (∀ x ∈ r.data, ¬ (row = r.opA + x.1 ∧ col = r.opB)) → element s' r.core b row col = element s r.core b row col) ∧
    (∀ t n o, r.kind = .accrd → r.op = some n → s.team r.team = some t → t.ops = [o] → o.num = n → (s.core r.core).accPoison = [] → r.opB < 128 →
      ∃ s' u o', exec (.reservationGrant cl) s = .next s' ∧ Grants s s' cl e r ∧ s'.cores = s.cores ∧ s'.home = s.home ∧ s'.team r.team = some u ∧
        u.ops = [o'] ∧ { o' with vDest := o.vDest } = o ∧
        ∀ l, l < 1024 → r.mask.getLsbD l = true →
          (vKey r.mode r.vd l, (element s r.core b (r.opA + l) r.opB).extractLsb' 0 32, false) ∈ o'.vDest ∧
            (vKey r.mode (r.vd + 1) l, (element s r.core b (r.opA + l) r.opB).extractLsb' 32 32, false) ∈ o'.vDest) ∧
    (∀ t n o, r.kind = .accrdF → r.op = some n → s.team r.team = some t → t.ops = [o] → o.num = n → (s.core r.core).accPoison = [] → r.opB < 128 →
      ∃ s' u o', exec (.reservationGrant cl) s = .next s' ∧ Grants s s' cl e r ∧ s'.cores = s.cores ∧ s'.home = s.home ∧ s'.team r.team = some u ∧
        u.ops = [o'] ∧
        ∀ l, l < 1024 → r.mask.getLsbD l = true →
          let x := element s r.core b (r.opA + l) r.opB
          (vKey r.mode r.vd l, (df32Round .rne (x.extractLsb' 0 32) (x.extractLsb' 32 32)).1, false) ∈ o'.vDest) ∧
    (r.kind = .mma → r.word / 32 % 2 = 0 → Unstored s b r → (localRange s b r.tile.laddr r.tile.extent).isSome → r.tile.rows ≤ 128 → r.tile.layout = 0 → r.tile.fmt = 1 → r.tile.cols = 128 →
      ∀ w n, r.slot = some n → (s.cluster cl).slots.find (2 * r.block + n) = some w → w.fmt = 1 →
      Sparse.wf 0#8 w.bytes = true →
      ∃ s', exec (.reservationGrant cl) s = .next s' ∧ Grants s s' cl e r ∧ s'.home = s.home ∧
        ∀ row col, col < 128 → element s' r.core b row col =
          if r.opA ≤ row ∧ row < r.opA + r.tile.rows ∧ r.mask.getLsbD (row - r.opA) = true then
            let act := fun (k : Nat) => FpFmt.bf16.read (numberOf (engineBytes s b (r.tile.laddr + (row - r.opA) * r.tile.pitch + 2 * k) 2).1)
            let wt := fun (k : Nat) => FpFmt.bf16.read ((Sparse.get 0#8 w.bytes (1024 + 256 * k + 2 * col)).toNat +
              256 * (Sparse.get 0#8 w.bytes (1025 + 256 * k + 2 * col)).toNat)
            (0#32 : Word) ++ dotResult ((List.range 128).map fun k => Fp.mul (act k) (wt k))
          else element s r.core b row col) ∧
    (r.kind = .mldwTile → Unstored s b r → (∀ q ∈ (s.cluster cl).table, q ≠ (e, r) → q.2.image s ≠ r.image s) → r.tile.layout = 0 → r.tile.rows = 128 →
      r.tile.cols = 128 → r.tile.fmt = 1 → (localRange s b r.tile.laddr r.tile.extent).isSome →
      ∀ n, r.slot = some n → ∃ s' w, exec (.reservationGrant cl) s = .next s' ∧ Grants s s' cl e r ∧ s'.cores = s.cores ∧ s'.home = s.home ∧
        (s'.cluster cl).slots.find (2 * r.block + n) = some w ∧ w.fmt = 1 ∧
        (∀ j, j ≠ 2 * r.block + n → (s'.cluster cl).slots.find j = (s.cluster cl).slots.find j) ∧
        ∀ k j m, k < 128 → j < 128 → m < 2 → Sparse.get 0#8 w.bytes (1024 + 256 * k + 2 * j + m) =
          ((engineBytes s b (r.tile.laddr + k * r.tile.pitch + 2 * j + m) 1).1).getD 0 0#8)) ∧
  (∀ (s : State) (cl e : Nat) (r : Reservation) (t : Team), (s.cluster cl).table.find e = some r →
    (r.granted = false → exec (.reservationRetire cl e) s = .next s) ∧
    (∀ o, r.granted = true → r.op = some o.num → s.team r.team = some t → t.block = r.block → Idle t → t.ops = [o] → o.dirty = [] → o.past = false →
      (∀ p b, (s.cluster cl).passes.find e = some p → s.block r.block = some b → p.image = (tileImage s b r.tile).1) →
      (∀ d ∈ o.vDest ++ o.sDest, d.2.2 = false) →
      ∃ s' u, exec (.reservationRetire cl e) s = .next s' ∧ (s'.cluster cl).table.find e = none ∧
        (∀ j, j ≠ e → (s'.cluster cl).table.find j = (s.cluster cl).table.find j) ∧ s'.home = s.home ∧ s'.cores = s.cores ∧
        s'.team r.team = some u ∧ u.ops = [] ∧
        (∀ f, o.flag = some f → Sparse.get 0 u.flags (16 * o.depth + f) = Sparse.get 0 t.flags (16 * o.depth + f) - 1) ∧
        ((o.vDest.map (·.1)).Nodup → ∀ d ∈ o.vDest, Sparse.get 0#32 u.regs.v d.1 = d.2.1))) ∧
  ∀ (s : State) (cl e : Nat) (r : Reservation), (s.cluster cl).table.find e = some r →
    ∃ s', exec (.reservationPromote cl e) s = .next s' ∧ { s' with clusters := s.clusters } = s ∧
      (s'.cluster cl).table.find e = some (if r.issued + 4096 ≤ s.cycles then { r with promoted := true } else r) ∧
      ∀ j, j ≠ e → (s'.cluster cl).table.find j = (s.cluster cl).table.find j

namespace Sys2Proof.Claims

open Sys2Proof.Machine

/-! ### Events of the fabric -/

/-- From `s` to `s'` one event sets out for the recorder: its 32 bytes are those of R246, SSEQ counts on for its source, and nothing else of
the recorder changes. -/
def Emits (s s' : State) (ucls unit type : Nat) (cid : BitVec 64) (payload : Nat) : Prop :=
  let key := 256 * ucls + unit
  let n := (s.recorder.sseq.find key).getD 0
  ∃ r : Record, s'.recorder = { s.recorder with transit := s.recorder.transit ++ [r], sseq := s.recorder.sseq.put key (n + 1) } ∧
    r.cls = type / 256 ∧ r.bytes.length = 32 ∧ numberOf (r.bytes.take 8) = s.time % 2 ^ 64 ∧
    ((r.bytes.getD 8 0#8).toNat / 16 = type / 256 % 16) ∧ numberOf ((r.bytes.drop 10).take 1) = ucls % 256 ∧
    numberOf ((r.bytes.drop 11).take 1) = unit % 256 ∧ numberOf ((r.bytes.drop 12).take 2) = type % 2 ^ 16 ∧
    numberOf ((r.bytes.drop 14).take 2) = n % 2 ^ 16 ∧ numberOf ((r.bytes.drop 16).take 8) = cid.toNat ∧
    numberOf ((r.bytes.drop 24).take 8) = payload % 2 ^ 64

/-- The packet answers `p` as KIND `k`: on CONTROL, to its sender, with the fields that tell it from others (R234, log entry 31). -/
def answerTo (s : State) (k : Nat) (p : Packet) : Packet :=
  { Packet.blank s.dev p.src 2 p.vc k p.cid with
    efmt := p.kind, nelem := p.cls, offset := p.offset, oseq := p.oseq, chunk := p.chunk, rank := p.rank, sent := s.time }

/-- A link on which no packet waits, after it is given one: the packet's flits are sent, and kept for a replay, where its channel has credit
for them and the retry buffer room; else the packet waits (R226). The first credit is the model's, log entry 30. -/
def given (l : Link) (bs : List Byte) (entry : Option Nat) : Link :=
  let n := (flitsOf bs).length
  let b := numberOf ((bs.drop 4).take 1)
  let ch := if b % 4 = 2 then 4 else b / 4 % 4
  let credit := (l.free.find ch).getD 4096
  if n ≤ credit ∧ l.retry.length + n ≤ 512 then { l with retry := l.retry ++ flitsOf bs, free := l.free.put ch (credit - n) }
  else { l with queue := [(bs, entry)] }

/-- Port `port`, on which no packet waits, is given the answer of KIND `k` to `p`; nothing else goes out of a port. -/
def AnswersOn (s s' : State) (port k : Nat) (p : Packet) : Prop :=
  (s.link port).queue = [] → ∀ q, s'.link q = if q = port then given (s.link port) (answerTo s k p).bytes none else s.link q

/-- What pieces of memory hold after bytes are laid over them in turn; none for an address they leave alone. -/
def laidOver : List (Nat × Nat) → List Byte → Nat → Option Byte
  | [], _, _ => none
  | x :: xs, bs, a =>
    match laidOver xs (bs.drop x.2) a with
    | some b => some b
    | none => if x.1 ≤ a ∧ a < x.1 + x.2 then bs[a - x.1]? else none

/-- A packet that a hub takes as one for this device: a good header, at most 4,096 bytes, not performed yet (R228, R234). -/
def TakesPacket (s : State) (port : Nat) (bs : List Byte) : Prop :=
  port < 16 ∧ badHeader bs = false ∧ (Packet.ofBytes bs).payload.length ≤ 4096 ∧ (Packet.ofBytes bs).dst = s.dev ∧
    (Packet.ofBytes bs).identity ∉ s.hub.performed

/-- The event by which a whole packet arrives. -/
def PacketEvent (port : Nat) (bs : List Byte) (i : Instr) : Prop :=
  let p := Packet.ofBytes bs
  (p.cls = 2 ∧ p.kind ≤ 5 ∧ i = .controlPacket port bs) ∨ (p.kind = 6 ∧ i = .ackPacket port bs) ∨ (p.kind = 7 ∧ i = .nackPacket port bs false) ∨
    (p.cls ≤ 1 ∧
      (p.kind = 0 ∧ i = .putDataPacket port bs ∨ p.kind = 1 ∧ i = .putsDataPacket port bs ∨ p.kind = 2 ∧ i = .signalPacket port bs ∨
        p.kind = 3 ∧ i = .getRequestPacket port bs ∨ p.kind = 4 ∧ i = .getResponsePacket port bs 0 ∨ p.kind = 5 ∧ i = .collectiveChunk port bs))

/-- The event by which data for a window arrives: `PUT_DATA_PACKET` or `PUTS_DATA_PACKET`. -/
def DataEvent (port : Nat) (bs : List Byte) (i : Instr) : Prop :=
  let p := Packet.ofBytes bs
  p.cls ≤ 1 ∧ (p.kind = 0 ∧ i = .putDataPacket port bs ∨ p.kind = 1 ∧ i = .putsDataPacket port bs)

/-- The place of a packet in its ORDERED stream: how far ahead of the next to be performed (R234). -/
def aheadBy (s : State) (p : Packet) : Nat :=
  (p.oseq + 2 ^ 32 - (s.hub.oseqIn.find (4 * p.src + p.vc)).getD 0) % 2 ^ 32

/-- A packet is performed when it arrives: UNORDERED, or its stream's next with nothing held ahead. -/
def InTurn (s : State) (p : Packet) : Prop := p.cls = 1 ∨ p.cls = 0 ∧ aheadBy s p = 0 ∧ s.hub.ahead = []

/-- The stream goes on past a packet that was performed. -/
def StreamPast (s s' : State) (p : Packet) : Prop :=
  ∀ k, (s'.hub.oseqIn.find k).getD 0 =
    if p.cls = 0 ∧ k = 4 * p.src + p.vc then ((s.hub.oseqIn.find k).getD 0 + 1) % 2 ^ 32 else (s.hub.oseqIn.find k).getD 0

/-- The replay entry that an answer on a port names: that of the packet with its identity; of a collective one, on its link (R237, R241;
the fields in which an answer carries them are the model's, log entry 31). -/
def Names (port : Nat) (p : Packet) (r : Replay) : Prop :=
  let q := Packet.ofBytes r.bytes
  q.cid = p.cid ∧ q.kind = p.efmt ∧ q.cls = p.nelem ∧ q.offset = p.offset ∧ q.oseq = p.oseq ∧ q.chunk = p.chunk ∧ q.rank = p.rank ∧
    (q.kind = 5 → r.port = port)

/-- No collective packet is held for its turn on a link. -/
def NoneHeld (s : State) : Prop := ∀ x ∈ s.hub.ahead, (Packet.ofBytes x.2.1).kind ≠ 5

/-- A collective packet is performed when it arrives: UNORDERED, or its link's next with nothing held ahead (R234, R241; the streams are by
link, log entry 32). -/
def InLinkTurn (s : State) (port : Nat) (p : Packet) : Prop :=
  p.cls = 1 ∧ NoneHeld s ∨ p.cls = 0 ∧ s.hub.ahead = [] ∧ p.oseq = (s.hub.oseqIn.find (4 * (65536 + port) + p.vc)).getD 0

/-- The combining ops on words (R240, R243): elementwise, over the inputs one after another. -/
def combinedWord (op : Nat) (xs : List Word) : Word :=
  match xs with
  | [] => 0#32
  | x :: rest =>
    rest.foldl (fun a b =>
      if op = 8 then BitVec.ofNat 32 (a.toNat + b.toNat)
      else BitVec.ofNat 32 (FpFmt.f32.minmax (op == 3) false a.toNat b.toNat).1) x

end Sys2Proof.Claims

open Sys2Proof Sys2Proof.Machine Sys2Proof.Claims

/-- R228, R233, R235, R237: `PACKET_SEND` of a `PUT`, `PUTS`, `GET` or a served `GET` with a packet to send puts it in the replay store of the
ORDERED port of its route, with its own offset and OSEQ, and gives it to the link; without room it waits. `RETRANSMIT` sends a packet again
50 µs after its last transmission, on the next port, and records it; sooner, or while it still waits on a link, it does nothing. -/
def Obligations.PacketsLeave : Prop :=
  (∀ (s : State) (id : Nat) (c : Cmd) (row : RouteRow), s.cmd id = some c → c.cls = 0 → s.hub.routes.find c.dev = some row → row.fixed < 16 →
    (s.link row.fixed).queue = [] → c.fault = none → c.localDone = false → c.done.length + 1 < c.units →
    let i := c.done.length
    let base := { Packet.blank s.dev c.dev c.cls c.vc 0 c.cid with key := c.key, win := c.win, sent := s.time }
    let sends := fun (s1 s' : State) (q : Packet) (pois : List Nat) =>
      s'.hub.replay.find s1.hub.nextReplay = some ⟨row.fixed, q.bytes, some id, c.cid, s.time, 0, pois⟩ ∧
        (∀ j, j ≠ s1.hub.nextReplay → s'.hub.replay.find j = s1.hub.replay.find j) ∧ s'.hub.nextReplay = s1.hub.nextReplay + 1 ∧
        (∀ j, s'.link j = if j = row.fixed then given (s1.link j) q.bytes (some s1.hub.nextReplay) else s1.link j) ∧
        s'.home = s1.home ∧ s'.cores = s1.cores ∧ s'.teams = s1.teams ∧ s'.blocks = s1.blocks
    (∀ core off, (c.kind = .put ∨ c.kind = .puts) → c.src = .scratch core off → 4096 * (i + 1) ≤ c.bytes →
      (∀ j, j < 128 → (scratchBytes s core (off + 4096 * i + 32 * j) 32).2 = false) →
      let payload := (List.range 128).flatMap fun j => (scratchBytes s core (off + 4096 * i + 32 * j) 32).1
      let q := { base with kind := if c.kind = .puts then 1 else 0, offset := c.offset + 4096 * i, oseq := (c.oseq + i) % 2 ^ 32, payload := payload }
      (storeRoom s row.fixed (storedSize q.bytes) = true →
        ∃ s', exec (.packetSend id) s = .next s' ∧ sends s s' q [] ∧
          s'.cmd id = some { c with done := c.done ++ [i], unacked := c.unacked + 1 }) ∧
      (storeRoom s row.fixed (storedSize { q with sent := 0 }.bytes) = false → exec (.packetSend id) s = .next s)) ∧
    (∀ bs, c.kind = .serve → c.payload = bs → 4096 * (i + 1) ≤ c.bytes → bs.length = c.bytes →
      let q := { base with kind := 4, offset := c.offset + 4096 * i, oseq := (c.oseq + i) % 2 ^ 32, payload := (bs.drop (4096 * i)).take 4096 }
      storeRoom s row.fixed (storedSize q.bytes) = true →
        ∃ s' pois, exec (.packetSend id) s = .next s' ∧ sends s s' q pois ∧
          (∀ g, g ∈ pois ↔ g < 128 ∧ 128 * i + g ∈ c.index) ∧
          s'.cmd id = some { c with done := c.done ++ [i], unacked := c.unacked + 1 })) ∧
  (∀ (s : State) (id : Nat) (c : Cmd) (row : RouteRow), s.cmd id = some c → c.cls = 0 → s.hub.routes.find c.dev = some row → row.fixed < 16 →
    c.kind = .get → c.fault = none →
    (c.signalled = true → exec (.packetSend id) s = .next s) ∧
    (c.signalled = false →
      let q := { Packet.blank s.dev c.dev 0 c.vc 3 c.cid with
        key := c.key, win := c.win, sent := s.time, offset := c.offset, oseq := c.oseq % 2 ^ 32, nsrc := c.bytes / 128 }
      storeRoom s row.fixed (storedSize q.bytes) = true →
        ∃ s', exec (.packetSend id) s = .next s' ∧
          s'.hub.replay.find s.hub.nextReplay = some ⟨row.fixed, q.bytes, some id, c.cid, s.time, 0, []⟩ ∧
          s'.cmd id = some { c with signalled := true, unacked := c.unacked + 1 })) ∧
  ∀ (s : State) (n : Nat) (r : Replay), s.hub.replay.find n = some r → r.port < 16 →
    (s.time < r.sent + 50000 → exec (.retransmit n) s = .next s) ∧
    ((∃ kl ∈ s.hub.links, ∃ x ∈ kl.2.queue, x.2 = some n) → exec (.retransmit n) s = .next s) ∧
    (r.sent + 50000 ≤ s.time → ∀ row : RouteRow, (Packet.ofBytes r.bytes).kind ≠ 5 → s.hub.routes.find (Packet.ofBytes r.bytes).dst = some row →
      r.port = row.fixed → r.tries = 0 → (∀ kl ∈ s.hub.links, ∀ x ∈ kl.2.queue, x.2 ≠ some n) →
      let port := row.alts.getD 0 row.fixed
      (s.link port).queue = [] →
      ∃ s', exec (.retransmit n) s = .next s' ∧ s'.hub.replay.find n = some { r with sent := s.time, tries := 1 } ∧
        (∀ j, j ≠ n → s'.hub.replay.find j = s.hub.replay.find j) ∧
        s'.link port = given (s.link port) r.bytes (some n) ∧ Emits s s' 9 port 0x401 r.cid (port + 2 ^ 16))

/-- R226: `FLIT_RECEIVE` discards a flit whose CRC is bad and asks for it again, and every later one until the replay begins; a good one joins
the packet under way, and the one that makes it whole has the packet arrive. What the far end has acknowledged leaves the retry buffer, and
credit it gives back is free again. `LINK_RETRAIN` retrains after 16 failures in a row, records it and loses no flit. (The CRC's convention is
the model's, log entry 6; so is how acknowledgements and credit come with a flit, log entry 30.) -/
def Obligations.FlitsArrive : Prop :=
  (∀ (s : State) (port : Nat) (flit : List (BitVec 8)) (crc : BitVec 32) (replay : Bool) (acked : Nat) (credits : List Nat), port < 16 →
    flit.length = 64 →
    let l := s.link port
    let s0 := linkNews s port acked credits
    let event := Instr.flitReceive port flit crc replay acked credits
    let heard := l.replayWanted = false ∨ replay = true
    let got := l.partials ++ flit
    let whole := 128 + (numberOf ((got.drop 6).take 2) + 63) / 64 * 64
    (¬ heard → exec event s = .next s) ∧
    (heard → crc32 flit ≠ crc → exec event s = .next (s.setLink port { l with bad := l.bad + 1, replayWanted := true })) ∧
    (heard → crc32 flit = crc → (got.length < 128 ∨ got.length < whole) →
      exec event s = .next (s0.setLink port { s0.link port with bad := 0, replayWanted := false, partials := got })) ∧
    (heard → crc32 flit = crc → 128 ≤ got.length → whole ≤ got.length → ∀ i s2, PacketEvent port (got.take whole) i →
      exec i (s0.setLink port { s0.link port with bad := 0, replayWanted := false, partials := [] }) = .next s2 → exec event s = .next s2) ∧
    (l.queue = [] → { s0 with hub := { s0.hub with links := s.hub.links } } = s ∧
      ∃ free, (∀ q, s0.link q = if q = port then { l with retry := l.retry.drop acked, free := free } else s.link q) ∧
        ∀ ch, (free.find ch).getD 4096 = (l.free.find ch).getD 4096 + credits.getD ch 0)) ∧
  ∀ (s : State) (port : Nat), port < 16 →
    ((s.link port).bad < 16 → exec (.linkRetrain port) s = .next s) ∧
    (16 ≤ (s.link port).bad → ∃ s', exec (.linkRetrain port) s = .next s' ∧
      (∀ q, s'.link q = if q = port then { s.link port with bad := 0 } else s.link q) ∧ Emits s s' 9 port 0x404 0 port ∧
      { s' with hub := s.hub, recorder := s.recorder } = s)

/-- R228, R234, R238: `PUT_DATA_PACKET` and `PUTS_DATA_PACKET` in turn and passing the window check write the payload where the check put it,
and no other byte, and are acknowledged; a refused or a VOID one writes nothing, and the refused one is answered NACK and recorded. A repeat is
acknowledged and not performed again; an ORDERED one ahead of its turn is held. A bad header drops the packet with a record.
(By which port an answer goes back is the model's, log entry 31.) -/
def Sys2Proof.Claims.DataPackets : Prop :=
  ∀ (s : State) (port : Nat) (bs : List Byte) (i : Instr), DataEvent port bs i → NoEntries s →
    let p := Packet.ofBytes bs
    (port < 16 → badHeader bs = true → ∃ s', exec i s = .next s' ∧ Emits s s' 9 port 0x400 p.cid (2 + 256 * min port 15) ∧
      { s' with recorder := s.recorder } = s) ∧
    (TakesPacket s port bs → InTurn s p → p.void = true →
      ∃ s', exec i s = .next s' ∧ s'.home = s.home ∧ s'.hub.performed = p.identity :: s.hub.performed ∧ AnswersOn s s' port 6 p ∧ StreamPast s s' p) ∧
    (TakesPacket s port bs → InTurn s p → p.void = false → ∀ ps ctx launch,
      checkWindow s p.win p.key 1 p.offset p.payload.length .store = .ok ps ctx launch → (∀ x ∈ ps, whereIs x.1 = .hbm) →
      ∃ s', exec i s = .next s' ∧ (∀ a, s'.home.byte a = (laidOver ps p.payload a).getD (s.home.byte a)) ∧ s'.cores = s.cores ∧
        s'.blocks = s.blocks ∧ s'.hub.performed = p.identity :: s.hub.performed ∧ AnswersOn s s' port 6 p ∧ StreamPast s s' p) ∧
    (TakesPacket s port bs → InTurn s p → p.void = false → ∀ tr,
      checkWindow s p.win p.key 1 p.offset p.payload.length .store = .refused tr →
      ∃ s', exec i s = .next s' ∧ s'.home = s.home ∧ s'.hub.performed = s.hub.performed ∧ AnswersOn s s' port 7 p ∧
        Emits s s' 9 port 0x402 p.cid (p.win + if tr then 256 else 0) ∧ StreamPast s s' p) ∧
    (port < 16 → badHeader bs = false → p.payload.length ≤ 4096 → p.dst = s.dev → p.identity ∈ s.hub.performed →
      ∃ s', exec i s = .next s' ∧ AnswersOn s s' port 6 p ∧ { s' with hub := s.hub } = s) ∧
    (TakesPacket s port bs → p.cls = 0 → 0 < aheadBy s p → aheadBy s p < 2 ^ 31 →
      (∀ x ∈ s.hub.ahead, (Packet.ofBytes x.2.1).identity ≠ p.identity) →
      exec i s = .next (s.modHub fun h => { h with ahead := h.ahead ++ [(port, bs, 0)] }))

/-- R230, R238: the window check refuses an entry that is not valid, lacks a permission, has another key or a shorter length, and an access
that the window's context does not translate (said of the translation, not of the entry); what it lets pass it cuts into pieces, in order,
that cover the access. -/
def Sys2Proof.Claims.WindowChecks : Prop :=
  ∀ (s : State) (win key perm offset n : Nat) (kind : AccessKind), perm = 1 ∨ perm = 2 ∨ perm = 4 ∨ perm = 8 →
    s.hub.wtbase.toNat + 32 * win + 32 ≤ hbmTop →
    let field := fun (o k : Nat) => memNumber s.home.byte (s.hub.wtbase.toNat + 32 * win + o) k
    let lets := (field 18 1 / 128 = 1 ∧ field 18 1 / perm % 2 = 1) ∧ field 16 2 = key ∧ offset + n ≤ field 8 8
    (¬ lets → checkWindow s win key perm offset n kind = .refused false) ∧
    (lets → checkWindow s win key perm offset n kind ≠ .refused false) ∧
    (∀ ps ctx launch, checkWindow s win key perm offset n kind = .ok ps ctx launch →
      ctx = field 28 2 ∧ launch.toNat = field 20 8 ∧ (ps.map (·.2)).sum = n ∧
        ∀ j x, ps[j]? = some x → let va := field 0 8 + offset + ((ps.take j).map (·.2)).sum
          0 < x.2 ∧ ∃ t, walk s ctx va .s kind = .ok t ∧ x.1 = t.pa + (va - t.base))

/-- R228, R230, R234, R238: data for a window, performed or refused. -/
def Obligations.DataArrives : Prop := Claims.DataPackets ∧ Claims.WindowChecks

/-- R173, R235, R236: `SIGNAL_PACKET` that passes the check is an external arrival on its barrier: held while its launch or its block is not
there, dropped with a record past NBLOCKS or after the launch's end, applied to a resident block. `GET_REQUEST_PACKET` is served
with what the home slices hold; `GET_RESPONSE_PACKET` writes its units where the `GET` asked for them. All are acknowledged. -/
def Sys2Proof.Claims.OtherPackets : Prop :=
  ∀ (s : State) (port : Nat) (bs : List Byte), NoEntries s → TakesPacket s port bs →
    let p := Packet.ofBytes bs
    p.cls = 1 → p.void = false →
    (p.kind = 2 → (∀ tr, checkWindow s p.win p.key 4 p.offset 0 .load = .refused tr →
        ∃ s', exec (.signalPacket port bs) s = .next s' ∧ AnswersOn s s' port 7 p ∧ s'.blocks = s.blocks ∧ s'.hub.arrivals = s.hub.arrivals) ∧
      ∀ ps ctx launch, checkWindow s p.win p.key 4 p.offset 0 .load = .ok ps ctx launch →
        ((∀ kl ∈ s.launches, kl.2.id ≠ launch) → s.hub.arrivals.length < 4096 →
          ∃ s', exec (.signalPacket port bs) s = .next s' ∧ s'.hub.arrivals = s.hub.arrivals ++ [⟨launch, p.sigblk, p.sigbar, p.cid⟩] ∧
            AnswersOn s s' port 6 p ∧ s'.blocks = s.blocks) ∧
        (∀ k l, s.launches = [(k, l)] → l.id = launch → l.accepted ≠ 0 → l.ended = false → l.nblocks ≤ p.sigblk →
          ∃ s', exec (.signalPacket port bs) s = .next s' ∧ s'.hub.arrivals = s.hub.arrivals ∧ s'.blocks = s.blocks ∧
            Emits s s' 7 0 0x003 p.cid (p.sigbar + 32 + 2 ^ 16 * p.sigblk)) ∧
        (∀ k l bk b, s.launches = [(k, l)] → l.id = launch → l.accepted ≠ 0 → l.ended = false → l.determ = false → p.sigblk < l.nblocks →
          s.blocks = [(bk, b)] → b.launch = k → b.index = p.sigblk →
          (b.barrier p.sigbar).ext ≠ 1 → 0 < (b.barrier p.sigbar).ext ∨ (b.barrier p.sigbar).pend ≠ 0 → -32768 < (b.barrier p.sigbar).ext →
          ∃ s' b', exec (.signalPacket port bs) s = .next s' ∧ AnswersOn s s' port 6 p ∧ s'.block bk = some b' ∧
            (∀ m, m ≠ p.sigbar → b'.barrier m = b.barrier m) ∧ ∃ acq,
            b'.barrier p.sigbar = { b.barrier p.sigbar with ext := (b.barrier p.sigbar).ext - 1, openAcq := acq })) ∧
    (p.kind = 3 → 0 < p.nsrc → ∀ ps ctx launch, checkWindow s p.win p.key 2 p.offset (128 * p.nsrc) .load = .ok ps ctx launch →
      (∀ x ∈ ps, whereIs x.1 = .hbm) → s.home.poison = [] →
      ∃ s' c, exec (.getRequestPacket port bs) s = .next s' ∧ s'.cmd s.hub.nextCmd = some c ∧ c.kind = .serve ∧ c.cid = p.cid ∧ c.dev = p.src ∧
        c.cls = 1 ∧ c.vc = p.vc ∧ c.offset = p.offset ∧ c.bytes = 128 * p.nsrc ∧ c.done = [] ∧ c.units = (128 * p.nsrc + 4095) / 4096 ∧
        c.payload = ps.flatMap (fun x => (List.range x.2).map fun j => s.home.byte (x.1 + j)) ∧ s'.home = s.home ∧ AnswersOn s s' port 6 p) ∧
    (p.kind = 4 → ∀ id c core off pois, s.cmds = [(id, c)] → c.kind = .get → c.cid = p.cid → c.dst = .scratch core off → c.lineUnits = c.units →
      c.reduce = 0 → c.fault = none → c.done = [] → c.offset ≤ p.offset → p.offset % 128 = 0 → c.offset % 128 = 0 → off % 4 = 0 →
      p.payload.length % 128 = 0 → p.payload.length / 128 < c.units → (p.offset - c.offset) / 128 + p.payload.length / 128 ≤ c.units →
      ∃ s', exec (.getResponsePacket port bs pois) s = .next s' ∧ AnswersOn s s' port 6 p ∧ s'.home = s.home ∧
        s'.cmd id = some { c with done := (List.range (p.payload.length / 128)).map ((p.offset - c.offset) / 128 + ·) } ∧
        ∀ a, Sparse.get 0#8 (s'.core core).scratch a =
          let o := off + (p.offset - c.offset)
          if o ≤ a ∧ a < o + p.payload.length then p.payload.getD (a - o) 0#8 else Sparse.get 0#8 (s.core core).scratch a)

/-- R237, R238: `ACK_PACKET` frees the packet it names from its replay store; `NACK_PACKET` does so too and faults the packet's command with
`FAB_KEY`; one that names no packet changes nothing. `CONTROL_PACKET`, a watchdog's notice (R256), is recorded as LATE_NOTICE.
(By which port an answer goes back is the model's, log entry 31.) -/
def Sys2Proof.Claims.Answers : Prop :=
  (∀ (s : State) (port : Nat) (bs : List Byte), port < 16 → badHeader bs = false → (Packet.ofBytes bs).payload.length ≤ 4096 →
    (Packet.ofBytes bs).dst = s.dev → s.hub.waiting = [] → NoneHeld s →
    let p := Packet.ofBytes bs
    ((∀ kr ∈ s.hub.replay, ¬ Names port p kr.2) → (p.kind = 6 → exec (.ackPacket port bs) s = .next s) ∧
      ∀ tr, p.kind = 7 → exec (.nackPacket port bs tr) s = .next s) ∧
    (∀ n r id c, (n, r) ∈ s.hub.replay → Names port p r → (∀ kr ∈ s.hub.replay, Names port p kr.2 → kr = (n, r)) → r.cmd = some id → s.cmd id = some c →
      c.kind ≠ .puts → c.kind ≠ .get →
      (p.kind = 6 → ∃ s', exec (.ackPacket port bs) s = .next s' ∧ s'.hub.replay.find n = none ∧
        (∀ j, j ≠ n → s'.hub.replay.find j = s.hub.replay.find j) ∧ s'.home = s.home ∧ s'.blocks = s.blocks ∧
        s'.cmd id = if c.localDone = true ∧ c.unacked - 1 = 0 then none else some { c with unacked := c.unacked - 1 }) ∧
      ∀ tr, p.kind = 7 → c.localDone = false → ∃ s', exec (.nackPacket port bs tr) s = .next s' ∧ s'.hub.replay.find n = none ∧
        s'.cmd id = some { c with unacked := c.unacked - 1, fault := some (16, c.pc, tr) })) ∧
  ∀ (s : State) (port : Nat) (bs : List Byte), port < 16 → badHeader bs = false → (Packet.ofBytes bs).payload.length ≤ 4096 →
    (Packet.ofBytes bs).dst = s.dev → (Packet.ofBytes bs).cls = 2 → (Packet.ofBytes bs).kind ≤ 5 →
    let p := Packet.ofBytes bs
    ∃ s', exec (.controlPacket port bs) s = .next s' ∧ { s' with recorder := s.recorder } = s ∧
      Emits s s' 8 0 0x006 p.cid (p.collid + 2 ^ 32 * p.chunk + 2 ^ 48 * p.rank)

/-- R173, R235–R238: the other packets, and the answers. -/
def Obligations.SignalsAndAnswers : Prop := Claims.OtherPackets ∧ Claims.Answers

/-- R240–R243, R256: `COLLECTIVE_CHUNK` whose first entry is FWD goes out of its port without that entry; the first input of a set opens a slot
and waits there; the last combines: the result of MAXF, MINF and SUMI is elementwise, has the least rank, the sum of the NSRCs and the
remaining route, and frees the slot. What the engine may not act on is dropped with its reason. `WATCHDOG` fires once for a slot, when its
time is up. (The OSEQ of what leaves, its source and the order of a link's ORDERED packets are the model's, log entry 32.) -/
def Obligations.CollectiveEvents : Prop :=
  (∀ (s : State) (port : Nat) (bs : List Byte), port < 16 → badHeader bs = false → (Packet.ofBytes bs).payload.length ≤ 4096 →
    s.hub.waiting = [] → (Packet.ofBytes bs).identity ∉ s.hub.performed → (Packet.ofBytes bs).kind = 5 → InLinkTurn s port (Packet.ofBytes bs) →
    let p := Packet.ofBytes bs
    (∀ reason, chunkReason p = some reason →
      ∃ s', exec (.collectiveChunk port bs) s = .next s' ∧ { s' with recorder := s.recorder, hub := { s'.hub with oseqIn := s.hub.oseqIn } } = s ∧
        Emits s s' 8 0 0x400 p.cid (reason + 256 * min port 15)) ∧
    (∀ e rest, p.route = e :: rest → chunkReason p = none → e / 4096 = 1 →
      let q := Packet.ofBytes { p with route := rest }.bytes
      let out := { q with src := s.dev, oseq := if q.cls = 0 then (s.hub.oseqOut.find (4 * (65536 + e / 256 % 16) + q.vc)).getD 0 else 0, sent := s.time }
      storeRoom s (e / 256 % 16) (storedSize { p with route := rest }.bytes) = true →
      ∃ s', exec (.collectiveChunk port bs) s = .next s' ∧ s'.hub.performed = p.identity :: s.hub.performed ∧
        s'.hub.replay.find s.hub.nextReplay = some ⟨e / 256 % 16, out.bytes, none, out.cid, s.time, 0, []⟩ ∧ s'.home = s.home) ∧
    (∀ e rest, p.route = e :: rest → chunkReason p = none → e / 4096 ∈ [2, 3, 4, 5, 7, 8] → 0 < e / 16 % 16 → s.hub.slots = [] → NoEntries s →
      s.hub.cmtbase.toNat + 16384 ≤ hbmTop →
      ∃ s' x, exec (.collectiveChunk port bs) s = .next s' ∧ s'.hub.slots.find 0 = some x ∧ x.collid.toNat = p.collid % 2 ^ 32 ∧
        x.chunk.toNat = p.chunk % 2 ^ 16 ∧ x.entry.toNat = e % 2 ^ 16 ∧ x.fired = false ∧ x.opened = s.time ∧ x.inputs = [(port, bs)] ∧
        (x.mapped = false → x.tmo = 2000 ∧ x.root = 0xFFFF) ∧ s'.hub.performed = p.identity :: s.hub.performed ∧ AnswersOn s s' port 6 p) ∧
    (∀ e rest n x, p.route = e :: rest → chunkReason p = none → e / 4096 ∈ [3, 4, 8] → e % 16 = 0 → s.hub.slots = [(n, x)] →
      x.collid.toNat = p.collid → x.chunk.toNat = p.chunk → x.entry.toNat = e → x.inputs.length = e / 16 % 16 → x.fired = false → x.origins = [] →
      p.collid < 2 ^ 32 → 1 ≤ x.inputs.length →
      let ins := x.inputs.map (fun i => Packet.ofBytes i.2) ++ [p]
      (∀ q ∈ ins, q.nelem = p.nelem ∧ q.route = e :: rest ∧ q.cls = p.cls ∧ q.kind = 5) → p.payload.length = 4 * p.nelem →
      storeRoom s (e / 256 % 16) (storedSize { p with route := rest }.bytes) = true →
      ∃ s' r, exec (.collectiveChunk port bs) s = .next s' ∧ s'.hub.slots.find n = none ∧
        s'.hub.replay.find s.hub.nextReplay = some r ∧ r.port = e / 256 % 16 ∧ r.cmd = none ∧
        let out := Packet.ofBytes r.bytes
        out.src = s.dev ∧ out.kind = 5 ∧ out.route = rest ∧ out.nelem = p.nelem ∧ out.nsrc = (ins.map (·.nsrc)).sum % 2 ^ 32 ∧
          (∃ q ∈ ins, out.rank = q.rank) ∧ (∀ q ∈ ins, out.rank ≤ q.rank) ∧ out.payload.length = 4 * p.nelem ∧
          ∃ order : List Packet, order.Perm ins ∧
            ∀ j, j < p.nelem → payloadWord out.payload j = combinedWord (e / 4096) (order.map fun q => payloadWord q.payload j))) ∧
  ∀ (s : State) (n : Nat) (x : Slot), s.hub.slots.find n = some x →
    ((x.fired = true ∨ s.time < x.opened + 1000000 * x.tmo) → exec (.watchdog n) s = .next s) ∧
    (x.fired = false → x.opened + 1000000 * x.tmo ≤ s.time → x.root = 0xFFFF ∨ x.root = s.dev →
      let late := if x.mapped then (x.ranks.filter fun r => !(x.inputs.any fun i => (Packet.ofBytes i.2).rank == r)).headD 0xFFFF else 0xFFFF
      ∃ s' cid, exec (.watchdog n) s = .next s' ∧ s'.hub.slots.find n = some { x with fired := true } ∧
        (∀ j, j ≠ n → s'.hub.slots.find j = s.hub.slots.find j) ∧ s'.home = s.home ∧
        Emits s s' 8 0 0x005 cid (x.collid.toNat + 2 ^ 32 * x.chunk.toNat + 2 ^ 48 * late))

namespace Sys2Proof.Claims

open Sys2Proof.Machine

/-! ### Events of the walker and of placement -/

/-- A launch of which the walker may place blocks: it has not ended, nor has its instance been stopped (R225). -/
def Placeable (s : State) (l : Launch) : Prop := l.ended = false ∧ ∀ x, s.instanceOf l = some x → x.2.stopped = false

/-- A core that takes work (R32, R203, R281). -/
def TakesWork (s : State) (core : Nat) : Prop :=
  (s.cluster (core / 4)).moving = none ∧ (s.core core).newmap = none ∧ s.module.tripped = false

/-- No evicted block and no lost handle asks for the walker. -/
def QuietHub (s : State) : Prop := s.hub.evicted = [] ∧ s.hub.dead = [] ∧ NoEntries s

/-- Offers for `cs` have been raised, behind those to come, and nothing else of the walker's has changed but since when evicted blocks may
run (R200, R210). -/
def Offers (s s' : State) (cs : List Nat) : Prop :=
  (∃ more, s'.hub.offers = s.hub.offers ++ more) ∧ (∀ c ∈ cs, c ∈ s'.hub.offers) ∧
    { s'.hub with offers := s.hub.offers, evicted := s.hub.evicted } = s.hub

/-- The queue of a core's cluster holds the launch `n`, and nothing else. -/
def OnlyRecord (s : State) (core n : Nat) (l : Launch) : Prop :=
  (s.queue (s.cluster (core / 4)).queue).records = [n] ∧ s.launch n = some l ∧ Placeable s l ∧ QuietHub s

/-- A governed queue is starved (R203). -/
def Starved (s : State) (q : Nat) : Prop := (s.queue q).hi.toNat ≠ 0 ∧ (s.queue q).hi.toNat < occupancy s q

/-- A cluster may go to queue `r` (R203). -/
def MayDonate (s : State) (r c : Nat) : Prop :=
  let x := s.cluster c
  let d := s.queue x.queue
  ((d.hi.toNat ≠ 0 ∧ occupancy s x.queue < d.lo.toNat) ∨ occupancy s x.queue = 0) ∧ x.queue ≠ r ∧
    d.mincl < (clustersOf s x.queue).length ∧ x.moving = none ∧ ∀ t, x.movedAt = some t → t + 50000 ≤ s.time

/-- The priority class for a slack in nanoseconds (R201). -/
def classOf (now : Nat) (l : Launch) : Nat :=
  let slack := (l.deadline.toNat : Int) - now
  min l.classMax
    (if l.deadline = BitVec.allOnes 64 then 0
      else if slack ≤ 0 then 3 else if slack ≤ 100000 then 2 else if slack ≤ 1000000 then 1 else 0)

/-- A record of queue `q` that the eviction check serves (R210, log entry 38). -/
def Starving (s : State) (q n : Nat) : Prop :=
  q < 64 ∧ n ∈ (s.queue q).records ∧ ∃ l, s.launch n = some l ∧ Placeable s l ∧ classOf s.time l = 3 ∧ l.readyAt + 50000 ≤ s.time

/-- The bytes of a slice record, as memory shows them from `a` on (R199). -/
def ShowsSlice (byte : Nat → BitVec 8) (a : Nat) (l : Launch) : Prop :=
  let f := fun (o n : Nat) => memNumber byte (a + o) n
  f 0 8 = l.id.toNat ∧ f 8 4 = l.nblocks % 2 ^ 32 ∧ f 12 4 = l.next % 2 ^ 32 ∧ f 16 8 = l.deadline.toNat ∧ f 24 8 = l.budget.toNat ∧
    f 32 8 = l.argva.toNat ∧ f 40 8 = l.handle.toNat ∧ f 48 8 = l.seed.toNat ∧ f 56 1 = l.classMax % 256 ∧ f 57 1 = l.origin % 256 ∧ f 58 6 = 0

end Sys2Proof.Claims

open Sys2Proof Sys2Proof.Machine Sys2Proof.Claims

/-- R39, R88, R130, R132, R172, R177, R199, R200, R281: `CORE_OFFER`, of the offer whose turn it is, places the next block of the queue's
record on a core that has a place for it: the block, its zeroed allocation, accumulator rows and barriers, its teams at code address 0 with
their argument pair, NEXT, in the ring too, and the event; a core that takes no work places nothing. `CARVE_CHANGE` gives an idle core the carve-out its deciding record needs and empties L1.
`LANEMAP_APPLY` puts XLANEMAP in effect once no block is resident. -/
def Obligations.Placement : Prop :=
  (∀ (s : State) (core : Nat), QuietHub s →
    (s.hub.offers.head? ≠ some core → exec (.coreOffer core) s = .next s) ∧
    (¬ TakesWork s core → exec (.carveChange core) s = .next s ∧
      (s.hub.offers.head? = some core → (∀ q n, ¬ Starving s q n) →
        exec (.coreOffer core) s = .next (s.modHub fun h => { h with offers := h.offers.drop 1 })))) ∧
  (∀ (s : State) (core n : Nat) (l : Launch) (p : Spot), OnlyRecord s core n l → TakesWork s core → l.cores = false → l.grouping = false →
    l.queue = (s.cluster (core / 4)).queue → l.handle = 0 → (l.shape s).fitsIdle = true → (l.shape s).carve = (s.core core).carve →
    holdFor s core l = none → spotOn s core l.ctx (l.shape s) [] none = some p → (l.shape s).teams ≤ (freeContexts s core).length →
    (∀ a ∈ s.hub.arrivals, ¬ (a.launch = l.id ∧ a.block = l.next)) → (l.next + 1 < l.nblocks ∨ s.hub.walk = []) →
    s.hub.offers.head? = some core → (∀ q m, m ≠ n → ¬ Starving s q m) →
    ∃ s' b l', exec (.coreOffer core) s = .next s' ∧
      (∀ a, (∀ base, (s.queue l.queue).base = some base → a < base + 64 * l.place + 12 ∨ base + 64 * l.place + 16 ≤ a) →
        s'.home.byte a = s.home.byte a) ∧
      (∀ base, (s.queue l.queue).base = some base → memNumber s'.home.byte (base + 64 * l.place + 12) 4 = (l.next + 1) % 2 ^ 32) ∧
      s'.block (4 * core + p.slot) = some b ∧ b.launch = n ∧ b.index = l.next ∧ b.core = core ∧ b.size = 2048 * l.alloc ∧ b.base = p.base ∧
      b.tiles = [] ∧ b.regrouped = false ∧ b.exited = 0#16 ∧ (∀ m, m < 16 → b.barrier m = Barrier.fresh s.time) ∧
      (∀ k, k ≠ 4 * core + p.slot → s'.block k = s.block k) ∧
      s'.launch n = some l' ∧ l'.next = l.next + 1 ∧ l'.cls = classOf s.time l ∧ { l' with next := l.next, cls := l.cls, readyAt := l.readyAt } = l ∧
      (s'.queue l.queue).records = (if l.next + 1 < l.nblocks then [n] else []) ∧
      (∀ a, p.base ≤ a ∧ a < p.base + b.size → Sparse.get 0#8 (s'.core core).scratch a = 0#8) ∧
      (∀ a, a < p.base ∨ p.base + b.size ≤ a → Sparse.get 0#8 (s'.core core).scratch a = Sparse.get 0#8 (s.core core).scratch a) ∧
      (∀ row col, col < 128 → row < l.accRows → Sparse.get 0#64 (s'.core core).acc (128 * (p.accBase + row) + col) = 0#64) ∧
      Emits s s' 7 0 0x300 0#64 (l.id.toNat % 2 ^ 32 + 2 ^ 32 * l.next) ∧
      (∀ k t, s.team k = some t → ∃ t', s'.team k = some t' ∧
        { t' with monitor := t.monitor, tbase := t.tbase } = t ∧ (k ∉ p.moves.map (·.1) → t'.tbase = t.tbase)) ∧
      ∀ j, j < (l.shape s).teams → ∃ k u, k / 16 = core ∧ s.team k = none ∧ s'.team k = some u ∧ u.block = 4 * core + p.slot ∧ u.number = j ∧
        u.words = (l.shape s).lanes / 32 ∧ u.pc = 0 ∧ u.mode = .u ∧ u.depth = 0 ∧ u.stack = [] ∧ u.lclk = 0 ∧ u.run = none ∧ u.ops = [] ∧ u.wait = none ∧
        u.k0 = laneMask (32 * u.words) ∧ sreg u 2 = l.argva.extractLsb' 0 32 ∧ sreg u 3 = l.argva.extractLsb' 32 32 ∧
        (∀ r, 6 ≤ r → sreg u r = 0#32) ∧ ∀ r l, vreg u r l = 0#32) ∧
  (∀ (s : State) (core n : Nat) (l : Launch), OnlyRecord s core n l → TakesWork s core → l.queue = (s.cluster (core / 4)).queue →
    (l.shape s).fitsIdle = true → holdFor s core l = none → (∀ kb ∈ s.blocks, kb.2.core ≠ core) →
    ∃ s', exec (.carveChange core) s = .next s' ∧ (s'.core core).carve = (l.shape s).carve ∧ (∀ j, j ≠ core → s'.core j = s.core j) ∧ { s' with cores := s.cores, hub := s.hub } = s ∧
      (if (l.shape s).carve = (s.core core).carve then s' = s
        else Offers s s' [core] ∧ (s'.core core).l1 = [] ∧ { s'.core core with carve := (s.core core).carve, l1 := (s.core core).l1, l1Poison := (s.core core).l1Poison } = s.core core)) ∧
  ∀ (s : State) (core : Nat),
    ((s.core core).newmap = none → exec (.lanemapApply core) s = .next s) ∧
    ∀ v, (s.core core).newmap = some v →
      ((∃ kb ∈ s.blocks, kb.2.core = core) → exec (.lanemapApply core) s = .next s) ∧
      ((∀ kb ∈ s.blocks, kb.2.core ≠ core) →
        ∃ s', exec (.lanemapApply core) s = .next s' ∧ s'.core core = { s.core core with lanemap := v, newmap := none } ∧
          (∀ j, j ≠ core → s'.core j = s.core j) ∧ { s' with cores := s.cores, hub := s.hub } = s ∧ Offers s s' [core])

/-- R201, R203, R210, R224, R225: `GOVERNOR_EVALUATE` marks the lowest cluster that may go for the most starved queue, and one only;
`SLICE_BOUNDARY` moves a marked cluster once its cores hold no block of its old queue; `CLASS_UPDATE` sets every class from its slack.
`EVICTION_CHECK` with no launch starving changes nothing, and with one has the blocks it chose leave. `MONITOR_SPURIOUS_WAKE` makes a block
some of whose monitors got no entry runnable every 64 µs. `STOP_TIMEOUT` before the second has passed changes nothing; then the blocks go,
their launches with a failure record.
(Which records the eviction check counts is the model's, log entry 38.) -/
def Obligations.WalkerClock : Prop :=
  (∀ s : State, (∀ q, q < 64 → ¬ Starved s q) → exec .governorEvaluate s = .next s) ∧
  (∀ (s : State) (r : Nat), r < 64 → Starved s r →
    (∀ q, q < 64 → q ≠ r → Starved s q → occupancy s q < occupancy s r ∨ occupancy s q = occupancy s r ∧ r < q) →
    ((∀ c, c < 64 → ¬ MayDonate s r c) → exec .governorEvaluate s = .next s) ∧
    ∀ c, c < 64 → MayDonate s r c → (∀ c', c' < c → ¬ MayDonate s r c') →
      exec .governorEvaluate s = .next (s.modCluster c fun x => { x with moving := some r })) ∧
  (∀ (s : State) (cl : Nat), let x := s.cluster cl
    (x.moving = none → exec (.sliceBoundary cl) s = .next s) ∧
    ∀ r, x.moving = some r →
      let old := fun (b : Block) => b.core / 4 = cl ∧ ∃ l, s.launch b.launch = some l ∧ l.queue = x.queue
      ((∃ kb ∈ s.blocks, old kb.2) → exec (.sliceBoundary cl) s = .next s) ∧
      ((∀ kb ∈ s.blocks, ¬ old kb.2) → ∃ s', exec (.sliceBoundary cl) s = .next s' ∧
        s'.cluster cl = { x with queue := r, moving := none, movedAt := some s.time } ∧ (∀ c, c ≠ cl → s'.cluster c = s.cluster c) ∧
        { s' with clusters := s.clusters, recorder := s.recorder, hub := s.hub } = s ∧ Offers s s' ((List.range 4).map (4 * cl + ·)) ∧
        Emits s s' 7 0 0x303 0#64
          (cl + 2 ^ 8 * x.queue + 2 ^ 16 * r + 2 ^ 22 * (occupancy s x.queue % 2 ^ 20) + 2 ^ 42 * (occupancy s r % 2 ^ 20)))) ∧
  (∀ s : State, exec .classUpdate s = .next { s with launches := s.launches.map fun kl => (kl.1, { kl.2 with cls := classOf s.time kl.2 }) }) ∧
  (∀ s : State, QuietHub s → (∀ q n, ¬ Starving s q n) → exec .evictionCheck s = .next s) ∧
  (∀ (s : State) (q n : Nat) (l : Launch), QuietHub s → Starving s q n → s.launch n = some l → (s.queue q).records.filter (· == n) = [n] →
    (∀ q' n', Starving s q' n' → q' = q ∧ n' = n) →
    (evictionFor s q (.place n) = none → exec .evictionCheck s = .next s) ∧
    ∀ ks, evictionFor s q (.place n) = some ks → (s.blocks.map (·.1)).Nodup →
      ∃ s', exec .evictionCheck s = .next s' ∧ { s' with blocks := s.blocks } = s ∧
        (∀ k b, s.block k = some b → s'.block k = some (if k ∈ ks then { b with leaving := true } else b)) ∧
        ∀ k ∈ ks, ∀ b, s.block k = some b →
          ∃ l', s.launch b.launch = some l' ∧ l.deadline.toNat < l'.deadline.toNat ∧ b.regrouped = false ∧ b.leaving = false ∧
            (l'.cores = true → ∀ k' b', s.block k' = some b' → b'.launch = b.launch → k' ∈ ks)) ∧
  (∀ (s : State) (ek : Nat) (e : Evicted), s.hub.evicted.find ek = some e →
    (((∀ m ∈ e.monitors, m.1 ∈ e.monEntries) ∨ s.time < e.nextSpur) → exec (.monitorSpuriousWake ek) s = .next s) ∧
    ((∃ m ∈ e.monitors, m.1 ∉ e.monEntries) → e.nextSpur ≤ s.time → exec (.monitorSpuriousWake ek) s =
      .next (s.modHub fun h => { h with evicted := h.evicted.put ek { e with spurious := true, nextSpur := e.nextSpur + 64000 } }))) ∧
  ∀ (s : State) (tag : Nat) (i : Instance), s.hub.instances.find tag = some i →
    ((∀ x ∈ i.stopping, s.time < x.1 + 1000000000) → exec (.stopTimeout tag) s = .next s) ∧
    ((∃ x ∈ i.stopping, x.1 + 1000000000 ≤ s.time) → ∀ kb ∈ s.blocks, ∀ l,
      s.launch kb.2.launch = some l → l.tag = tag → l.graph = i.graph →
      ∃ s', exec (.stopTimeout tag) s = .next s' ∧ s'.block kb.1 = none ∧
        ∃ l', s'.launch kb.2.launch = some l' ∧ l'.failure.isSome = true ∧ { l' with failure := l.failure } = l)

/-- R159, R209, R219, R220, R222, R223: `BLOCK_EVICT` of a block that is to leave and has drained writes its image and takes block and teams
off the core, their unpublished entries becoming its detached log; one that may no longer be evicted stays. `BLOCK_RESUME` puts the evicted block an offer takes
back with its index, registers, allocation and entries. -/
def Obligations.EvictionAndReturn : Prop :=
  (∀ (s : State) (bk : Nat) (b : Block) (l : Launch) (tag off pa attr : Nat) (i : Instance) (s1 s2 : State), s.block bk = some b →
    s.launch b.launch = some l → l.cores = false → s.instanceOf l = some (tag, i) → s.hub.instances.find tag = some i →
    (∀ ki ∈ s.hub.instances, ki.2.stopping = []) →
    (b.leaving = false → i.stopped = false → exec (.blockEvict bk) s = .next s) ∧
    (b.leaving = true → evictable s bk b = false →
      ∃ s', exec (.blockEvict bk) s = .next s' ∧ s'.block bk = some { b with leaving := false } ∧ { s' with blocks := s.blocks } = s) ∧
    (b.leaving = true → evictable s bk b = true → drainedForEviction s bk b = true →
      (∀ kt ∈ s.teams, kt.2.block = bk → teamWakes s kt.1 kt.2 = false) → (s.teams.map (·.1)).Nodup → imageSpot i (imageSize b) = some off → (s.core b.core).banks = [] →
      (s.core b.core).holds = [] → detachRoom s1 bk b (s.tagOn b.core l.ctx) = true → (∀ q ∈ (s.cluster (b.core / 4)).table, q.2.block ≠ bk) →
      spillWrite b.core l.ctx ((blockImage s bk b l).length + 1) s (i.spillVa + off) (blockImage s bk b l) = (s1, true) →
      translateNow s1 b.core l.ctx (i.spillVa + off) .s .store = (s2, .ok (pa, attr)) →
      (∀ kc ∈ s.cmds, kc.2.block ≠ bk) →
      ∃ s' e, exec (.blockEvict bk) s = .next s' ∧ s'.block bk = none ∧ (∀ k, k ≠ bk → s'.block k = s1.block k) ∧
        (∀ k t, s.team k = some t → t.block = bk → s'.team k = none) ∧
        s'.hub.evicted.find s.hub.nextEvict = some e ∧ e.launch = b.launch ∧ e.index = b.index ∧ e.core = b.core ∧ e.offset = off ∧ e.image = pa ∧
        e.bytes = imageSize b ∧ e.barriers = b.barriers ∧ e.evicted = s.time ∧ e.spurious = false ∧
        (s'.core b.core).log.length = (s1.core b.core).log.length ∧
        ((∀ x ∈ (s'.core b.core).log, x.det ≠ some s.hub.nextEvict) → s'.home = s1.home) ∧
        ∀ (j : Nat) (x : LogEntry), (s1.core b.core).log[j]? = some x → ∃ y, (s'.core b.core).log[j]? = some y ∧
          let mine := x.ctx = s.tagOn b.core l.ctx ∧ x.pub = false ∧ x.det = none ∧ ∃ k t, s.team k = some t ∧ t.block = bk ∧ k % 16 = x.tctx
          (¬ mine → y = x) ∧ (mine → { y with tctx := x.tctx } = { x with rgn := false, spl := true, det := some s.hub.nextEvict }))) ∧
  (∀ (s : State) (ek core : Nat), readyOffers s = s → s.hub.offers.head? ≠ some core ∨ offerCore (tookOffer s) core = none →
    exec (.blockResume ek core) s = .next s) ∧
  ∀ (s s1 : State) (ek core : Nat) (e : Evicted) (l : Launch) (p : Spot) (tag : Nat) (i : Instance) (xs : List (List Byte × Bool)),
    readyOffers s = s → s.hub.offers.head? = some core → offerCore (tookOffer s) core = some (.resume ek, s1) →
    resumeAt (tookOffer s) ek core e l p = some s1 → s.instanceOf l = some (tag, i) →
    (imageChunks core l.ctx (i.spillVa + e.offset) ((e.bytes + 31) / 32) s).2 = some xs → e.spurious = false →
    let x := l.shape s
    let field := fun (n o k : Nat) => fieldAt ((chunkSpan xs (71808 + x.alloc + 1024 * x.accRows + n * teamSize x.lanes x.vregs)
      (teamSize x.lanes x.vregs)).flatMap (·.1)) o k
    (∃ s', exec (.blockResume ek core) s = .next s' ∧ { s' with blocks := s1.blocks } = s1 ∧
      ∀ k b, s1.block k = some b → ∃ b', s'.block k = some b' ∧ { b' with leaving := b.leaving } = b) ∧ s1.hub.evicted.find ek = none ∧ Emits s s1 7 0 0x302 0#64 (l.id.toNat % 2 ^ 32 + 2 ^ 32 * e.index) ∧
      (∃ b, s1.block (4 * core + p.slot) = some b ∧ b.launch = e.launch ∧ b.index = e.index ∧ b.core = core ∧ b.base = p.base ∧ b.size = x.alloc ∧
        b.firstAcq = none) ∧
      (x.teams ≤ (freeContexts s core).length → p.tbases.length = x.teams → x.lanes ≤ 1024 → x.vregs ≤ 128 → ∀ n, n < x.teams →
        ∃ k u, k / 16 = core ∧ s.team k = none ∧ s1.team k = some u ∧ u.block = 4 * core + p.slot ∧ u.number = field n 5 1 ∧ u.pc = field n 0 4 ∧
          u.mode = .u ∧ u.run = none ∧ (∀ r, 0 < r → r < 64 → sreg u r = BitVec.ofNat 32 (field n (128 + 4 * r) 4)) ∧
          ∀ r j, r < x.vregs → j < x.lanes →
            vreg u r j = BitVec.ofNat 32 (field n (11520 + 64 * x.lanes + 4 * (r * x.lanes + j)) 4))

/-- R198–R200, R204, R207, R345, R399: `SPAWN_ACCEPT` makes the spawned launch's record, with the command's deadline, argument block and handle,
and puts it in its queue and the queue's ring; `PASS_RECORD` hands a handle to a launch accepted but not placed, or keeps it for one not accepted yet.
`FALLBACK` of a hold whose time has not come changes nothing; then it writes the spill record and frees the hold. -/
def Obligations.WalkerOrder : Prop :=
  (∀ s : State, s.hub.walk = [] → (∀ kq ∈ s.hub.queues, kq.2.waiters = []) →
    exec .spawnAccept s = .next s ∧ exec .passRecord s = .next s) ∧
  (∀ (s : State) (seq id : Nat) (c : Cmd) (t : Team) (l0 : Launch) (tag : Nat) (i : Instance), s.hub.dead = [] → NoEntries s →
    (∀ kq ∈ s.hub.queues, kq.2.waiters = []) → s.cmd id = some c → c.fault = none → c.localDone = false → s.team c.team = some t → Idle t →
    t.wait = none → s.launch c.launch = some l0 → s.instanceOf l0 = some (tag, i) →
    let handle := c.index.getD 0 0
    let node := c.index.getD 1 0
    let inum := c.index.getD 2 0
    (s.hub.walk = [⟨seq, .spawn id⟩] → s.hub.passed = [] → s.hub.nextLaunch ≠ c.launch →
      let made := makeLaunch s i node inum 1 (BitVec.ofNat 64 (c.index.getD 3 0)) (BitVec.ofNat 64 (c.index.getD 4 0)) (BitVec.ofNat 64 handle)
      made.queue = c.dev → (s.queue c.dev).records.length < (s.queue c.dev).size →
      ∃ s' l, exec .spawnAccept s = .next s' ∧ s'.launch s.hub.nextLaunch = some l ∧ l.id = launchId i.tag node inum ∧
        l.deadline = BitVec.ofNat 64 (c.index.getD 3 0) ∧ l.argva = BitVec.ofNat 64 (c.index.getD 4 0) ∧ l.handle = BitVec.ofNat 64 handle ∧
        l.accepted = s.hub.nextLaunch + 1 ∧ l.next = 0 ∧ l.ended = false ∧
        (s'.queue c.dev).records = (s.queue c.dev).records ++ [s.hub.nextLaunch] ∧ s'.hub.walk = [] ∧
        ∀ base, c.block < noBlock → (s.queue c.dev).base = some base → ShowsSlice s'.home.byte (base + 64 * l.place) l) ∧
    (s.hub.walk = [⟨seq, .pass id⟩] →
      let target := launchId l0.tag node inum
      ((∀ kl ∈ s.launches, ¬ (kl.2.id = target ∧ kl.2.accepted ≠ 0)) →
        ∃ s', exec .passRecord s = .next s' ∧ s'.hub.passed = s.hub.passed ++ [(target, BitVec.ofNat 64 handle)] ∧ s'.hub.walk = [] ∧
          s'.launches = s.launches) ∧
      ∀ n l, s.launches.filter (fun kl => kl.2.id == target && kl.2.accepted != 0) = [(n, l)] → s.launch n = some l → l.ended = false →
        l.next = 0 → l.handle = 0 →
        ∃ s', exec .passRecord s = .next s' ∧ s'.launch n = some { l with handle := BitVec.ofNat 64 handle } ∧ s'.hub.walk = [])) ∧
  ∀ (s : State) (core slot : Nat),
    ((s.core core).holds.find slot = none → exec (.fallback core slot) s = .next s) ∧
    ∀ h, (s.core core).holds.find slot = some h →
      ((h.exitAt = none ∨ ∃ t, h.exitAt = some t ∧ s.time < t + s.hub.holdTime) → exec (.fallback core slot) s = .next s) ∧
      ∀ t s1 va, h.exitAt = some t → t + s.hub.holdTime ≤ s.time → spillHold s core h = (s1, some va) →
        let old := BitVec.ofNat 64 (2 ^ 62 + core * 2 ^ 54 + slot * 2 ^ 48 + h.serial % 2 ^ 48)
        (∀ kl ∈ s1.launches, kl.2.handle = old → kl.2.next = 0) →
        ∃ s', exec (.fallback core slot) s = .next s' ∧ (s'.core core).holds = (s1.core core).holds.drop slot ∧
          ((∀ kq ∈ s1.hub.queues, kq.2.base = none) → s'.home = s1.home) ∧
          ∀ k l, s1.launch k = some l → s'.launch k = some (if l.handle = old then { l with handle := globalHandle va } else l)

namespace Sys2Proof.Claims

open Sys2Proof.Machine

/-! ### Host commands -/

/-- Field of `n` bytes at `o` of a record. -/
def field (r : List Byte) (o n : Nat) : Nat := numberOf ((r.drop o).take n)

/-- The device reads the record `r` next, with a good CRC (R18, R19): the channel is open, the ring holds a record and the completion ring has
room; no accepted command has a sequence number not given out. -/
def Reads (s : State) (r : List Byte) : Prop :=
  let m := s.module
  m.channel = true ∧ m.sqHead ≠ m.sqTail ∧ 1024 ≤ m.cqSize ∧ m.cqTail < m.cqSize ∧ m.cqHead < m.cqSize ∧ (m.cqTail + 1) % m.cqSize ≠ m.cqHead ∧
    r = (List.range 64).map (fun j => Sparse.get 0#8 m.sq (64 * m.sqHead + j)) ∧ (crc32c (r.take 60)).toNat = field r 60 4 ∧
    ∀ p ∈ m.pending, p.seq < s.journal.next

/-- A checkpoint is being written or read (R17, R25). -/
def Checkpointing (s : State) : Prop := ∃ p ∈ s.module.pending, p.started = true ∧ (field p.bytes 0 1 = 6 ∨ field p.bytes 0 1 = 7)

/-- And it is a command of code `code` that a device out of recovery takes, its turn being now: no checkpoint is being written or read, and
no accepted command waits. -/
def ReadsCommand (s : State) (code : Nat) (r : List Byte) : Prop :=
  Reads s r ∧ field r 0 1 = code ∧ s.module.recovery = false ∧ ¬ Checkpointing s ∧ ∀ p ∈ s.module.pending, p.started = true

/-- Bytes of a record outside HTAG, CRC and the listed operands are zero (R19, R21); INSTANCE may be given if `tagged`. -/
def OnlyOperands (r : List Byte) (tagged : Bool) (used : List (Nat × Nat)) : Prop :=
  ∀ j, 1 ≤ j → j < 60 → ¬ (8 ≤ j ∧ j < 16) → (tagged = true → ¬ (2 ≤ j ∧ j < 4)) → (∀ u ∈ used, ¬ (u.1 ≤ j ∧ j < u.1 + u.2)) → r.getD j 0#8 = 0#8

/-- The journal's entry of sequence `n` reports record `r` (R259). -/
def JournalEntry (s' : State) (n time : Nat) (r : List Byte) (result reason ref : Nat) (arg : List Byte) : Prop :=
  ∃ e, s'.journal.entries.find (n % 4194304) = some e ∧ e.length = 64 ∧ field e 0 8 = n % 2 ^ 64 ∧ field e 8 8 = time % 2 ^ 64 ∧
    field e 16 8 = field r 8 8 ∧ field e 24 8 = ref % 2 ^ 64 ∧ field e 32 1 = field r 0 1 ∧ field e 33 1 = result ∧ field e 34 2 = reason ∧
    field e 36 2 = field r 2 2 ∧ field e 38 2 = 0 ∧ (∀ j, j < 20 → e.getD (40 + j) 0#8 = arg.getD j 0#8) ∧
    field e 60 4 = (crc32c (e.take 60)).toNat

/-- The completion ring in host memory holds an entry at a place (R20). -/
def RingEntry (s s' : State) (at' n : Nat) (r : List Byte) (result reason value : Nat) (phase : Bool) : Prop :=
  let a := s.module.cqBase.toNat + 32 * at'
  let mem := Sparse.get 0#8 s'.module.hostMem
  memNumber mem a 8 = field r 8 8 ∧ memNumber mem (a + 8) 8 = n % 2 ^ 64 ∧ memNumber mem (a + 16) 1 = field r 0 1 ∧ memNumber mem (a + 17) 1 = result ∧
    memNumber mem (a + 18) 2 = reason ∧ memNumber mem (a + 20) 4 = value % 2 ^ 32 ∧ memNumber mem (a + 24) 7 = 0 ∧
    mem (a + 31) = if phase then 1#8 else 0#8

/-- From `s` to `s'` a record is refused: its slot is read, one journal entry, one completion entry (R19, R20, R258), and nothing else. -/
def Refused (s s' : State) (r : List Byte) (result reason : Nat) : Prop :=
  { s' with module := s.module, journal := s.journal } = s ∧ s'.module.sqHead = (s.module.sqHead + 1) % 4096 ∧ s'.module.pending = s.module.pending ∧
    s'.journal.next = s.journal.next + 1 ∧ JournalEntry s' s.journal.next s.time r result reason 0 [] ∧
    RingEntry s s' s.module.cqTail s.journal.next r result reason 0 s.module.cqPhase ∧ s'.module.cqTail = (s.module.cqTail + 1) % s.module.cqSize

/-- From `s` to `s'` a command is accepted and done: its slot is read, an ACCEPTED and a DONE entry in journal and ring, none left
pending (R20, R258). -/
def Served (s s' : State) (r : List Byte) (arg : List Byte) (value : Nat) : Prop :=
  let n := s.journal.next
  s'.module.sqHead = (s.module.sqHead + 1) % 4096 ∧ s'.module.pending = s.module.pending ∧ s'.journal.next = n + 2 ∧
    JournalEntry s' n s.time r 1 0 0 arg ∧ JournalEntry s' (n + 1) s.time r 2 0 n arg ∧
    RingEntry s s' s.module.cqTail n r 1 0 0 s.module.cqPhase ∧
    RingEntry s s' ((s.module.cqTail + 1) % s.module.cqSize) (n + 1) r 2 0 value
      (if (s.module.cqTail + 1) % s.module.cqSize = 0 then !s.module.cqPhase else s.module.cqPhase) ∧
    s'.module.cqTail = (s.module.cqTail + 2) % s.module.cqSize

/-- From `s` to `s'` a command is accepted and stays pending, at work or, with `started` false, until its turn comes. -/
def Accepted (s s' : State) (r : List Byte) (started : Bool) : Prop :=
  let n := s.journal.next
  s'.module.sqHead = (s.module.sqHead + 1) % 4096 ∧ (∃ q, s'.module.pending = s.module.pending ++ [⟨r, n, s.time, started, q⟩]) ∧ s'.journal.next = n + 1 ∧
    JournalEntry s' n s.time r 1 0 0 [] ∧ RingEntry s s' s.module.cqTail n r 1 0 0 s.module.cqPhase ∧
    s'.module.cqTail = (s.module.cqTail + 1) % s.module.cqSize

/-- `n` bytes of host memory from `a` on lie beside the completion ring. -/
def BesideRing (s : State) (a n : Nat) : Prop := a + n ≤ s.module.cqBase.toNat ∨ s.module.cqBase.toNat + 32 * s.module.cqSize ≤ a

/-- The events by which records of commands that run in sequence are read, with their codes (R16). -/
def Sequenced (code : Nat) (i : Instr) : Prop :=
  (code = 2 ∧ i = .start) ∨ (code = 6 ∧ i = .ckpt) ∨ (code = 7 ∧ i = .restore) ∨ (code = 8 ∧ i = .setseed)

/-- A queue record of a graph is in force nowhere yet in another way, and every node fits: what `START` asks (R196). -/
def Startable (s : State) (r : List Byte) (img : Image) : Prop :=
  s.image (field r 16 4) = some img ∧ img.kind = 2 ∧ (∀ x, s.hub.instances.find (field r 2 2) = some x → x.running = false) ∧
    queuesConflict s img.dpa = false ∧ ∀ n, n < graphNodes s img.dpa → nodeFits s img.dpa n = true

end Sys2Proof.Claims

open Sys2Proof Sys2Proof.Machine Sys2Proof.Claims

/-- R18–R21, R29, R258, R259: with the channel closed, an empty ring or a full completion ring no command event does anything. `BADCMD`
refuses a record with a bad CRC or a code outside 1 to 9; a record of `START`, `CKPT`, `RESTORE`, `SETSEED`, `STOP` or `RESET` with a byte
that must be zero is refused with ARGS: one journal entry and one completion entry, and nothing else. -/
def Obligations.HostRefusals : Prop :=
  (∀ (s : State) (i : Instr),
    i ∈ [Instr.start, .signalArrival, .signalWord, .stop, .reset, .ckpt, .restore, .setseed, .queryIdent, .queryHealth, .queryAttest, .queryEvents,
      .queryCapture, .badcmd] →
    (s.module.channel = false ∨ s.module.sqHead = s.module.sqTail ∨ (s.module.cqTail + 1) % s.module.cqSize = s.module.cqHead % s.module.cqSize) →
    exec i s = .next s) ∧
  (∀ (s : State) (r : List Byte), Reads s r → (field r 0 1 = 0 ∨ 9 < field r 0 1) → ∃ s', exec .badcmd s = .next s' ∧ Refused s s' r 4 0) ∧
  (∀ (s : State) (r : List Byte), Reads s r → 1 ≤ field r 0 1 → field r 0 1 ≤ 9 → exec .badcmd s = .next s) ∧
  (∀ (s : State) (r : List Byte), s.module.channel = true → s.module.sqHead ≠ s.module.sqTail → 1024 ≤ s.module.cqSize →
    s.module.cqTail < s.module.cqSize → s.module.cqHead < s.module.cqSize → (s.module.cqTail + 1) % s.module.cqSize ≠ s.module.cqHead →
    r = (List.range 64).map (fun j => Sparse.get 0#8 s.module.sq (64 * s.module.sqHead + j)) → (crc32c (r.take 60)).toNat ≠ field r 60 4 →
    ∃ s', exec .badcmd s = .next s' ∧ Refused s s' r 4 0) ∧
  (∀ (s : State) (code : Nat) (i : Instr) (r : List Byte), Sequenced code i → ReadsCommand s code r →
    (r.getD 1 0#8 ≠ 0#8 ∨ field r 4 4 ≠ 0 ∨ field r 56 4 ≠ 0 ∨ (code ≠ 2 ∧ field r 2 2 ≠ 0)) → ∃ s', exec i s = .next s' ∧ Refused s s' r 3 8) ∧
  ∀ (s : State) (r : List Byte), Reads s r → (r.getD 1 0#8 ≠ 0#8 ∨ field r 4 4 ≠ 0 ∨ field r 56 4 ≠ 0 ∨ field r 16 8 ≠ 0) →
    (field r 0 1 = 5 → ∃ s', exec .reset s = .next s' ∧ Refused s s' r 3 8) ∧
    (field r 0 1 = 4 → s.module.recovery = false → ∃ s', exec .stop s = .next s' ∧ Refused s s' r 3 8)

/-- R22, R26, R35, R125, R196, R225: what `LOAD`, `START`, `SIGNAL` of both kinds, `STOP` and `SETSEED` do when they are accepted, with their two
journal and completion entries; one that is to run in sequence and comes while a checkpoint is being made is accepted and waits (R17). -/
def Obligations.HostCommands : Prop :=
  (∀ (s : State) (r : List Byte), Reads s r → field r 0 1 = 8 → s.module.recovery = false → OnlyOperands r false [(16, 2), (24, 8)] →
    Checkpointing s → ∃ s', exec .setseed s = .next s' ∧ Accepted s s' r false ∧ { s' with module := s.module, journal := s.journal } = s) ∧
  (∀ (s : State) (r : List Byte), ReadsCommand s 8 r → OnlyOperands r false [(16, 2), (24, 8)] →
    ∃ s', exec .setseed s = .next s' ∧ Served s s' r [] 0 ∧ { s' with contexts := s.contexts, module := s.module, journal := s.journal } = s ∧
      s'.context (field r 16 2) = { s.context (field r 16 2) with xseed := BitVec.ofNat 64 (field r 24 8) } ∧
      ∀ c, c ≠ field r 16 2 → s'.context c = s.context c) ∧
  (∀ (s : State) (r : List Byte), ReadsCommand s 3 r → field r 16 1 = 1 → OnlyOperands r false [(16, 1), (32, 8), (40, 4)] → field r 32 8 % 4 = 0 →
    field r 32 8 + 4 ≤ hbmTop → NoEntries s →
    ∃ s', exec .signalWord s = .next s' ∧ Served s s' r [] 0 ∧ s'.cores = s.cores ∧
      ∀ a, s'.home.byte a = if field r 32 8 ≤ a ∧ a < field r 32 8 + 4 then r.getD (40 + (a - field r 32 8)) 0#8 else s.home.byte a) ∧
  (∀ (s : State) (r : List Byte), ReadsCommand s 3 r → field r 16 1 = 0 → OnlyOperands r true [(20, 2), (22, 4), (26, 4), (30, 1)] →
    field r 30 1 ≤ 15 → s.hub.arrivals.length < 4096 →
    (∀ kl ∈ s.launches, kl.2.id ≠ launchId (field r 2 2) (field r 20 2) (field r 22 4)) →
    ∃ s', exec .signalArrival s = .next s' ∧ Served s s' r [] 0 ∧ { s' with hub := s.hub, module := s.module, journal := s.journal } = s ∧
      s'.hub.arrivals = s.hub.arrivals ++ [⟨launchId (field r 2 2) (field r 20 2) (field r 22 4), field r 26 4, field r 30 1, 0#64⟩]) ∧
  (∀ (s : State) (r : List Byte), Reads s r → field r 0 1 = 4 → s.module.recovery = false → OnlyOperands r true [] →
    ((∀ i, s.hub.instances.find (field r 2 2) = some i → i.running = false) →
      ∃ s', exec .stop s = .next s' ∧ Served s s' r [] 0 ∧ { s' with module := s.module, journal := s.journal } = s) ∧
    ∀ i, s.hub.instances = [(field r 2 2, i)] → i.running = true → i.stopping = [] →
      (∃ kb ∈ s.blocks, ∃ l, s.launch kb.2.launch = some l ∧ l.tag = field r 2 2 ∧ l.graph = i.graph) →
      ∃ s', exec .stop s = .next s' ∧ Accepted s s' r true ∧ { s' with hub := s.hub, module := s.module, journal := s.journal } = s ∧
        s'.hub.instances = [(field r 2 2, { i with stopped := true, stopping := [(s.time, s.journal.next)] })]) ∧
  (∀ (s : State) (r : List Byte) (image : List (BitVec 8)), ReadsCommand s 1 r → field r 28 1 = 1 ∨ field r 28 1 = 3 →
    OnlyOperands r false ([(16, 8), (24, 4), (28, 1), (32, 8)] ++ if field r 28 1 = 1 then [(30, 2), (40, 8)] else []) → field r 16 8 % 64 = 0 →
    image.length = field r 24 4 → 16224 ≤ image.length → field r 32 8 % 65536 = 0 → field r 32 8 + field r 24 4 ≤ hbmTop →
    (∀ x ∈ s.hub.images, field r 32 8 + field r 24 4 ≤ x.2.dpa ∨ x.2.dpa + x.2.size ≤ field r 32 8) → s.hub.images.length < 4096 →
    BesideRing s (field r 16 8) image.length → NoEntries s →
    let body := image.take (image.length - 16224)
    ((∀ k ∈ s.module.imageKeys, Config.slhVerify k.2 body (image.drop (image.length - 16224)) = false) →
      ∃ s', exec (.load image) s = .next s' ∧ s'.hub = s.hub ∧ s'.home = s.home ∧ s'.journal.next = s.journal.next + 1 ∧
        JournalEntry s' s.journal.next s.time r 3 7 0 []) ∧
    ((∃ k ∈ s.module.imageKeys, Config.slhVerify k.2 body (image.drop (image.length - 16224)) = true) → kernelRefusal image (field r 28 1) = none →
      let handle := s.hub.images.freshFrom 0 4096
      ∃ s', exec (.load image) s = .next s' ∧ Served s s' r (leBytes 4 handle ++ (sha256 body).take 16) handle ∧
        s'.hub.images.find handle = some ⟨field r 28 1, field r 32 8, field r 24 4, field r 30 2, BitVec.ofNat 64 (field r 40 8)⟩ ∧
        (∀ h, h ≠ handle → s'.hub.images.find h = s.hub.images.find h) ∧
        (∀ a, s'.home.byte a =
          if field r 32 8 ≤ a ∧ a < field r 32 8 + image.length then image.getD (a - field r 32 8) 0#8 else s.home.byte a) ∧
        (s'.module.meas.find 4).getD (zeroBytes 32) = sha256 ((s.module.meas.find 4).getD (zeroBytes 32) ++ sha256 body))) ∧
  ∀ (s : State) (r : List Byte) (img : Image) (n0 : Nat), ReadsCommand s 2 r → OnlyOperands r true [(16, 4), (20, 2)] → Startable s r img →
    n0 < graphNodes s img.dpa → nodeField s img.dpa n0 16 4 = 0 →
    let tag := field r 2 2
    let seed := (s.context (field r 20 2)).xseed
    ∃ s' x, exec .start s = .next s' ∧ Served s s' r (leBytes 4 (field r 16 4) ++ leBytes 8 seed.toNat) 0 ∧
      (queueRecords s img.dpa = [] → (∀ kq ∈ s.hub.queues, kq.2.base = none) → s'.home = s.home) ∧
      s'.hub.instances.find tag = some x ∧ x.running = true ∧ x.stopped = false ∧ x.graph = field r 16 4 ∧ x.ctx = field r 20 2 ∧ x.seed = seed ∧
      x.start = s.time ∧ x.spills = [] ∧ (∀ n, n < graphNodes s img.dpa → x.counts.find n = some (nodeField s img.dpa n 16 4)) ∧
      ∀ n, n < graphNodes s img.dpa → nodeField s img.dpa n 16 4 = 0 →
        ∃ k l, s'.launch k = some l ∧ l.id = launchId tag n 0 ∧ l.ended = false ∧ l.next = 0 ∧ l.ctx = field r 20 2 ∧ l.seed = seed

/-- R24, R36, R251, R269: each `QUERY` of which the operands are good writes the reply of its selector to the buffer and is done, with the number
of bytes in VALUE; nothing but the module and the journal changes. -/
def Obligations.Queries : Prop :=
  ∀ (s : State) (r : List Byte), Reads s r → field r 0 1 = 9 → field r 24 8 % 64 = 0 →
    let buffer := field r 24 8
    let size := field r 32 4
    let quiet := fun (s' : State) => { s' with module := s.module, journal := s.journal } = s
    let got := fun (s' : State) (o n : Nat) => memNumber (Sparse.get 0#8 s'.module.hostMem) (buffer + o) n
    let byte := fun (s' : State) (o : Nat) => Sparse.get 0#8 s'.module.hostMem (buffer + o)
    BesideRing s buffer size →
    (field r 16 1 = 0 → OnlyOperands r false [(16, 1), (24, 8), (32, 4)] → 80 + Config.certificate.length ≤ size →
      ∃ s', exec .queryIdent s = .next s' ∧ quiet s' ∧ Served s s' r [] (80 + Config.certificate.length) ∧ got s' 0 2 = 0x0960 ∧ got s' 2 2 = 0x00B0 ∧
        got s' 4 2 = 0x0100 ∧ got s' 6 1 = Config.firmwareMajor % 256 ∧ got s' 7 1 = Config.firmwareMinor % 256 ∧
        got s' 8 2 = s.hub.device.toNat ∧ (∀ j, 10 ≤ j → j < 16 → byte s' j = 0#8) ∧
        got s' 64 4 = Config.certificate.length % 2 ^ 32 ∧ ∀ j, j < Config.certificate.length → byte s' (80 + j) = Config.certificate.getD j 0#8) ∧
    (field r 16 1 = 1 → OnlyOperands r false [(16, 1), (24, 8), (32, 4)] → 576 ≤ size →
      ∃ s', exec .queryHealth s = .next s' ∧ quiet s' ∧ Served s s' r [] 576 ∧ got s' 0 8 = s.time % 2 ^ 64 ∧
        (∀ j, j < 104 → got s' (8 + 4 * j) 4 = s.module.temps.getD j 0 % 2 ^ 32) ∧
        (∀ j, j < 14 → got s' (424 + 4 * j) 4 = s.module.rails.getD j 0 % 2 ^ 32) ∧ got s' 480 4 = s.module.clock % 2 ^ 32 ∧
        got s' 484 4 = s.module.powerLimit % 2 ^ 32 ∧ got s' 488 4 = s.module.power % 2 ^ 32 ∧
        got s' 492 1 = (s.home.lost.head?.getD 255) % 256 ∧
        ∀ j, j < 9 → got s' (496 + 8 * j) 8 = (s.module.corrected.find (j + 1)).getD 0 % 2 ^ 64) ∧
    (field r 16 1 = 2 → OnlyOperands r false [(16, 1), (24, 8), (32, 4)] → 16528 ≤ size →
      (∀ j, j < 8 → ((s.module.meas.find j).getD (zeroBytes 32)).length = 32) →
      ∃ s', exec .queryAttest s = .next s' ∧ quiet s' ∧ Served s s' r [] 16528 ∧ got s' 0 2 = 0x0960 ∧
        (∀ j m, j < 8 → m < 32 → byte s' (8 + 32 * j + m) = ((s.module.meas.find j).getD (zeroBytes 32)).getD m 0#8) ∧
        (∀ j, j < 32 → byte s' (264 + j) = Sparse.get 0#8 s.module.hostMem (buffer + j)) ∧ got s' 296 8 = s.time % 2 ^ 64) ∧
    (field r 16 1 = 3 → OnlyOperands r false [(16, 1), (24, 8), (32, 4), (36, 8), (44, 4)] → 1 ≤ field r 44 4 → field r 44 4 ≤ 2 ^ 20 →
      field r 36 8 + field r 44 4 ≤ 796917632 → 32 * field r 44 4 ≤ size → (∀ k x, s.recorder.slots.find k = some x → x.length = 32) →
      ∃ s', exec .queryEvents s = .next s' ∧ quiet s' ∧ Served s s' r [] (32 * field r 44 4) ∧
        ∀ j m, j < field r 44 4 → m < 32 →
          byte s' (32 * j + m) = ((s.recorder.slots.find (field r 36 8 + j)).getD (zeroBytes 32)).getD m 0#8) ∧
    (field r 16 1 = 4 → OnlyOperands r false [(16, 1), (24, 8), (32, 4), (36, 8), (44, 4)] → 1 ≤ field r 44 4 → field r 44 4 ≤ 2 ^ 20 →
      field r 36 8 + field r 44 4 ≤ 134217664 → 64 * field r 44 4 ≤ size → (∀ k x, s.capture.units.find k = some x → x.length = 64) →
      ∃ s', exec .queryCapture s = .next s' ∧ quiet s' ∧ Served s s' r [] (64 * field r 44 4) ∧
        ∀ j m, j < field r 44 4 → m < 64 →
          byte s' (64 * j + m) = ((s.capture.units.find (field r 36 8 + j)).getD (zeroBytes 64)).getD m 0#8)

/-- R17, R25, R225: `CKPT` stops the running instances and writes a header that is not VALID; `CKPT_COMPLETE`, once nothing of them is
resident, writes what HBM holds after it and then VALID; `RESTORE` of a good checkpoint is accepted, and `RESTORE_COMPLETE` brings memory back to
what the checkpoint holds. (Length and layout of the state section are the model's free values, log entry 39.) -/
def Obligations.Checkpoints : Prop :=
  (∀ (s : State) (r : List Byte), ReadsCommand s 6 r → OnlyOperands r false [(16, 1), (24, 8), (40, 8)] → field r 16 1 = 0 →
    field r 24 8 % 4096 = 0 → ckptSize s ≤ field r 40 8 → BesideRing s (field r 24 8) 4096 →
    1 ≤ s.journal.next → (∀ ki ∈ s.hub.instances, ki.2.stopping = []) →
    ∃ s', exec .ckpt s = .next s' ∧ s'.home = s.home ∧ s'.cores = s.cores ∧ s'.teams = s.teams ∧
      memNumber (Sparse.get 0#8 s'.module.hostMem) (field r 24 8) 4 = 0x434B5001 ∧ memNumber (Sparse.get 0#8 s'.module.hostMem) (field r 24 8 + 4) 4 = 0 ∧
      JournalEntry s' s.journal.next s.time r 1 0 0 [] ∧ (∃ q, ⟨r, s.journal.next, s.time, true, q⟩ ∈ s'.module.pending) ∧
      ∀ k i, s.hub.instances.find k = some i → i.running = true → ∃ i', s'.hub.instances.find k = some i' ∧ i'.stopped = true) ∧
  (∀ (s : State) (p : Pending), s.module.pending = [p] → p.started = true → field p.bytes 0 1 = 6 → p.bytes.length = 64 →
    ((∃ ki ∈ s.hub.instances, ∃ x ∈ ki.2.stopping, x.2 = 0) → exec .ckptComplete s = .next s) ∧
    ((∀ ki ∈ s.hub.instances, ∀ x ∈ ki.2.stopping, x.2 ≠ 0) → NoEntries s → field p.bytes 16 1 = 0 → Sparse.wf 0#8 s.home.mem = true →
      (∀ j, j < s.module.cqSize → ∀ m, m < 32 → s.module.cqBase.toNat + 32 * j + m < field p.bytes 24 8) → s.module.cqTail < s.module.cqSize →
      ∃ s', exec .ckptComplete s = .next s' ∧ s'.home = s.home ∧ s'.module.pending = [] ∧ s'.journal.next = s.journal.next + 1 ∧
        JournalEntry s' s.journal.next s.time p.bytes 2 0 p.seq [] ∧
        (∀ a, a < hbmTop → Sparse.get 0#8 s'.module.hostMem (field p.bytes 24 8 + 4096 + a) = s.home.byte a) ∧
        let h := fun (o n : Nat) => memNumber (Sparse.get 0#8 s'.module.hostMem) (field p.bytes 24 8 + o) n
        h 0 4 = 0x434B5001 ∧ h 4 4 = 1 ∧ h 8 8 = p.seq % 2 ^ 64 ∧ h 16 8 = p.time % 2 ^ 64 ∧ h 24 8 = hbmTop ∧ h 48 2 = 0x0960 ∧ h 50 2 = 0x00B0)) ∧
  (∀ (s : State) (r : List Byte), ReadsCommand s 7 r → OnlyOperands r false [(16, 1), (24, 8), (40, 8)] → field r 16 1 = 0 →
    field r 24 8 % 4096 = 0 →
    (memNumber (Sparse.get 0#8 s.module.hostMem) (field r 24 8 + 4) 4 = 0 → ∃ s', exec .restore s = .next s' ∧ Refused s s' r 3 8) ∧
    (checkpointOk s r = true →
      ∃ s', exec .restore s = .next s' ∧ Accepted s s' r true ∧ { s' with module := s.module, journal := s.journal } = s)) ∧
  ∀ (s : State) (p : Pending), s.module.pending = [p] → p.started = true → field p.bytes 0 1 = 7 → p.bytes.length = 64 →
    (s.blocks ≠ [] → exec .restoreComplete s = .next s) ∧
    (s.blocks = [] → NoEntries s → field p.bytes 16 1 = 0 → Sparse.wf 0#8 s.module.hostMem = true → Sparse.wf 0#8 s.home.mem = true →
      let h := fun (o n : Nat) => memNumber (Sparse.get 0#8 s.module.hostMem) (field p.bytes 24 8 + o) n
      ∃ s', exec .restoreComplete s = .next s' ∧ s'.module.pending = [] ∧
        ∀ x, s.module.saved = [x] → numberOf x.digest = h 56 32 → x.digest.length = 32 → (∀ e ∈ x.logs, e.2.pub = false) →
          s'.home.fold = [] ∧ s'.home.poison = [] ∧
          (∀ a, s'.home.byte a = if a < h 24 8 then Sparse.get 0#8 s.module.hostMem (field p.bytes 24 8 + 4096 + a) else s.home.byte a) ∧
          s'.hub.images = x.images ∧ s'.hub.queues = x.queues ∧ s'.hub.arrivals = x.arrivals ∧
          (∀ k, (s'.hub.evicted.find k).map (fun e => { e with since := none }) = (x.evicted.find k).map fun e => { e with since := none }) ∧
            s'.launches = x.launches ∧ s'.hub.instances = x.instances.map fun ki => (ki.1, { ki.2 with stopped := false, stopping := [] }))

namespace Sys2Proof.Claims

open Sys2Proof.Machine

/-! ### The host's windows, resets, health -/

/-- The device address of an offset of the data aperture, in a window that is enabled (R23). -/
def reaches (s : State) (off : Nat) : Option Nat :=
  let w := (Sparse.get 0#64 s.module.windows (off / 2 ^ 30)).toNat
  if off / 2 ^ 30 < 64 ∧ w % 2 = 1 then some (w / 2 ^ 30 % 2 ^ 22 * 2 ^ 30 + off % 2 ^ 30) else none

/-- What a reset leaves of the machine: everything at its reset value but what R28 and R250 keep (log entry 43). -/
def ResetTo (s s' : State) : Prop :=
  s' = { State.reset with home := s'.home, recorder := s'.recorder, capture := s'.capture, journal := s'.journal, time := s.time
                          frac := s.frac, cycles := s.cycles, agenda := s.agenda, tick := s.tick, module := s'.module } ∧
    (∀ a, s'.home.byte a = 0#8 ∧ s'.home.tag a = (0, 0)) ∧ s'.home.poison = [] ∧ s'.module.channel = false ∧ s'.module.pending = [] ∧
    s'.module.debugWord = 0#32 ∧ s'.module.meas = [] ∧ s'.module.windows = [] ∧ s'.module.tripped = false ∧
    s'.module.powerLimit = s.module.powerLimit ∧ s'.recorder.intake = [] ∧ s'.recorder.transit = []

/-- A record as the event ring stores it: EPOCH in bits 7:2 of byte 9 (R246). -/
def storedAs (x : Record) (epoch : Nat) : List Byte := x.bytes.set 9 (BitVec.ofNat 8 ((x.bytes.getD 9 0#8).toNat % 4 + 4 * (epoch % 64)))

/-- The occupancy of the intake, in hundredths, from which a class is discarded (R252). -/
def discardedFrom (cls : Nat) : Option Nat :=
  match cls with
  | 7 => some 50
  | 5 => some 60
  | 3 => some 70
  | 2 => some 80
  | 4 => some 90
  | 6 => some 95
  | _ => none

/-- A byte of BAR 0 as the host reads it (R18): the submission ring, SQTAIL, SQHEAD, CQHEAD, CQBASE, CQSIZE, the window registers; the rest
is reserved and reads zero. -/
def bar0 (s : State) (a : Nat) : BitVec 8 :=
  let m := s.module
  let part := fun (v i : Nat) => BitVec.ofNat 8 (v / 256 ^ i)
  if a < 0x40000 then Sparse.get 0#8 m.sq a
  else if a / 4 = 0x400000 then part m.sqTail (a % 4)
  else if a / 4 = 0x400001 then part m.sqHead (a % 4)
  else if a / 4 = 0x400002 then part m.cqHead (a % 4)
  else if a / 8 = 0x200002 then part m.cqBase.toNat (a % 8)
  else if a / 4 = 0x400006 then part m.cqSize (a % 4)
  else if 0x2000000 ≤ a ∧ a < 0x2000200 then part (Sparse.get 0#64 m.windows (a % 512 / 8)).toNat (a % 8)
  else 0#8

/-- A temperature in m°C is above a limit. -/
def above (t limit : Nat) : Bool := decide ((limit : Int) < (BitVec.ofNat 32 t).toInt)

/-- A node of the wait-for graph, and a record of the edge view (R257). -/
def nodeOf (s : State) (kind arg id : Nat) : List Byte :=
  [BitVec.ofNat 8 kind, 0#8] ++ leBytes 2 s.hub.device.toNat ++ leBytes 4 arg ++ leBytes 8 id
/-- See `nodeOf`. -/
def edgeOf (waiter awaited : List Byte) (since : Nat) : List Byte := waiter ++ awaited ++ leBytes 8 since ++ zeroBytes 8

end Sys2Proof.Claims

open Sys2Proof Sys2Proof.Machine Sys2Proof.Claims

/-- R15, R18, R23, R26, R29, R33, R35, R152: what a write of the host does to CQHEAD, SQTAIL, the submission ring, a window register, the
debug-enable word and MEAS6, MEAS7, the image-key table, a firmware image in recovery; what the data aperture writes; what the host reads of
BAR 0, of the data aperture, and of the management window the event ring's header (R251), the slot records (R255) and the journal (R253);
`EDGE_VIEW_PASS` lists who waits for whom (R257). (The offsets of the window's other fields are the model's, log entry 42, and so is an index
out of range, log entry 45.) -/
def Obligations.HostWindows : Prop :=
  (∀ (s : State) (v : BitVec 32),
    exec (.cqheadWrite v) s = .next (s.modModule fun m => { m with cqHead := v.toNat % m.cqSize })) ∧
  (∀ (s : State) (off : Nat) (bs : List (BitVec 8)),
    (bs.length = 4 → exec (.registerWrite false 0x1000000 bs) s =
      .next (if s.module.channel then s.modModule fun m => { m with sqTail := numberOf bs % 4096 } else s)) ∧
    (s.module.channel = false → off < 262144 → exec (.registerWrite false off bs) s = .next s) ∧
    (s.module.channel = false → bs.length = 8 → numberOf bs % 4096 = 0 → exec (.registerWrite false 0x1000010 bs) s =
      .next (s.modModule fun m => { m with cqBase := BitVec.ofNat 64 (numberOf bs) })) ∧
    (s.module.channel = false → bs.length = 4 → (∃ k, 10 ≤ k ∧ k ≤ 16 ∧ numberOf bs = 2 ^ k) → exec (.registerWrite false 0x1000018 bs) s =
      .next (s.modModule fun m => { m with cqSize := numberOf bs })) ∧
    (s.module.channel = true → off + bs.length ≤ 262144 → bs ≠ [] → ∃ s', exec (.registerWrite false off bs) s = .next s' ∧
      { s' with module := { s'.module with sq := s.module.sq } } = s ∧
      ∀ a, Sparse.get 0#8 s'.module.sq a = if off ≤ a ∧ a < off + bs.length then bs.getD (a - off) 0#8 else Sparse.get 0#8 s.module.sq a) ∧
    (∀ w, w < 64 → bs.length = 8 →
      (numberOf bs / 2 ^ 52 = 0 → numberOf bs % 2 ^ 30 / 2 = 0 → ∃ s', exec (.registerWrite false (0x2000000 + 8 * w) bs) s = .next s' ∧
        { s' with module := { s'.module with windows := s.module.windows } } = s ∧
        ∀ j, Sparse.get 0#64 s'.module.windows j = if j = w then BitVec.ofNat 64 (numberOf bs) else Sparse.get 0#64 s.module.windows j) ∧
      ((numberOf bs / 2 ^ 52 ≠ 0 ∨ numberOf bs % 2 ^ 30 / 2 ≠ 0) → exec (.registerWrite false (0x2000000 + 8 * w) bs) s = .next s)) ∧
    (s.module.channel = true → exec (.registerWrite false 0x1000010 bs) s = .next s ∧ exec (.registerWrite false 0x1000018 bs) s = .next s) ∧
    (0x2000200 ≤ off → exec (.registerWrite false off bs) s = .next s)) ∧
  (∀ (s : State) (off : Nat) (bs : List (BitVec 8)), off % 2 ^ 30 + bs.length ≤ 2 ^ 30 → bs ≠ [] →
    (∀ pa, reaches s off = some pa → NoEntries s → (∀ kl ∈ s.launches, kl.2.determ = false) → pa + bs.length ≤ hbmTop →
      ∃ s', exec (.hostApertureWrite off bs) s = .next s' ∧ s'.cores = s.cores ∧ s'.capture = s.capture ∧
        ∀ a, s'.home.byte a = if pa ≤ a ∧ a < pa + bs.length then bs.getD (a - pa) 0#8 else s.home.byte a) ∧
    (reaches s off = none → exec (.hostApertureWrite off bs) s = .next s)) ∧
  (∀ (s : State) (bar off n : Nat), bar ≠ 2 →
    ∃ s', exec (.hostApertureRead bar off n) s = .next s' ∧ { s' with module := { s'.module with reply := s.module.reply } } = s ∧
      s'.module.reply.length = n ∧
      ∀ j, j < n → s'.module.reply.getD j 0#8 =
        if bar = 0 then bar0 s (off + j)
        else match reaches s (off + j) with
          | some pa => if pa < hbmTop then s.home.byte pa else 0xFF#8
          | none => 0xFF#8) ∧
  (∀ (s : State) (off n : Nat),
    (s.module.channel = false → exec (.hostApertureRead 2 off n) s = .next (s.modModule fun m => { m with reply := [] })) ∧
    (s.module.channel = true → off + n ≤ 0xC000000 ∨ 0xC000030 ≤ off →
      ∃ s', exec (.hostApertureRead 2 off n) s = .next s' ∧ { s' with module := { s'.module with reply := s.module.reply } } = s ∧
        s'.module.reply.length = n ∧
        (off = 0x8000000 → n = 4096 → field s'.module.reply 0 4 = 0x45565201 ∧ field s'.module.reply 8 8 = 796917632 ∧
          field s'.module.reply 16 8 = s.recorder.head % 2 ^ 64 ∧ field s'.module.reply 24 8 = s.recorder.epoch % 2 ^ 64) ∧
        (∀ k x, s.hub.slots.find k = some x → k < 2048 → off = 0x9000000 + 128 * k → n = 128 → field s'.module.reply 0 4 = x.collid.toNat ∧
          field s'.module.reply 4 2 = x.chunk.toNat ∧ field s'.module.reply 6 2 = x.entry.toNat ∧ field s'.module.reply 8 1 = x.entry.toNat / 16 % 16 + 1 ∧
          field s'.module.reply 9 1 = x.inputs.length % 256 ∧ field s'.module.reply 12 4 = x.tmo % 2 ^ 32 ∧
          field s'.module.reply 16 8 = x.opened % 2 ^ 64) ∧
        ∀ k e, s.journal.entries.find k = some e → k < 4194304 → e.length = 64 → off = 0x20000000 + 64 * k → n = 64 → s'.module.reply = e)) ∧
  (∀ (s : State) (v : BitVec 32),
    (s.module.debugWord = v → exec (.debugEnableWrite v) s = .next s) ∧
    (s.module.debugWord ≠ v → ∃ s', exec (.debugEnableWrite v) s = .next s' ∧ s'.module.debugWord = v ∧
      { s' with module := { s'.module with debugWord := s.module.debugWord, meas := s.module.meas } } = s ∧
      (s'.module.meas.find 6).getD (zeroBytes 32) = sha256 ((s.module.meas.find 6).getD (zeroBytes 32) ++ leBytes 4 v.toNat) ∧
      ∀ j, j ≠ 6 → s'.module.meas.find j = s.module.meas.find j)) ∧
  (∀ (s : State) (d : List (BitVec 8)), d.length = 32 → ∃ s', exec (.meas7Write d) s = .next s' ∧
    { s' with module := { s'.module with meas := s.module.meas } } = s ∧
    (s'.module.meas.find 7).getD (zeroBytes 32) = sha256 ((s.module.meas.find 7).getD (zeroBytes 32) ++ d)) ∧
  (∀ (s : State) (n : Nat) (key : List (BitVec 8)), n < 8 → key.length = 48 →
    ((∃ b ∈ key, b ≠ 0#8) → ∃ s', exec (.imageKeyWrite n key) s = .next s' ∧ s'.module.imageKeys.find n = some key ∧
      (∀ j, j ≠ n → s'.module.imageKeys.find j = s.module.imageKeys.find j) ∧
      (s'.module.meas.find 7).getD (zeroBytes 32) = sha256 ((s.module.meas.find 7).getD (zeroBytes 32) ++ sha256 key)) ∧
    ((∀ b ∈ key, b = 0#8) → ∃ s', exec (.imageKeyWrite n key) s = .next s' ∧ s'.module.imageKeys.find n = none ∧
      s'.module.meas = s.module.meas)) ∧
  (∀ (s : State) (img : List (BitVec 8)),
    (s.module.recovery = true → exec (.firmwareImageWrite img) s = .next (s.modModule fun m => { m with firmware := img })) ∧
    (s.module.recovery = false → exec (.firmwareImageWrite img) s = .next s)) ∧
  ∀ s : State, ∃ xs, exec .edgeViewPass s = .next (s.modHub fun h => { h with edges := xs ++ [zeroBytes 48] }) ∧
    (s.blocks = [] → s.hub.evicted = [] → s.hub.slots = [] → s.hub.replay = [] → xs = []) ∧
    ∀ kb ∈ s.blocks, ∀ l, kb.2.core < 256 → s.launch kb.2.launch = some l →
      let node := fun (kind n : Nat) => nodeOf s kind (kb.2.index % 65536 * 65536 + n) l.id.toNat
      (∀ kt ∈ s.teams, ∀ n ph w, kt.2.block = kb.1 → kt.2.wait = some (.barrier n ph w) → (kb.2.barrier n).waiters.getLsbD kt.2.number = true →
        edgeOf (node 1 kt.2.number) (node 2 n) (s.time - kt.2.waitSince) ∈ xs) ∧
      ∀ n, n < 16 → 0 < (kb.2.barrier n).ext →
        edgeOf (node 2 n) (nodeOf s 4 (kb.2.barrier n).ext.toNat l.id.toNat) (s.time - (kb.2.barrier n).opened) ∈ xs

/-- R17, R27–R29, R35, R250, R285: `RESET` is accepted and done, the warm reset leaves every unit at its reset value and memory empty, the
channel closed, the event store and the journal kept; `WARM_RESET_PIN` the same. `COLD_START` repeats the start-up steps and opens the channel, or
enters recovery when the firmware fails its checks, and loses the stacks that do not train; `POWER_LOSS` keeps the event store, but not during a warm reset.
(What a warm reset keeps beside that, and when, is the model's, log entry 43.) -/
def Obligations.Resets : Prop :=
  (∀ (s : State) (r : List Byte), Reads s r → field r 0 1 = 5 → OnlyOperands r false [] → s.module.pending = [] →
    ∃ s', exec .reset s = .next s' ∧ ResetTo s s' ∧ s'.module.resetting = true ∧ s'.journal.next = s.journal.next + 2 ∧
      JournalEntry s' s.journal.next s.time r 1 0 0 [] ∧ JournalEntry s' (s.journal.next + 1) s.time r 2 0 s.journal.next [] ∧ s'.capture = s.capture) ∧
  (∀ s : State, (s.module.channel = false → exec .warmResetPin s = .next s) ∧
    (s.module.channel = true → s.module.pending = [] → ∃ s', exec .warmResetPin s = .next s' ∧ ResetTo s s' ∧ s'.module.resetting = true ∧
      s'.journal = s.journal ∧ s'.capture = s.capture ∧
      (s.recorder.intake = [] → s.recorder.transit = [] → s.recorder.head + 1 < 796917632 →
        s'.recorder.head = s.recorder.head + 1 ∧ ∃ x, s'.recorder.slots.find s.recorder.head = some x ∧ field x 12 2 = 0x008 ∧ field x 24 8 = 1))) ∧
  (∀ s : State, (s.module.channel = true → exec .coldStart s = .next s) ∧
    (s.module.channel = false →
      ∃ s', exec .coldStart s = .next s' ∧ s'.module.channel = true ∧ s'.module.resetting = false ∧ s'.module.recovery = !firmwareOk s ∧
        (∀ a, s'.home.byte a = 0#8) ∧ s'.teams = s.teams ∧ s'.hub = s.hub ∧
        (s'.module.meas.find 0).getD (zeroBytes 32) = sha256 ((s.module.meas.find 0).getD (zeroBytes 32) ++ Config.bootDigest 0) ∧
        (s'.module.meas.find 1).getD (zeroBytes 32) = sha256 ((s.module.meas.find 1).getD (zeroBytes 32) ++
          sha256 (if s.module.firmware = [] then Config.shippedFirmware else s.module.firmware)) ∧
        s'.home.lost = (List.range 8).filter (fun n => !Config.stackTrains s.tick n) ∧
        s'.journal.next = s.journal.next + s'.home.lost.length + if firmwareOk s then 0 else 1)) ∧
  ∀ s : State, ∃ s', exec .powerLoss s = .next s' ∧ ResetTo s s' ∧
    (s.module.resetting = false → s'.journal = s.journal ∧ s'.capture = s.capture ∧ s'.recorder.slots = s.recorder.slots ∧
      s'.recorder.head = s.recorder.head ∧ s'.recorder.header = s.recorder.header) ∧
    (s.module.resetting = true → s'.journal.entries = [] ∧ s'.journal.next = 1 ∧ s'.recorder.slots = [])

/-- R13, R31, R32, R271, R272, R284, R285: `MONITOR_SAMPLE` takes the readings, throttles the clock and trips; `CLOCK_STEP_UP` raises the clock 10 ms
after its last change; `ECC_ERROR` that is corrected counts, and one that is not poisons its place, and either has its event; the loss of a first stack degrades the
module, the loss of a second freezes compute; `HBM_SCRUB` changes nothing; `PTP_MESSAGE` sets device time, which never goes back.
(That PTP time never goes back is the model's, log entry 44.) -/
def Obligations.Health : Prop :=
  (∀ (s : State) (temps rails process : List Nat) (power flow : Nat), temps.length = 104 → s.module.temps.length = 104 → rails = s.module.rails →
    ∃ s', exec (.monitorSample temps rails process power flow) s = .next s' ∧ s'.module.temps = temps ∧ s'.module.process = process ∧
      s'.module.power = power ∧
      { s' with module := s.module, recorder := s.recorder, journal := s.journal } = s ∧
      s'.module.clock =
        (if s.module.powerLimit < power ∨ (∃ t ∈ temps, above t 100000 = true) then
          (if 1200 < s.module.clock then max 1200 (s.module.clock - 75) else s.module.clock)
        else s.module.clock) ∧
      (s'.module.tripped = true ↔
        (s.module.tripped = true ∨ (∃ t ∈ temps, above t 110000 = true) ∨ flow < 1800 ∨
          ∃ j v, rails[j]? = some v ∧ (v < (Config.railRange j).1 ∨ (Config.railRange j).2 < v))) ∧
      s'.journal.next = s.journal.next + (if s.module.tripped = false ∧ s'.module.tripped = true then 1 else 0)) ∧
  (∀ s : State,
    let hot := s.module.powerLimit < s.module.power ∨ ∃ t ∈ s.module.temps, above t 100000 = true
    ((hot ∨ 2250 ≤ s.module.clock ∨ s.time < s.module.clockAt + 10000000) → exec .clockStepUp s = .next s) ∧
    (¬ hot → s.module.clock < 2250 → s.module.clockAt + 10000000 ≤ s.time → ∃ s', exec .clockStepUp s = .next s' ∧
      s'.module = { s.module with clock := min 2250 (s.module.clock + 75), clockAt := s.time } ∧
      Emits s s' 11 0 0x601 0#64 (min 2250 (s.module.clock + 75)) ∧ { s' with module := s.module, recorder := s.recorder } = s)) ∧
  (∀ (s : State) (kind unit place : Nat), 1 ≤ kind → kind ≤ 9 → kind ≠ 3 →
    (∃ s', exec (.eccError kind unit place false) s = .next s' ∧ { s' with module := s.module, recorder := s.recorder } = s ∧
      (s'.module.corrected.find kind).getD 0 = (s.module.corrected.find kind).getD 0 + 1) ∧
    (∀ t, kind = 1 → s.team unit = some t → ∃ s' u, exec (.eccError kind unit place true) s = .next s' ∧ s'.team unit = some u ∧
      (∀ key, Sparse.get false u.regs.vPoison key = (decide (key = place) || Sparse.get false t.regs.vPoison key)) ∧
      { u with regs := { u.regs with vPoison := t.regs.vPoison } } = t ∧ Emits s s' 1 (unit / 16) 0x602 0#64 (1 + 256 * kind)) ∧
    (kind = 4 → ∃ s', exec (.eccError kind unit place true) s = .next s' ∧
      (∀ g, Sparse.get false (s'.core unit).scratchPoison g = (decide (g = place) || Sparse.get false (s.core unit).scratchPoison g)) ∧
      (s'.core unit).scratch = (s.core unit).scratch ∧ Emits s s' 1 unit 0x602 0#64 (1 + 256 * kind))) ∧
  (∀ (s : State) (unit place : Nat) (hard : Bool), ∃ s', exec (.eccError 3 unit place hard) s = .next s' ∧ Emits s s' 1 (unit / 16) 0x602 0#64 769) ∧
  (∀ (s : State) (n : Nat), n < 8 →
    (n ∈ s.home.lost → exec (.stackLost n) s = .next s) ∧
    (s.home.lost = [] → ∃ s', exec (.stackLost n) s = .next s' ∧ s'.home.lost = [n] ∧ s'.home.intents = [] ∧
      (∀ a, s'.home.byte a = s.home.byte a) ∧ (s.home.intents = [] → s'.home = { s.home with lost := [n] }) ∧ s'.module = s.module ∧
      s'.journal.next = s.journal.next + 1 ∧ Emits s s' 11 0 0x603 0#64 n) ∧
    (∀ m, s.home.lost = [m] → m ≠ n → ∃ s', exec (.stackLost n) s = .next s' ∧ s'.home.lost = [m, n] ∧ s'.module.tripped = true)) ∧
  (∀ s : State, exec .hbmScrub s = .next s) ∧
  ∀ (s : State) (t : Nat), exec (.ptpMessage t) s = .next { s with time := max s.time t, frac := if s.time < t then 0#4 else s.frac }

/-- R246, R248, R250, R252: `EVENT_RECORD` brings the oldest record to the intake, or discards it by its class and counts it; `RING_WRITE` writes
the oldest record held into the slot at HEAD with the pass's EPOCH; `RING_HEADER_WRITE` rewrites the header; `SAMPLE` of a core whose period
has passed emits the code address of its team. -/
def Obligations.RecorderEvents : Prop :=
  (∀ (s : State) (x : Record) (rest : List Record), s.recorder.transit = x :: rest → (∀ c, Sparse.get false s.recorder.shut c = false) →
    let used := s.recorder.intake.length
    ((∃ t, discardedFrom x.cls = some t ∧ t * 32768 ≤ 100 * used) →
      ∃ s', exec .eventRecord s = .next s' ∧ s'.recorder.transit = rest ∧ s'.recorder.intake = s.recorder.intake ∧
        (s'.recorder.drops.find x.cls).getD 0 = (s.recorder.drops.find x.cls).getD 0 + 1 ∧ { s' with recorder := s.recorder } = s) ∧
    ((∀ t, discardedFrom x.cls = some t → 100 * used < t * 32768) → used < 32768 →
      exec .eventRecord s = .next (s.modRecorder fun r => { r with transit := rest, intake := r.intake ++ [x] }))) ∧
  (∀ s : State, s.recorder.transit = [] → (∀ c, Sparse.get false s.recorder.shut c = false) → exec .eventRecord s = .next s) ∧
  (∀ (s : State) (x : Record) (rest : List Record), s.recorder.intake = x :: rest → (∀ c, Sparse.get false s.recorder.shut c = false) →
    exec .ringWrite s = .next (s.modRecorder fun r => { r with
      slots := r.slots.put r.head (storedAs x r.epoch), head := (r.head + 1) % 796917632
      epoch := if (r.head + 1) % 796917632 = 0 then r.epoch + 1 else r.epoch, intake := rest })) ∧
  (∀ s : State, ∃ s' h, exec .ringHeaderWrite s = .next s' ∧ s' = s.modRecorder (fun r => { r with header := h }) ∧ h.length = 4096 ∧
    field h 0 4 = 0x45565201 ∧ field h 8 8 = 796917632 ∧ field h 16 8 = s.recorder.head % 2 ^ 64 ∧ field h 24 8 = s.recorder.epoch % 2 ^ 64 ∧
    (∀ c, c < 8 → field h (64 + 8 * c) 8 = (s.recorder.drops.find c).getD 0 % 2 ^ 64) ∧ field h 4092 4 = (crc32c (h.take 4092)).toNat) ∧
  ∀ (s : State) (core n : Nat) (t : Team), s.team (16 * core + n) = some t → n < 16 →
    let period := (s.recorder.period.find core).getD 0
    (period = 0 → exec (.sample core n) s = .next s) ∧
    (∀ last, s.recorder.sampled.find core = some last → s.time < last + 1000 * period → exec (.sample core n) s = .next s) ∧
    (period ≠ 0 → (∀ last, s.recorder.sampled.find core = some last → last + 1000 * period ≤ s.time) →
      ∃ s', exec (.sample core n) s = .next s' ∧ { s' with recorder := s.recorder } = s ∧ s'.recorder.sampled.find core = some s.time ∧
        Emits (s.modRecorder fun r => { r with sampled := r.sampled.put core s.time }) s' 1 core 0x700 0#64
          (n + 2 ^ 8 * core + 2 ^ 32 * match t.run with
            | some r => r.item.addr
            | none => t.pc))

/-! ### The whole machine -/

namespace Sys2Proof.Claims

open Sys2Proof.Machine

/-- What a step from `s` would do is stalled (R252): the intake buffer has no room, and a record of class 0 or 1 would wait for it. -/
def Stalled (s s' : State) : Prop :=
  32768 ≤ s.recorder.intake.length + s.recorder.transit.length ∧ ∃ r ∈ s'.recorder.transit.drop s.recorder.transit.length, r.cls ≤ 1

/-- A step from `s` goes on to `s'`, or, where that is stalled, only takes time. -/
def GoesOn (s s' : State) (o : Host.Outcome State Fault Refusal) : Prop :=
  (¬ Stalled s s' → o = .next s') ∧ (Stalled s s' → o = .next (passTime s))

/-- From `s`, where the run of the current team may issue, a step answers `o`: what the instruction `i` does there, with the step's own
part before and after it. -/
def Issues (s : State) (i : Instr) (o : Host.Outcome State Fault Refusal) : Prop :=
  (∀ s', exec i (beginInstr s) = .next s' → GoesOn s (finishInstr s') o) ∧
    (∀ e, exec i (beginInstr s) = .fault e → o = .fault e) ∧ ∀ e, exec i (beginInstr s) = .refused e → o = .refused e

/-- The head of the current team's run is a word that decodes to `i`, and the run is not held. -/
def AtInstr (s : State) (i : Instr) : Prop := ∃ it, headItem s = some it ∧ decodeWord it.full = .ok i ∧ heldRun s = false

/-- What only S, H and the module set: the registers of the contexts, XLANEMAP and XROWMAP (R94). -/
def SameSystem (s s' : State) : Prop :=
  s'.contexts = s.contexts ∧ (∀ c, (s'.core c).lanemap = (s.core c).lanemap ∧ (s'.core c).newmap = (s.core c).newmap) ∧
    ∀ c, (s'.cluster c).rowmap = (s.cluster c).rowmap

end Sys2Proof.Claims

open Sys2Proof Sys2Proof.Machine Sys2Proof.Claims

/-- A step runs the decoded instruction: the head of the current team's run with nothing on the agenda, the head of the run of the team in
an issue slot whose turn it is, and the word that `withFetchWord` places, issue as `exec` says with the step's own part around it. An event
on the agenda takes place as `exec` says, unless a trip froze it (R32); what would have a record of class 0 or 1 wait for a full intake buffer
only takes time (R252); a held run's turn and a turn that names an instruction only take
time. (The agenda and the placing of a word are the model's, log entries 1 and 7.) -/
def Obligations.StepRunsDecoded : Prop :=
  (∀ (s : State) (i : Instr), s.agenda = [] → AtInstr s i → Issues s i (step s)) ∧
  (∀ (s : State) (i : Instr) (core slot k : Nat) (rest : List Turn), s.agenda = .slot core slot :: rest → slotTeam s core slot = some k →
    AtInstr { s with agenda := rest, cur := k } i → Issues { s with agenda := rest, cur := k } i (step s)) ∧
  (∀ (s : State) (core slot k : Nat) (rest : List Turn), s.agenda = .slot core slot :: rest → slotTeam s core slot = some k →
    heldRun { s with agenda := rest, cur := k } = true → step s = .next (passTime { s with agenda := rest, cur := k })) ∧
  (∀ (s : State) (i : Instr) (nbits w : Nat), s.module.tripped = false → decodeWord (w % 2 ^ 32) = .ok i →
    Issues (s.withFetchWord nbits w) i (step (s.withFetchWord nbits w))) ∧
  ∀ (s : State) (i : Instr) (rest : List Turn), s.agenda = .event i :: rest →
    let s0 := { s with agenda := rest }
    let happens := i.isWord = false ∧ ¬ (s.module.tripped = true ∧ frozenEvent i = true)
    (happens → (∀ s', exec i (passTime s0) = .next s' → GoesOn s0 s' (step s)) ∧ (∀ e, exec i (passTime s0) = .fault e → step s = .fault e) ∧
      ∀ e, exec i (passTime s0) = .refused e → step s = .refused e) ∧
    (¬ happens → step s = .next (passTime s0))

/-- R69–R85: words written out bit by bit from the encodings of the manual's worked examples, one or more of each family, decode to the
instructions they stand for; the zero word, a reserved major, a reserved field and `CMP.UN` of integers do not decode. -/
def Obligations.WordsDecode : Prop :=
  decodeWord 0x0200_0000 = .ok (.nop 0) ∧ decodeWord 0x0428_C380 = .ok (.iaddSr 0 5 6 7) ∧ decodeWord 0x0439_0488 = .ok (.andnSr 0 7 8 9) ∧
  decodeWord 0x2018_2052 = .ok (.fmul 0 6 4 5) ∧ decodeWord 0xA018_2052 = .ok (.fmul 1 6 4 5) ∧
  decodeWord 0x4020_4040 = .ok (.ldVector 0 8 4 2 0 0) ∧ decodeWord 0x580420A1 = .ok (.cpyG2t 0 4 8 10 1) ∧
  decodeWord 0x5A43_22A0 = .ok (.mma 0 3 1 5 0 1) ∧ decodeWord 0x5429_5000 = .ok (.bwait 1 21) ∧
  decodeWord 0x6228_1100 = .ok (.getx 0 5 0x11) ∧ decodeWord 0x4C08_264C = .ok (.atom 0 2 4 0xC 2 3) ∧
  decodeWord 0x5EC8_24A3 = .ok (.csend 0 8 9 10 3) ∧ decodeWord 0x3840_0002 = .ok (.ifK 2 2) ∧ decodeWord 0x3A42_0000 = .ok (.brc 2 4 0) ∧
  decodeWord 0x6008_24A2 = .ok (.spawn 0 8 9 10 2) ∧ decodeWord 0x5018_0000 = .ok (.fence 0 0 3) ∧
  (∀ i, decodeWord 0 ≠ .ok i) ∧ (∀ i, decodeWord 0x6600_0000 ≠ .ok i) ∧ (∀ i, decodeWord 0x50E8_0000 ≠ .ok i) ∧
  ∀ i, decodeWord 0x2220_81B1 ≠ .ok i

/-- R27, R35, R145, R147, R151, R153, R171, R172, R176, R185, R246, R250, R259: the machine at power-good. Memory reads zero and is canonical, with
fold tags (0, 0), no sync tag written and no poison; no launch, block or team stands; every core's log, translations, locks and L1 are
empty, every cluster's reservations too, with its weight slots empty; MEAS0 to MEAS7 are zero; the event ring is empty in EPOCH 1 and the
journal goes from 1. (Values with no reset value in the manual are the model's, log entry 5.) -/
def Obligations.ResetLeaves : Prop :=
  State.reset.home.wf ∧ (∀ a, State.reset.home.byte a = 0#8 ∧ Sparse.get (0, 0) State.reset.home.fold a = (0, 0)) ∧
  State.reset.home.poison = [] ∧ State.reset.home.sync = [] ∧
  State.reset.teams = [] ∧ State.reset.blocks = [] ∧ State.reset.launches = [] ∧ State.reset.cmds = [] ∧ State.reset.hub.images = [] ∧
  (∀ c, c < 256 → (State.reset.core c).log = [] ∧ (State.reset.core c).tlb = [] ∧ (State.reset.core c).locks = [] ∧ (State.reset.core c).l1 = [] ∧
    (State.reset.core c).slotA = none ∧ (State.reset.core c).slotB = none) ∧
  (∀ c, c < 64 → (State.reset.cluster c).slots = [] ∧ (State.reset.cluster c).table = []) ∧
  State.reset.module.meas = [] ∧ State.reset.module.channel = false ∧
  State.reset.recorder.slots = [] ∧ State.reset.recorder.epoch = 1 ∧ State.reset.journal = ⟨1, []⟩

/-- R74, R80: decode and encode agree. The word of every well-formed instruction decodes to it, with every operand at every value its field
holds, and so do its bytes in front of any others. -/
def Sys2Proof.Claims.DecodeOfEncode : Prop :=
  ∀ (i : Instr), i.isWord = true → i.wellFormed = true →
    (∃ w, w < 2 ^ 32 ∧ encodeWord i = some w ∧ decodeWord w = .ok i) ∧ ∀ rest, decode (encode i ++ rest) = .ok (i, rest)

/-- R81, R83–R85: the other direction. A word of 32 bits that decodes has one reading: the instruction is well formed and its word is the
one it was read from; so two words never stand for one instruction, and reserved fields decode to none. -/
def Sys2Proof.Claims.OneWordEach : Prop :=
  ∀ (w : Nat) (i : Instr), w < 2 ^ 32 → decodeWord w = .ok i → i.wellFormed = true ∧ i.isWord = true ∧ encodeWord i = some w

/-- R74, R80, R81, R83–R85: decode and encode agree in both directions. The word of every well-formed instruction, with every operand at every value
its field holds, decodes to it, and so do its bytes in front of any others; and a word that decodes is the word of what it decodes to. -/
def Obligations.EncodingRoundTrip : Prop := Claims.DecodeOfEncode ∧ Claims.OneWordEach

/-- Every step keeps the home memory in its canonical form: the bytes, their fold tags (R151) and their poison (R272) strictly rising and
listing nothing at the value an unlisted place has. -/
def Obligations.StepKeepsMemory : Prop :=
  ∀ (s s' : State), s.home.wf → step s = .next s' → s'.home.wf

/-- R86, R94, R96: a team in U never changes the registers of a context, XLANEMAP or XROWMAP, by whatever instruction it issues. -/
def Obligations.UserKeepsSystem : Prop :=
  ∀ (s s' : State) (t : Team) (i : Instr), i.isWord = true → s.team s.cur = some t → t.mode = .u → exec i s = .next s' → SameSystem s s'

namespace Sys2Proof.Claims

open Sys2Proof.Machine

/-- What a copy command issued by `exec i` at `s`, by the team `t` counted as `adv`, does (R163–R165, R169, R173). -/
def CopyIssues (s s' : State) (t adv : Team) (r : Run) (b : Block) (n : Nat) (a : CopyAsk) : Prop :=
  let rd := spanOf (s.setTeam s.cur adv) t .load a.reads
  let wr := spanOf rd.1 t .store a.writes
  ∃ c, CommandIssues s s' t adv r b n c ∧
    HoldsRanges wr.1 s' c (a.ranges.map (fun (x : Bool × Nat × Nat × Nat) => (x.1, true, x.2)) ++
      rd.2.map (fun (x : Nat × Nat) => (false, false, coreOfTeam s.cur, x)) ++
      wr.2.map fun (x : Nat × Nat) => (true, false, coreOfTeam s.cur, x)) ∧
    s'.home = wr.1.home ∧ c.src = a.src ∧ c.dst = a.dst ∧ c.lineUnits = a.lineUnits ∧ c.units = a.units ∧ c.reduce = a.reduce ∧
    c.scope = a.scope ∧ c.tiles = a.tiles ∧ c.fill = a.fill

/-- Room for the locks of a copy command, translated ranges in HBM, and no reduction into a sequenced region (R165, R169, R268). -/
def CopyRoom (s : State) (t adv : Team) (a : CopyAsk) : Prop :=
  let rd := spanOf (s.setTeam s.cur adv) t .load a.reads
  let wr := spanOf rd.1 t .store a.writes
  (∀ x ∈ rd.2 ++ wr.2, x.1 + x.2 ≤ hbmTop) ∧ (a.reduce ∈ [1, 3, 6, 7] → ∀ g ∈ regionsOf wr.2, regionOpen wr.1 g = false) ∧
  a.ranges.length + rd.2.length + wr.2.length ≤ ((List.range 64).filter fun e => ((s.core (coreOfTeam s.cur)).locks.find e).isNone).length

/-- `GBAR` may act (R338): a launch resident together, a block that is not regrouped, outside any handler. -/
def MayGbar (s : State) (t : Team) (b : Block) (l : Launch) : Prop :=
  t.mute = false ∧ l.cores = true ∧ b.regrouped = false ∧ t.depth = 0 ∧ s.deterministic t = false

/-- The arrivals of a grid barrier with one more, and the ends counted: block and team, stamp, ladle clock. -/
def gridAll (l : Launch) (x : Nat × Nat × Nat) : List (Nat × Nat × Nat) := l.gridArr ++ [x] ++ l.gridEnd

end Sys2Proof.Claims

open Sys2Proof Sys2Proof.Machine Sys2Proof.Claims

/-- R51, R53, R71, R163–R165, R169, R338, R339: the block-wide points, the dictionary word and a stalled engine command complete.
`GBAR` releases at DEVICE scope, arrives with its stamp and blocks; the last arrival also completes the barrier, with the greatest stamp as
its bound and one GBAR record. `REGRP` and `ENDRG` arrive and block. A dictionary word puts its two instructions in its place. A copy
command that waited issues at `ENGINE_COMMAND_ISSUE` as it would have, and its run goes on. -/
def Obligations.FormsComplete : Prop :=
  (∀ (s : State) (t : Team) (r : Run) (n : Nat) (b : Block) (l : Launch), Placed s t n b l → t.run = some r → MayGbar s t b l →
    let rel := publish s (coreOfTeam s.cur) (s.tagFor s.cur) (teamTail s s.cur) 3 (Publisher.all (ctxOfTeam s.cur))
    let mine := (32 * b.index + t.number, rel.2, t.ldclk)
    ∃ s' u, exec .gbar s = .next s' ∧ s'.team s.cur = some u ∧ (u.run.bind Run.blocks) = some .grid ∧ u.regs = t.regs ∧ u.pc = t.pc ∧
      s'.cores = rel.1.cores ∧ s'.home = rel.1.home ∧ s'.blocks = s.blocks ∧
      (gridOpen s l → s'.launch n = some { l with gridArr := l.gridArr ++ [mine] } ∧ s'.recorder = s.recorder) ∧
      (¬ gridOpen s l → (∃ bound w, s'.launch n = some { l with gridArr := [], gridBound := (bound, w) } ∧
          (∀ x ∈ gridAll l mine, x.2.1 ≤ bound) ∧ (∃ x ∈ gridAll l mine, x.2.1 = bound) ∧
          (∀ x ∈ gridAll l mine, x.2.2 < w) ∧ ∃ x ∈ gridAll l mine, x.2.2 + 1 = w) ∧
        ∃ x, s'.recorder.transit = s.recorder.transit ++ [x] ∧ (x.bytes.drop 12).take 2 = [1#8, 1#8])) ∧
  (∀ (s : State) (t : Team) (r : Run) (b : Block) (v : BitVec 4) (o : BitVec 18) (target : Nat), s.team s.cur = some t → t.run = some r →
    s.block t.block = some b → b.regrouped = false → Clean t → t.stack = [] → packetAt r o.toInt target → t.lanes ≤ 1024 →
    (∀ j ∈ lanesOf t.k0 t.lanes, (t.readV s.tick (8 * v.toNat + 6) j).toNat < 4) →
    ∃ digits, exec (.regrp v o) s =
        .next (s.setTeam s.cur { t with run := some { r with blocks := some (.regroup false target digits) } }) ∧
      ∀ j, digits / 8 ^ j % 8 = if j ∈ lanesOf t.k0 t.lanes then 1 + (t.readV s.tick (8 * v.toNat + 6) j).toNat else 0) ∧
  (∀ (s : State) (t : Team) (r : Run) (b : Block), s.team s.cur = some t → t.run = some r → s.block t.block = some b →
    b.regrouped = true → t.ends = false → t.stack = [] →
    exec .endrg s = .next (s.setTeam s.cur { t with run := some { r with blocks := some (.regroup true r.through 0) } })) ∧
  (∀ (s : State) (t : Team) (r : Run) (ch h : BitVec 1) (w w2 : BitVec 2) (i j : BitVec 10) (x y : Nat),
    s.team s.cur = some t → t.run = some r → (dictOf s t)[i.toNat]? = some x → (dictOf s t)[j.toNat]? = some y →
    windowBreaks (vectorLows (x % 2 ^ 31)) w.toNat (x % 2 ^ 31) = false → windowBreaks (vectorLows (y % 2 ^ 31)) w2.toNat (y % 2 ^ 31) = false →
    exec (.dict ch h w i w2 j) s = .next (s.setTeam s.cur { t with run := some { r with
      items := ⟨windowWord (vectorLows (x % 2 ^ 31)) w.toNat (x % 2 ^ 31), r.item.addr, decide (h = 1#1)⟩ ::
        ⟨windowWord (vectorLows (y % 2 ^ 31)) w2.toNat (y % 2 ^ 31), r.item.addr, decide (ch = 1#1)⟩ :: r.items
      item := { r.item with chain := r.inChain } } })) ∧
  ∀ (s s1 : State) (k : Nat) (t0 t : Team) (r0 r : Run) (it : RunItem) (rest : List RunItem) (b : Block) (i : Instr) (n : Nat) (a : CopyAsk),
    s.team k = some t0 → t0.run = some r0 → r0.items = it :: rest → r0.hold = some .retry →
    decodeWord (it.word % 2 ^ 31 + if it.chain then 2 ^ 31 else 0) = .ok i → s1 = { s with cur := k }.modTeam k Team.begin →
    MayIssue s1 t r b n → copyAsk s1 t b i n a → CopyRoom s1 t (advancing t r) a →
    ∃ s2, exec (.engineCommandIssue k) s = .next (finishInstr s2) ∧ CopyIssues s1 s2 t (advancing t r) r b n a
end

