-- ==== Sys2Proof/Laws/Sparse.lean ====
section
/-! SUPPORT. What the keyed stores answer after a write, and that every operation keeps their canonical form. -/

namespace Sys2Proof.Machine

variable {α : Type}

/-! ### Reading after writing -/

@[simp] theorem Sparse.get_put (d : α) (m : Sparse α) (a b : Nat) (v : α) :
    Sparse.get d (Sparse.put m a v) b = if b = a then v else Sparse.get d m b := by
  induction m with
  | nil => rfl
  | cons x m ih =>
    obtain ⟨k, w⟩ := x
    simp only [Sparse.put]
    split
    · rfl
    · split
      · subst a; by_cases h : b = k <;> simp [Sparse.get, h]
      · by_cases h : b = k
        · subst b; simp [Sparse.get]; omega
        · simp [Sparse.get, h, ih]

@[simp] theorem Sparse.get_drop (d : α) (m : Sparse α) (a b : Nat) :
    Sparse.get d (Sparse.drop m a) b = if b = a then d else Sparse.get d m b := by
  induction m with
  | nil => simp [Sparse.drop, Sparse.get]
  | cons x m ih =>
    obtain ⟨k, w⟩ := x
    simp only [Sparse.drop]
    split
    · subst a; rw [ih]; by_cases h : b = k <;> simp [Sparse.get, h]
    · by_cases h : b = k
      · subst b; simp [Sparse.get]; omega
      · simp [Sparse.get, h, ih]

/-- Writing an address changes what that address reads as, and no other. -/
@[simp] theorem Sparse.get_set [DecidableEq α] (d : α) (m : Sparse α) (a b : Nat) (v : α) :
    Sparse.get d (Sparse.set d m a v) b = if b = a then v else Sparse.get d m b := by
  unfold Sparse.set
  split
  · subst v; simp
  · simp

/-- Where `setAll` wrote nothing, the store reads as before. -/
theorem Sparse.get_setAll_of_not_mem [DecidableEq α] (d : α) (key : Nat → Nat) (f : Nat → α) (ls : List Nat) (m : Sparse α)
    (b : Nat) (h : ∀ l ∈ ls, key l ≠ b) : Sparse.get d (Sparse.setAll d m key f ls) b = Sparse.get d m b := by
  induction ls generalizing m with
  | nil => rfl
  | cons k ks ih =>
    rw [Sparse.setAll, ih _ fun l hl => h l (by simp [hl]), Sparse.get_set]
    exact if_neg fun e => h k (by simp) e.symm

/-- Where it wrote, the store reads as the value given. -/
theorem Sparse.get_setAll_of_mem [DecidableEq α] (d : α) (key : Nat → Nat) (f : Nat → α) (ls : List Nat) (m : Sparse α)
    (l : Nat) (hl : l ∈ ls) (inj : ∀ x ∈ ls, key x = key l → x = l) :
    Sparse.get d (Sparse.setAll d m key f ls) (key l) = f l := by
  induction ls generalizing m with
  | nil => simp at hl
  | cons k ks ih =>
    rw [Sparse.setAll]
    by_cases h : l ∈ ks
    · exact ih _ h fun x hx => inj x (by simp [hx])
    · have hk : l = k := by simpa [h] using hl
      subst hk
      rw [Sparse.get_setAll_of_not_mem _ _ _ _ _ _ fun x hx he => h (inj x (List.mem_cons_of_mem _ hx) he ▸ hx)]
      simp

/-! ### Tables -/

@[simp] theorem Table.find_put (m : Table α) (a b : Nat) (v : α) :
    (m.put a v).find b = if b = a then some v else m.find b := by
  unfold Table.put
  induction m with
  | nil => rfl
  | cons x m ih =>
    obtain ⟨k, w⟩ := x
    simp only [Sparse.put]
    split
    · rfl
    · split
      · subst a; by_cases h : b = k <;> simp [Table.find, h]
      · by_cases h : b = k
        · subst b; simp [Table.find]; omega
        · simp [Table.find, h, ih]

@[simp] theorem Table.find_drop (m : Table α) (a b : Nat) : (m.drop a).find b = if b = a then none else m.find b := by
  unfold Table.drop
  induction m with
  | nil => simp [Sparse.drop, Table.find]
  | cons x m ih =>
    obtain ⟨k, w⟩ := x
    simp only [Sparse.drop]
    split
    · subst a; rw [ih]; by_cases h : b = k <;> simp [Table.find, h]
    · by_cases h : b = k
      · subst b; simp [Table.find]; omega
      · simp [Table.find, h, ih]

/-- Changing a record changes the record of that number, and no other. -/
@[simp] theorem Table.find_update (m : Table α) (a b : Nat) (f : α → α) :
    (m.update a f).find b = if b = a then (m.find a).map f else m.find b := by
  unfold Table.update
  cases h : m.find a with
  | none => by_cases hb : b = a <;> simp [hb, h]
  | some v => by_cases hb : b = a <;> simp [hb]

/-! ### The canonical form -/

theorem Sparse.wfFrom_mono [DecidableEq α] {d : α} {m : Sparse α} {lo lo' : Nat} (hl : lo' ≤ lo)
    (h : Sparse.wfFrom d lo m = true) : Sparse.wfFrom d lo' m = true := by
  cases m with
  | nil => rfl
  | cons x m =>
    obtain ⟨k, v⟩ := x
    simp only [Sparse.wfFrom, Bool.and_eq_true, decide_eq_true_eq] at h ⊢
    exact ⟨⟨by omega, h.1.2⟩, h.2⟩

theorem Sparse.wfFrom_put [DecidableEq α] {d v : α} {a : Nat} (hv : v ≠ d) :
    ∀ {lo : Nat} {m : Sparse α}, lo ≤ a → Sparse.wfFrom d lo m = true → Sparse.wfFrom d lo (Sparse.put m a v) = true
  | lo, [], ha, _ => by simp [Sparse.put, Sparse.wfFrom, hv, ha]
  | lo, (k, w) :: m, ha, h => by
    simp only [Sparse.wfFrom, Bool.and_eq_true, decide_eq_true_eq] at h
    simp only [Sparse.put]
    split
    · simp only [Sparse.wfFrom, Bool.and_eq_true, decide_eq_true_eq]
      exact ⟨⟨ha, hv⟩, ⟨by omega, h.1.2⟩, h.2⟩
    · split
      · subst a
        simp only [Sparse.wfFrom, Bool.and_eq_true, decide_eq_true_eq]
        exact ⟨⟨ha, hv⟩, h.2⟩
      · simp only [Sparse.wfFrom, Bool.and_eq_true, decide_eq_true_eq]
        exact ⟨h.1, Sparse.wfFrom_put hv (by omega) h.2⟩

theorem Sparse.wfFrom_drop [DecidableEq α] {d : α} {a : Nat} :
    ∀ {lo : Nat} {m : Sparse α}, Sparse.wfFrom d lo m = true → Sparse.wfFrom d lo (Sparse.drop m a) = true
  | _, [], _ => rfl
  | lo, (k, w) :: m, h => by
    simp only [Sparse.wfFrom, Bool.and_eq_true, decide_eq_true_eq] at h
    simp only [Sparse.drop]
    split
    · exact Sparse.wfFrom_mono (by omega) (Sparse.wfFrom_drop h.2)
    · simp only [Sparse.wfFrom, Bool.and_eq_true, decide_eq_true_eq]
      exact ⟨h.1, Sparse.wfFrom_drop h.2⟩

/-- A write keeps the canonical form. -/
theorem Sparse.wf_set [DecidableEq α] {d : α} {m : Sparse α} (a : Nat) (v : α) (h : Sparse.wf d m = true) :
    Sparse.wf d (Sparse.set d m a v) = true := by
  unfold Sparse.set
  split
  · exact Sparse.wfFrom_drop h
  · exact Sparse.wfFrom_put ‹_› (Nat.zero_le _) h

/-- So do many. -/
theorem Sparse.wf_setAll [DecidableEq α] {d : α} (key : Nat → Nat) (f : Nat → α) (ls : List Nat) :
    ∀ {m : Sparse α}, Sparse.wf d m = true → Sparse.wf d (Sparse.setAll d m key f ls) = true := by
  induction ls with
  | nil => exact fun h => h
  | cons k ks ih => exact fun h => ih (Sparse.wf_set _ _ h)

/-- So does any fold of writes. -/
theorem Sparse.wf_foldl_set [DecidableEq α] {β : Type} {d : α} (key : β → Nat) (f : β → α) (ls : List β) :
    ∀ {m : Sparse α}, Sparse.wf d m = true → Sparse.wf d (ls.foldl (fun m x => Sparse.set d m (key x) (f x)) m) = true := by
  induction ls with
  | nil => exact fun h => h
  | cons k ks ih => exact fun h => ih (Sparse.wf_set _ _ h)

end Sys2Proof.Machine
end

