-- ==== Sys2Proof/Laws/State.lean ====
section
/-! SUPPORT. What each update of the state leaves in each field and what it answers to each reading: one lemma for each. -/

namespace Sys2Proof.Machine

variable (s : State)

/-! ### `setTeam` -/

@[simp] theorem State.setTeam_cur (k : Nat) (x : Team) : (s.setTeam k x).cur = s.cur := rfl
@[simp] theorem State.setTeam_blocks (k : Nat) (x : Team) : (s.setTeam k x).blocks = s.blocks := rfl
@[simp] theorem State.setTeam_cores (k : Nat) (x : Team) : (s.setTeam k x).cores = s.cores := rfl
@[simp] theorem State.setTeam_clusters (k : Nat) (x : Team) : (s.setTeam k x).clusters = s.clusters := rfl
@[simp] theorem State.setTeam_contexts (k : Nat) (x : Team) : (s.setTeam k x).contexts = s.contexts := rfl
@[simp] theorem State.setTeam_launches (k : Nat) (x : Team) : (s.setTeam k x).launches = s.launches := rfl
@[simp] theorem State.setTeam_cmds (k : Nat) (x : Team) : (s.setTeam k x).cmds = s.cmds := rfl
@[simp] theorem State.setTeam_home (k : Nat) (x : Team) : (s.setTeam k x).home = s.home := rfl
@[simp] theorem State.setTeam_hub (k : Nat) (x : Team) : (s.setTeam k x).hub = s.hub := rfl
@[simp] theorem State.setTeam_recorder (k : Nat) (x : Team) : (s.setTeam k x).recorder = s.recorder := rfl
@[simp] theorem State.setTeam_capture (k : Nat) (x : Team) : (s.setTeam k x).capture = s.capture := rfl
@[simp] theorem State.setTeam_journal (k : Nat) (x : Team) : (s.setTeam k x).journal = s.journal := rfl
@[simp] theorem State.setTeam_module (k : Nat) (x : Team) : (s.setTeam k x).module = s.module := rfl
@[simp] theorem State.setTeam_time (k : Nat) (x : Team) : (s.setTeam k x).time = s.time := rfl
@[simp] theorem State.setTeam_frac (k : Nat) (x : Team) : (s.setTeam k x).frac = s.frac := rfl
@[simp] theorem State.setTeam_cycles (k : Nat) (x : Team) : (s.setTeam k x).cycles = s.cycles := rfl
@[simp] theorem State.setTeam_agenda (k : Nat) (x : Team) : (s.setTeam k x).agenda = s.agenda := rfl
@[simp] theorem State.setTeam_tick (k : Nat) (x : Team) : (s.setTeam k x).tick = s.tick := rfl
@[simp] theorem State.setTeam_team_eq (k : Nat) (x : Team) (j : Nat) :
    (s.setTeam k x).team j = if j = k then some x else s.team j := by simp [State.setTeam, State.team]
@[simp] theorem State.setTeam_block_eq (k : Nat) (x : Team) (j : Nat) : (s.setTeam k x).block j = s.block j := rfl
@[simp] theorem State.setTeam_core_eq (k : Nat) (x : Team) (j : Nat) : (s.setTeam k x).core j = s.core j := rfl
@[simp] theorem State.setTeam_cluster_eq (k : Nat) (x : Team) (j : Nat) : (s.setTeam k x).cluster j = s.cluster j := rfl
@[simp] theorem State.setTeam_context_eq (k : Nat) (x : Team) (j : Nat) : (s.setTeam k x).context j = s.context j := rfl
@[simp] theorem State.setTeam_launch_eq (k : Nat) (x : Team) (j : Nat) : (s.setTeam k x).launch j = s.launch j := rfl
@[simp] theorem State.setTeam_cmd_eq (k : Nat) (x : Team) (j : Nat) : (s.setTeam k x).cmd j = s.cmd j := rfl

/-! ### `modTeam` -/

@[simp] theorem State.modTeam_cur (k : Nat) (f : Team → Team) : (s.modTeam k f).cur = s.cur := rfl
@[simp] theorem State.modTeam_blocks (k : Nat) (f : Team → Team) : (s.modTeam k f).blocks = s.blocks := rfl
@[simp] theorem State.modTeam_cores (k : Nat) (f : Team → Team) : (s.modTeam k f).cores = s.cores := rfl
@[simp] theorem State.modTeam_clusters (k : Nat) (f : Team → Team) : (s.modTeam k f).clusters = s.clusters := rfl
@[simp] theorem State.modTeam_contexts (k : Nat) (f : Team → Team) : (s.modTeam k f).contexts = s.contexts := rfl
@[simp] theorem State.modTeam_launches (k : Nat) (f : Team → Team) : (s.modTeam k f).launches = s.launches := rfl
@[simp] theorem State.modTeam_cmds (k : Nat) (f : Team → Team) : (s.modTeam k f).cmds = s.cmds := rfl
@[simp] theorem State.modTeam_home (k : Nat) (f : Team → Team) : (s.modTeam k f).home = s.home := rfl
@[simp] theorem State.modTeam_hub (k : Nat) (f : Team → Team) : (s.modTeam k f).hub = s.hub := rfl
@[simp] theorem State.modTeam_recorder (k : Nat) (f : Team → Team) : (s.modTeam k f).recorder = s.recorder := rfl
@[simp] theorem State.modTeam_capture (k : Nat) (f : Team → Team) : (s.modTeam k f).capture = s.capture := rfl
@[simp] theorem State.modTeam_journal (k : Nat) (f : Team → Team) : (s.modTeam k f).journal = s.journal := rfl
@[simp] theorem State.modTeam_module (k : Nat) (f : Team → Team) : (s.modTeam k f).module = s.module := rfl
@[simp] theorem State.modTeam_time (k : Nat) (f : Team → Team) : (s.modTeam k f).time = s.time := rfl
@[simp] theorem State.modTeam_frac (k : Nat) (f : Team → Team) : (s.modTeam k f).frac = s.frac := rfl
@[simp] theorem State.modTeam_cycles (k : Nat) (f : Team → Team) : (s.modTeam k f).cycles = s.cycles := rfl
@[simp] theorem State.modTeam_agenda (k : Nat) (f : Team → Team) : (s.modTeam k f).agenda = s.agenda := rfl
@[simp] theorem State.modTeam_tick (k : Nat) (f : Team → Team) : (s.modTeam k f).tick = s.tick := rfl
@[simp] theorem State.modTeam_team_eq (k : Nat) (f : Team → Team) (j : Nat) :
    (s.modTeam k f).team j = if j = k then (s.team k).map f else s.team j := by simp [State.modTeam, State.team]
@[simp] theorem State.modTeam_block_eq (k : Nat) (f : Team → Team) (j : Nat) : (s.modTeam k f).block j = s.block j := rfl
@[simp] theorem State.modTeam_core_eq (k : Nat) (f : Team → Team) (j : Nat) : (s.modTeam k f).core j = s.core j := rfl
@[simp] theorem State.modTeam_cluster_eq (k : Nat) (f : Team → Team) (j : Nat) : (s.modTeam k f).cluster j = s.cluster j := rfl
@[simp] theorem State.modTeam_context_eq (k : Nat) (f : Team → Team) (j : Nat) : (s.modTeam k f).context j = s.context j := rfl
@[simp] theorem State.modTeam_launch_eq (k : Nat) (f : Team → Team) (j : Nat) : (s.modTeam k f).launch j = s.launch j := rfl
@[simp] theorem State.modTeam_cmd_eq (k : Nat) (f : Team → Team) (j : Nat) : (s.modTeam k f).cmd j = s.cmd j := rfl

/-! ### `setBlock` -/

@[simp] theorem State.setBlock_cur (k : Nat) (x : Block) : (s.setBlock k x).cur = s.cur := rfl
@[simp] theorem State.setBlock_teams (k : Nat) (x : Block) : (s.setBlock k x).teams = s.teams := rfl
@[simp] theorem State.setBlock_cores (k : Nat) (x : Block) : (s.setBlock k x).cores = s.cores := rfl
@[simp] theorem State.setBlock_clusters (k : Nat) (x : Block) : (s.setBlock k x).clusters = s.clusters := rfl
@[simp] theorem State.setBlock_contexts (k : Nat) (x : Block) : (s.setBlock k x).contexts = s.contexts := rfl
@[simp] theorem State.setBlock_launches (k : Nat) (x : Block) : (s.setBlock k x).launches = s.launches := rfl
@[simp] theorem State.setBlock_cmds (k : Nat) (x : Block) : (s.setBlock k x).cmds = s.cmds := rfl
@[simp] theorem State.setBlock_home (k : Nat) (x : Block) : (s.setBlock k x).home = s.home := rfl
@[simp] theorem State.setBlock_hub (k : Nat) (x : Block) : (s.setBlock k x).hub = s.hub := rfl
@[simp] theorem State.setBlock_recorder (k : Nat) (x : Block) : (s.setBlock k x).recorder = s.recorder := rfl
@[simp] theorem State.setBlock_capture (k : Nat) (x : Block) : (s.setBlock k x).capture = s.capture := rfl
@[simp] theorem State.setBlock_journal (k : Nat) (x : Block) : (s.setBlock k x).journal = s.journal := rfl
@[simp] theorem State.setBlock_module (k : Nat) (x : Block) : (s.setBlock k x).module = s.module := rfl
@[simp] theorem State.setBlock_time (k : Nat) (x : Block) : (s.setBlock k x).time = s.time := rfl
@[simp] theorem State.setBlock_frac (k : Nat) (x : Block) : (s.setBlock k x).frac = s.frac := rfl
@[simp] theorem State.setBlock_cycles (k : Nat) (x : Block) : (s.setBlock k x).cycles = s.cycles := rfl
@[simp] theorem State.setBlock_agenda (k : Nat) (x : Block) : (s.setBlock k x).agenda = s.agenda := rfl
@[simp] theorem State.setBlock_tick (k : Nat) (x : Block) : (s.setBlock k x).tick = s.tick := rfl
@[simp] theorem State.setBlock_team_eq (k : Nat) (x : Block) (j : Nat) : (s.setBlock k x).team j = s.team j := rfl
@[simp] theorem State.setBlock_block_eq (k : Nat) (x : Block) (j : Nat) :
    (s.setBlock k x).block j = if j = k then some x else s.block j := by simp [State.setBlock, State.block]
@[simp] theorem State.setBlock_core_eq (k : Nat) (x : Block) (j : Nat) : (s.setBlock k x).core j = s.core j := rfl
@[simp] theorem State.setBlock_cluster_eq (k : Nat) (x : Block) (j : Nat) : (s.setBlock k x).cluster j = s.cluster j := rfl
@[simp] theorem State.setBlock_context_eq (k : Nat) (x : Block) (j : Nat) : (s.setBlock k x).context j = s.context j := rfl
@[simp] theorem State.setBlock_launch_eq (k : Nat) (x : Block) (j : Nat) : (s.setBlock k x).launch j = s.launch j := rfl
@[simp] theorem State.setBlock_cmd_eq (k : Nat) (x : Block) (j : Nat) : (s.setBlock k x).cmd j = s.cmd j := rfl

/-! ### `modBlock` -/

@[simp] theorem State.modBlock_cur (k : Nat) (f : Block → Block) : (s.modBlock k f).cur = s.cur := rfl
@[simp] theorem State.modBlock_teams (k : Nat) (f : Block → Block) : (s.modBlock k f).teams = s.teams := rfl
@[simp] theorem State.modBlock_cores (k : Nat) (f : Block → Block) : (s.modBlock k f).cores = s.cores := rfl
@[simp] theorem State.modBlock_clusters (k : Nat) (f : Block → Block) : (s.modBlock k f).clusters = s.clusters := rfl
@[simp] theorem State.modBlock_contexts (k : Nat) (f : Block → Block) : (s.modBlock k f).contexts = s.contexts := rfl
@[simp] theorem State.modBlock_launches (k : Nat) (f : Block → Block) : (s.modBlock k f).launches = s.launches := rfl
@[simp] theorem State.modBlock_cmds (k : Nat) (f : Block → Block) : (s.modBlock k f).cmds = s.cmds := rfl
@[simp] theorem State.modBlock_home (k : Nat) (f : Block → Block) : (s.modBlock k f).home = s.home := rfl
@[simp] theorem State.modBlock_hub (k : Nat) (f : Block → Block) : (s.modBlock k f).hub = s.hub := rfl
@[simp] theorem State.modBlock_recorder (k : Nat) (f : Block → Block) : (s.modBlock k f).recorder = s.recorder := rfl
@[simp] theorem State.modBlock_capture (k : Nat) (f : Block → Block) : (s.modBlock k f).capture = s.capture := rfl
@[simp] theorem State.modBlock_journal (k : Nat) (f : Block → Block) : (s.modBlock k f).journal = s.journal := rfl
@[simp] theorem State.modBlock_module (k : Nat) (f : Block → Block) : (s.modBlock k f).module = s.module := rfl
@[simp] theorem State.modBlock_time (k : Nat) (f : Block → Block) : (s.modBlock k f).time = s.time := rfl
@[simp] theorem State.modBlock_frac (k : Nat) (f : Block → Block) : (s.modBlock k f).frac = s.frac := rfl
@[simp] theorem State.modBlock_cycles (k : Nat) (f : Block → Block) : (s.modBlock k f).cycles = s.cycles := rfl
@[simp] theorem State.modBlock_agenda (k : Nat) (f : Block → Block) : (s.modBlock k f).agenda = s.agenda := rfl
@[simp] theorem State.modBlock_tick (k : Nat) (f : Block → Block) : (s.modBlock k f).tick = s.tick := rfl
@[simp] theorem State.modBlock_team_eq (k : Nat) (f : Block → Block) (j : Nat) : (s.modBlock k f).team j = s.team j := rfl
@[simp] theorem State.modBlock_block_eq (k : Nat) (f : Block → Block) (j : Nat) :
    (s.modBlock k f).block j = if j = k then (s.block k).map f else s.block j := by simp [State.modBlock, State.block]
@[simp] theorem State.modBlock_core_eq (k : Nat) (f : Block → Block) (j : Nat) : (s.modBlock k f).core j = s.core j := rfl
@[simp] theorem State.modBlock_cluster_eq (k : Nat) (f : Block → Block) (j : Nat) : (s.modBlock k f).cluster j = s.cluster j := rfl
@[simp] theorem State.modBlock_context_eq (k : Nat) (f : Block → Block) (j : Nat) : (s.modBlock k f).context j = s.context j := rfl
@[simp] theorem State.modBlock_launch_eq (k : Nat) (f : Block → Block) (j : Nat) : (s.modBlock k f).launch j = s.launch j := rfl
@[simp] theorem State.modBlock_cmd_eq (k : Nat) (f : Block → Block) (j : Nat) : (s.modBlock k f).cmd j = s.cmd j := rfl

/-! ### `setCore` -/

@[simp] theorem State.setCore_cur (k : Nat) (x : Core) : (s.setCore k x).cur = s.cur := rfl
@[simp] theorem State.setCore_teams (k : Nat) (x : Core) : (s.setCore k x).teams = s.teams := rfl
@[simp] theorem State.setCore_blocks (k : Nat) (x : Core) : (s.setCore k x).blocks = s.blocks := rfl
@[simp] theorem State.setCore_clusters (k : Nat) (x : Core) : (s.setCore k x).clusters = s.clusters := rfl
@[simp] theorem State.setCore_contexts (k : Nat) (x : Core) : (s.setCore k x).contexts = s.contexts := rfl
@[simp] theorem State.setCore_launches (k : Nat) (x : Core) : (s.setCore k x).launches = s.launches := rfl
@[simp] theorem State.setCore_cmds (k : Nat) (x : Core) : (s.setCore k x).cmds = s.cmds := rfl
@[simp] theorem State.setCore_home (k : Nat) (x : Core) : (s.setCore k x).home = s.home := rfl
@[simp] theorem State.setCore_hub (k : Nat) (x : Core) : (s.setCore k x).hub = s.hub := rfl
@[simp] theorem State.setCore_recorder (k : Nat) (x : Core) : (s.setCore k x).recorder = s.recorder := rfl
@[simp] theorem State.setCore_capture (k : Nat) (x : Core) : (s.setCore k x).capture = s.capture := rfl
@[simp] theorem State.setCore_journal (k : Nat) (x : Core) : (s.setCore k x).journal = s.journal := rfl
@[simp] theorem State.setCore_module (k : Nat) (x : Core) : (s.setCore k x).module = s.module := rfl
@[simp] theorem State.setCore_time (k : Nat) (x : Core) : (s.setCore k x).time = s.time := rfl
@[simp] theorem State.setCore_frac (k : Nat) (x : Core) : (s.setCore k x).frac = s.frac := rfl
@[simp] theorem State.setCore_cycles (k : Nat) (x : Core) : (s.setCore k x).cycles = s.cycles := rfl
@[simp] theorem State.setCore_agenda (k : Nat) (x : Core) : (s.setCore k x).agenda = s.agenda := rfl
@[simp] theorem State.setCore_tick (k : Nat) (x : Core) : (s.setCore k x).tick = s.tick := rfl
@[simp] theorem State.setCore_team_eq (k : Nat) (x : Core) (j : Nat) : (s.setCore k x).team j = s.team j := rfl
@[simp] theorem State.setCore_block_eq (k : Nat) (x : Core) (j : Nat) : (s.setCore k x).block j = s.block j := rfl
@[simp] theorem State.setCore_core_eq (k : Nat) (x : Core) (j : Nat) :
    (s.setCore k x).core j = if j = k then x else s.core j := by
  unfold State.setCore State.core; rw [Table.find_put]; split <;> rfl
@[simp] theorem State.setCore_cluster_eq (k : Nat) (x : Core) (j : Nat) : (s.setCore k x).cluster j = s.cluster j := rfl
@[simp] theorem State.setCore_context_eq (k : Nat) (x : Core) (j : Nat) : (s.setCore k x).context j = s.context j := rfl
@[simp] theorem State.setCore_launch_eq (k : Nat) (x : Core) (j : Nat) : (s.setCore k x).launch j = s.launch j := rfl
@[simp] theorem State.setCore_cmd_eq (k : Nat) (x : Core) (j : Nat) : (s.setCore k x).cmd j = s.cmd j := rfl

/-! ### `modCore` -/

@[simp] theorem State.modCore_cur (k : Nat) (f : Core → Core) : (s.modCore k f).cur = s.cur := rfl
@[simp] theorem State.modCore_teams (k : Nat) (f : Core → Core) : (s.modCore k f).teams = s.teams := rfl
@[simp] theorem State.modCore_blocks (k : Nat) (f : Core → Core) : (s.modCore k f).blocks = s.blocks := rfl
@[simp] theorem State.modCore_clusters (k : Nat) (f : Core → Core) : (s.modCore k f).clusters = s.clusters := rfl
@[simp] theorem State.modCore_contexts (k : Nat) (f : Core → Core) : (s.modCore k f).contexts = s.contexts := rfl
@[simp] theorem State.modCore_launches (k : Nat) (f : Core → Core) : (s.modCore k f).launches = s.launches := rfl
@[simp] theorem State.modCore_cmds (k : Nat) (f : Core → Core) : (s.modCore k f).cmds = s.cmds := rfl
@[simp] theorem State.modCore_home (k : Nat) (f : Core → Core) : (s.modCore k f).home = s.home := rfl
@[simp] theorem State.modCore_hub (k : Nat) (f : Core → Core) : (s.modCore k f).hub = s.hub := rfl
@[simp] theorem State.modCore_recorder (k : Nat) (f : Core → Core) : (s.modCore k f).recorder = s.recorder := rfl
@[simp] theorem State.modCore_capture (k : Nat) (f : Core → Core) : (s.modCore k f).capture = s.capture := rfl
@[simp] theorem State.modCore_journal (k : Nat) (f : Core → Core) : (s.modCore k f).journal = s.journal := rfl
@[simp] theorem State.modCore_module (k : Nat) (f : Core → Core) : (s.modCore k f).module = s.module := rfl
@[simp] theorem State.modCore_time (k : Nat) (f : Core → Core) : (s.modCore k f).time = s.time := rfl
@[simp] theorem State.modCore_frac (k : Nat) (f : Core → Core) : (s.modCore k f).frac = s.frac := rfl
@[simp] theorem State.modCore_cycles (k : Nat) (f : Core → Core) : (s.modCore k f).cycles = s.cycles := rfl
@[simp] theorem State.modCore_agenda (k : Nat) (f : Core → Core) : (s.modCore k f).agenda = s.agenda := rfl
@[simp] theorem State.modCore_tick (k : Nat) (f : Core → Core) : (s.modCore k f).tick = s.tick := rfl
@[simp] theorem State.modCore_team_eq (k : Nat) (f : Core → Core) (j : Nat) : (s.modCore k f).team j = s.team j := rfl
@[simp] theorem State.modCore_block_eq (k : Nat) (f : Core → Core) (j : Nat) : (s.modCore k f).block j = s.block j := rfl
@[simp] theorem State.modCore_core_eq (k : Nat) (f : Core → Core) (j : Nat) :
    (s.modCore k f).core j = if j = k then f (s.core k) else s.core j := by
  unfold State.modCore State.setCore State.core; rw [Table.find_put]; split <;> rfl
@[simp] theorem State.modCore_cluster_eq (k : Nat) (f : Core → Core) (j : Nat) : (s.modCore k f).cluster j = s.cluster j := rfl
@[simp] theorem State.modCore_context_eq (k : Nat) (f : Core → Core) (j : Nat) : (s.modCore k f).context j = s.context j := rfl
@[simp] theorem State.modCore_launch_eq (k : Nat) (f : Core → Core) (j : Nat) : (s.modCore k f).launch j = s.launch j := rfl
@[simp] theorem State.modCore_cmd_eq (k : Nat) (f : Core → Core) (j : Nat) : (s.modCore k f).cmd j = s.cmd j := rfl

/-! ### `setCluster` -/

@[simp] theorem State.setCluster_cur (k : Nat) (x : Cluster) : (s.setCluster k x).cur = s.cur := rfl
@[simp] theorem State.setCluster_teams (k : Nat) (x : Cluster) : (s.setCluster k x).teams = s.teams := rfl
@[simp] theorem State.setCluster_blocks (k : Nat) (x : Cluster) : (s.setCluster k x).blocks = s.blocks := rfl
@[simp] theorem State.setCluster_cores (k : Nat) (x : Cluster) : (s.setCluster k x).cores = s.cores := rfl
@[simp] theorem State.setCluster_contexts (k : Nat) (x : Cluster) : (s.setCluster k x).contexts = s.contexts := rfl
@[simp] theorem State.setCluster_launches (k : Nat) (x : Cluster) : (s.setCluster k x).launches = s.launches := rfl
@[simp] theorem State.setCluster_cmds (k : Nat) (x : Cluster) : (s.setCluster k x).cmds = s.cmds := rfl
@[simp] theorem State.setCluster_home (k : Nat) (x : Cluster) : (s.setCluster k x).home = s.home := rfl
@[simp] theorem State.setCluster_hub (k : Nat) (x : Cluster) : (s.setCluster k x).hub = s.hub := rfl
@[simp] theorem State.setCluster_recorder (k : Nat) (x : Cluster) : (s.setCluster k x).recorder = s.recorder := rfl
@[simp] theorem State.setCluster_capture (k : Nat) (x : Cluster) : (s.setCluster k x).capture = s.capture := rfl
@[simp] theorem State.setCluster_journal (k : Nat) (x : Cluster) : (s.setCluster k x).journal = s.journal := rfl
@[simp] theorem State.setCluster_module (k : Nat) (x : Cluster) : (s.setCluster k x).module = s.module := rfl
@[simp] theorem State.setCluster_time (k : Nat) (x : Cluster) : (s.setCluster k x).time = s.time := rfl
@[simp] theorem State.setCluster_frac (k : Nat) (x : Cluster) : (s.setCluster k x).frac = s.frac := rfl
@[simp] theorem State.setCluster_cycles (k : Nat) (x : Cluster) : (s.setCluster k x).cycles = s.cycles := rfl
@[simp] theorem State.setCluster_agenda (k : Nat) (x : Cluster) : (s.setCluster k x).agenda = s.agenda := rfl
@[simp] theorem State.setCluster_tick (k : Nat) (x : Cluster) : (s.setCluster k x).tick = s.tick := rfl
@[simp] theorem State.setCluster_team_eq (k : Nat) (x : Cluster) (j : Nat) : (s.setCluster k x).team j = s.team j := rfl
@[simp] theorem State.setCluster_block_eq (k : Nat) (x : Cluster) (j : Nat) : (s.setCluster k x).block j = s.block j := rfl
@[simp] theorem State.setCluster_core_eq (k : Nat) (x : Cluster) (j : Nat) : (s.setCluster k x).core j = s.core j := rfl
@[simp] theorem State.setCluster_cluster_eq (k : Nat) (x : Cluster) (j : Nat) :
    (s.setCluster k x).cluster j = if j = k then x else s.cluster j := by
  unfold State.setCluster State.cluster; rw [Table.find_put]; split <;> rfl
@[simp] theorem State.setCluster_context_eq (k : Nat) (x : Cluster) (j : Nat) : (s.setCluster k x).context j = s.context j := rfl
@[simp] theorem State.setCluster_launch_eq (k : Nat) (x : Cluster) (j : Nat) : (s.setCluster k x).launch j = s.launch j := rfl
@[simp] theorem State.setCluster_cmd_eq (k : Nat) (x : Cluster) (j : Nat) : (s.setCluster k x).cmd j = s.cmd j := rfl

/-! ### `modCluster` -/

@[simp] theorem State.modCluster_cur (k : Nat) (f : Cluster → Cluster) : (s.modCluster k f).cur = s.cur := rfl
@[simp] theorem State.modCluster_teams (k : Nat) (f : Cluster → Cluster) : (s.modCluster k f).teams = s.teams := rfl
@[simp] theorem State.modCluster_blocks (k : Nat) (f : Cluster → Cluster) : (s.modCluster k f).blocks = s.blocks := rfl
@[simp] theorem State.modCluster_cores (k : Nat) (f : Cluster → Cluster) : (s.modCluster k f).cores = s.cores := rfl
@[simp] theorem State.modCluster_contexts (k : Nat) (f : Cluster → Cluster) : (s.modCluster k f).contexts = s.contexts := rfl
@[simp] theorem State.modCluster_launches (k : Nat) (f : Cluster → Cluster) : (s.modCluster k f).launches = s.launches := rfl
@[simp] theorem State.modCluster_cmds (k : Nat) (f : Cluster → Cluster) : (s.modCluster k f).cmds = s.cmds := rfl
@[simp] theorem State.modCluster_home (k : Nat) (f : Cluster → Cluster) : (s.modCluster k f).home = s.home := rfl
@[simp] theorem State.modCluster_hub (k : Nat) (f : Cluster → Cluster) : (s.modCluster k f).hub = s.hub := rfl
@[simp] theorem State.modCluster_recorder (k : Nat) (f : Cluster → Cluster) : (s.modCluster k f).recorder = s.recorder := rfl
@[simp] theorem State.modCluster_capture (k : Nat) (f : Cluster → Cluster) : (s.modCluster k f).capture = s.capture := rfl
@[simp] theorem State.modCluster_journal (k : Nat) (f : Cluster → Cluster) : (s.modCluster k f).journal = s.journal := rfl
@[simp] theorem State.modCluster_module (k : Nat) (f : Cluster → Cluster) : (s.modCluster k f).module = s.module := rfl
@[simp] theorem State.modCluster_time (k : Nat) (f : Cluster → Cluster) : (s.modCluster k f).time = s.time := rfl
@[simp] theorem State.modCluster_frac (k : Nat) (f : Cluster → Cluster) : (s.modCluster k f).frac = s.frac := rfl
@[simp] theorem State.modCluster_cycles (k : Nat) (f : Cluster → Cluster) : (s.modCluster k f).cycles = s.cycles := rfl
@[simp] theorem State.modCluster_agenda (k : Nat) (f : Cluster → Cluster) : (s.modCluster k f).agenda = s.agenda := rfl
@[simp] theorem State.modCluster_tick (k : Nat) (f : Cluster → Cluster) : (s.modCluster k f).tick = s.tick := rfl
@[simp] theorem State.modCluster_team_eq (k : Nat) (f : Cluster → Cluster) (j : Nat) : (s.modCluster k f).team j = s.team j := rfl
@[simp] theorem State.modCluster_block_eq (k : Nat) (f : Cluster → Cluster) (j : Nat) : (s.modCluster k f).block j = s.block j := rfl
@[simp] theorem State.modCluster_core_eq (k : Nat) (f : Cluster → Cluster) (j : Nat) : (s.modCluster k f).core j = s.core j := rfl
@[simp] theorem State.modCluster_cluster_eq (k : Nat) (f : Cluster → Cluster) (j : Nat) :
    (s.modCluster k f).cluster j = if j = k then f (s.cluster k) else s.cluster j := by
  unfold State.modCluster State.setCluster State.cluster; rw [Table.find_put]; split <;> rfl
@[simp] theorem State.modCluster_context_eq (k : Nat) (f : Cluster → Cluster) (j : Nat) : (s.modCluster k f).context j = s.context j := rfl
@[simp] theorem State.modCluster_launch_eq (k : Nat) (f : Cluster → Cluster) (j : Nat) : (s.modCluster k f).launch j = s.launch j := rfl
@[simp] theorem State.modCluster_cmd_eq (k : Nat) (f : Cluster → Cluster) (j : Nat) : (s.modCluster k f).cmd j = s.cmd j := rfl

/-! ### `setContext` -/

@[simp] theorem State.setContext_cur (k : Nat) (x : Context) : (s.setContext k x).cur = s.cur := rfl
@[simp] theorem State.setContext_teams (k : Nat) (x : Context) : (s.setContext k x).teams = s.teams := rfl
@[simp] theorem State.setContext_blocks (k : Nat) (x : Context) : (s.setContext k x).blocks = s.blocks := rfl
@[simp] theorem State.setContext_cores (k : Nat) (x : Context) : (s.setContext k x).cores = s.cores := rfl
@[simp] theorem State.setContext_clusters (k : Nat) (x : Context) : (s.setContext k x).clusters = s.clusters := rfl
@[simp] theorem State.setContext_launches (k : Nat) (x : Context) : (s.setContext k x).launches = s.launches := rfl
@[simp] theorem State.setContext_cmds (k : Nat) (x : Context) : (s.setContext k x).cmds = s.cmds := rfl
@[simp] theorem State.setContext_home (k : Nat) (x : Context) : (s.setContext k x).home = s.home := rfl
@[simp] theorem State.setContext_hub (k : Nat) (x : Context) : (s.setContext k x).hub = s.hub := rfl
@[simp] theorem State.setContext_recorder (k : Nat) (x : Context) : (s.setContext k x).recorder = s.recorder := rfl
@[simp] theorem State.setContext_capture (k : Nat) (x : Context) : (s.setContext k x).capture = s.capture := rfl
@[simp] theorem State.setContext_journal (k : Nat) (x : Context) : (s.setContext k x).journal = s.journal := rfl
@[simp] theorem State.setContext_module (k : Nat) (x : Context) : (s.setContext k x).module = s.module := rfl
@[simp] theorem State.setContext_time (k : Nat) (x : Context) : (s.setContext k x).time = s.time := rfl
@[simp] theorem State.setContext_frac (k : Nat) (x : Context) : (s.setContext k x).frac = s.frac := rfl
@[simp] theorem State.setContext_cycles (k : Nat) (x : Context) : (s.setContext k x).cycles = s.cycles := rfl
@[simp] theorem State.setContext_agenda (k : Nat) (x : Context) : (s.setContext k x).agenda = s.agenda := rfl
@[simp] theorem State.setContext_tick (k : Nat) (x : Context) : (s.setContext k x).tick = s.tick := rfl
@[simp] theorem State.setContext_team_eq (k : Nat) (x : Context) (j : Nat) : (s.setContext k x).team j = s.team j := rfl
@[simp] theorem State.setContext_block_eq (k : Nat) (x : Context) (j : Nat) : (s.setContext k x).block j = s.block j := rfl
@[simp] theorem State.setContext_core_eq (k : Nat) (x : Context) (j : Nat) : (s.setContext k x).core j = s.core j := rfl
@[simp] theorem State.setContext_cluster_eq (k : Nat) (x : Context) (j : Nat) : (s.setContext k x).cluster j = s.cluster j := rfl
@[simp] theorem State.setContext_context_eq (k : Nat) (x : Context) (j : Nat) :
    (s.setContext k x).context j = if j = k then x else s.context j := by
  unfold State.setContext State.context; rw [Table.find_put]; split <;> rfl
@[simp] theorem State.setContext_launch_eq (k : Nat) (x : Context) (j : Nat) : (s.setContext k x).launch j = s.launch j := rfl
@[simp] theorem State.setContext_cmd_eq (k : Nat) (x : Context) (j : Nat) : (s.setContext k x).cmd j = s.cmd j := rfl

/-! ### `modContext` -/

@[simp] theorem State.modContext_cur (k : Nat) (f : Context → Context) : (s.modContext k f).cur = s.cur := rfl
@[simp] theorem State.modContext_teams (k : Nat) (f : Context → Context) : (s.modContext k f).teams = s.teams := rfl
@[simp] theorem State.modContext_blocks (k : Nat) (f : Context → Context) : (s.modContext k f).blocks = s.blocks := rfl
@[simp] theorem State.modContext_cores (k : Nat) (f : Context → Context) : (s.modContext k f).cores = s.cores := rfl
@[simp] theorem State.modContext_clusters (k : Nat) (f : Context → Context) : (s.modContext k f).clusters = s.clusters := rfl
@[simp] theorem State.modContext_launches (k : Nat) (f : Context → Context) : (s.modContext k f).launches = s.launches := rfl
@[simp] theorem State.modContext_cmds (k : Nat) (f : Context → Context) : (s.modContext k f).cmds = s.cmds := rfl
@[simp] theorem State.modContext_home (k : Nat) (f : Context → Context) : (s.modContext k f).home = s.home := rfl
@[simp] theorem State.modContext_hub (k : Nat) (f : Context → Context) : (s.modContext k f).hub = s.hub := rfl
@[simp] theorem State.modContext_recorder (k : Nat) (f : Context → Context) : (s.modContext k f).recorder = s.recorder := rfl
@[simp] theorem State.modContext_capture (k : Nat) (f : Context → Context) : (s.modContext k f).capture = s.capture := rfl
@[simp] theorem State.modContext_journal (k : Nat) (f : Context → Context) : (s.modContext k f).journal = s.journal := rfl
@[simp] theorem State.modContext_module (k : Nat) (f : Context → Context) : (s.modContext k f).module = s.module := rfl
@[simp] theorem State.modContext_time (k : Nat) (f : Context → Context) : (s.modContext k f).time = s.time := rfl
@[simp] theorem State.modContext_frac (k : Nat) (f : Context → Context) : (s.modContext k f).frac = s.frac := rfl
@[simp] theorem State.modContext_cycles (k : Nat) (f : Context → Context) : (s.modContext k f).cycles = s.cycles := rfl
@[simp] theorem State.modContext_agenda (k : Nat) (f : Context → Context) : (s.modContext k f).agenda = s.agenda := rfl
@[simp] theorem State.modContext_tick (k : Nat) (f : Context → Context) : (s.modContext k f).tick = s.tick := rfl
@[simp] theorem State.modContext_team_eq (k : Nat) (f : Context → Context) (j : Nat) : (s.modContext k f).team j = s.team j := rfl
@[simp] theorem State.modContext_block_eq (k : Nat) (f : Context → Context) (j : Nat) : (s.modContext k f).block j = s.block j := rfl
@[simp] theorem State.modContext_core_eq (k : Nat) (f : Context → Context) (j : Nat) : (s.modContext k f).core j = s.core j := rfl
@[simp] theorem State.modContext_cluster_eq (k : Nat) (f : Context → Context) (j : Nat) : (s.modContext k f).cluster j = s.cluster j := rfl
@[simp] theorem State.modContext_context_eq (k : Nat) (f : Context → Context) (j : Nat) :
    (s.modContext k f).context j = if j = k then f (s.context k) else s.context j := by
  unfold State.modContext State.setContext State.context; rw [Table.find_put]; split <;> rfl
@[simp] theorem State.modContext_launch_eq (k : Nat) (f : Context → Context) (j : Nat) : (s.modContext k f).launch j = s.launch j := rfl
@[simp] theorem State.modContext_cmd_eq (k : Nat) (f : Context → Context) (j : Nat) : (s.modContext k f).cmd j = s.cmd j := rfl

/-! ### `setLaunch` -/

@[simp] theorem State.setLaunch_cur (k : Nat) (x : Launch) : (s.setLaunch k x).cur = s.cur := rfl
@[simp] theorem State.setLaunch_teams (k : Nat) (x : Launch) : (s.setLaunch k x).teams = s.teams := rfl
@[simp] theorem State.setLaunch_blocks (k : Nat) (x : Launch) : (s.setLaunch k x).blocks = s.blocks := rfl
@[simp] theorem State.setLaunch_cores (k : Nat) (x : Launch) : (s.setLaunch k x).cores = s.cores := rfl
@[simp] theorem State.setLaunch_clusters (k : Nat) (x : Launch) : (s.setLaunch k x).clusters = s.clusters := rfl
@[simp] theorem State.setLaunch_contexts (k : Nat) (x : Launch) : (s.setLaunch k x).contexts = s.contexts := rfl
@[simp] theorem State.setLaunch_cmds (k : Nat) (x : Launch) : (s.setLaunch k x).cmds = s.cmds := rfl
@[simp] theorem State.setLaunch_home (k : Nat) (x : Launch) : (s.setLaunch k x).home = s.home := rfl
@[simp] theorem State.setLaunch_hub (k : Nat) (x : Launch) : (s.setLaunch k x).hub = s.hub := rfl
@[simp] theorem State.setLaunch_recorder (k : Nat) (x : Launch) : (s.setLaunch k x).recorder = s.recorder := rfl
@[simp] theorem State.setLaunch_capture (k : Nat) (x : Launch) : (s.setLaunch k x).capture = s.capture := rfl
@[simp] theorem State.setLaunch_journal (k : Nat) (x : Launch) : (s.setLaunch k x).journal = s.journal := rfl
@[simp] theorem State.setLaunch_module (k : Nat) (x : Launch) : (s.setLaunch k x).module = s.module := rfl
@[simp] theorem State.setLaunch_time (k : Nat) (x : Launch) : (s.setLaunch k x).time = s.time := rfl
@[simp] theorem State.setLaunch_frac (k : Nat) (x : Launch) : (s.setLaunch k x).frac = s.frac := rfl
@[simp] theorem State.setLaunch_cycles (k : Nat) (x : Launch) : (s.setLaunch k x).cycles = s.cycles := rfl
@[simp] theorem State.setLaunch_agenda (k : Nat) (x : Launch) : (s.setLaunch k x).agenda = s.agenda := rfl
@[simp] theorem State.setLaunch_tick (k : Nat) (x : Launch) : (s.setLaunch k x).tick = s.tick := rfl
@[simp] theorem State.setLaunch_team_eq (k : Nat) (x : Launch) (j : Nat) : (s.setLaunch k x).team j = s.team j := rfl
@[simp] theorem State.setLaunch_block_eq (k : Nat) (x : Launch) (j : Nat) : (s.setLaunch k x).block j = s.block j := rfl
@[simp] theorem State.setLaunch_core_eq (k : Nat) (x : Launch) (j : Nat) : (s.setLaunch k x).core j = s.core j := rfl
@[simp] theorem State.setLaunch_cluster_eq (k : Nat) (x : Launch) (j : Nat) : (s.setLaunch k x).cluster j = s.cluster j := rfl
@[simp] theorem State.setLaunch_context_eq (k : Nat) (x : Launch) (j : Nat) : (s.setLaunch k x).context j = s.context j := rfl
@[simp] theorem State.setLaunch_launch_eq (k : Nat) (x : Launch) (j : Nat) :
    (s.setLaunch k x).launch j = if j = k then some x else s.launch j := by simp [State.setLaunch, State.launch]
@[simp] theorem State.setLaunch_cmd_eq (k : Nat) (x : Launch) (j : Nat) : (s.setLaunch k x).cmd j = s.cmd j := rfl

/-! ### `modLaunch` -/

@[simp] theorem State.modLaunch_cur (k : Nat) (f : Launch → Launch) : (s.modLaunch k f).cur = s.cur := rfl
@[simp] theorem State.modLaunch_teams (k : Nat) (f : Launch → Launch) : (s.modLaunch k f).teams = s.teams := rfl
@[simp] theorem State.modLaunch_blocks (k : Nat) (f : Launch → Launch) : (s.modLaunch k f).blocks = s.blocks := rfl
@[simp] theorem State.modLaunch_cores (k : Nat) (f : Launch → Launch) : (s.modLaunch k f).cores = s.cores := rfl
@[simp] theorem State.modLaunch_clusters (k : Nat) (f : Launch → Launch) : (s.modLaunch k f).clusters = s.clusters := rfl
@[simp] theorem State.modLaunch_contexts (k : Nat) (f : Launch → Launch) : (s.modLaunch k f).contexts = s.contexts := rfl
@[simp] theorem State.modLaunch_cmds (k : Nat) (f : Launch → Launch) : (s.modLaunch k f).cmds = s.cmds := rfl
@[simp] theorem State.modLaunch_home (k : Nat) (f : Launch → Launch) : (s.modLaunch k f).home = s.home := rfl
@[simp] theorem State.modLaunch_hub (k : Nat) (f : Launch → Launch) : (s.modLaunch k f).hub = s.hub := rfl
@[simp] theorem State.modLaunch_recorder (k : Nat) (f : Launch → Launch) : (s.modLaunch k f).recorder = s.recorder := rfl
@[simp] theorem State.modLaunch_capture (k : Nat) (f : Launch → Launch) : (s.modLaunch k f).capture = s.capture := rfl
@[simp] theorem State.modLaunch_journal (k : Nat) (f : Launch → Launch) : (s.modLaunch k f).journal = s.journal := rfl
@[simp] theorem State.modLaunch_module (k : Nat) (f : Launch → Launch) : (s.modLaunch k f).module = s.module := rfl
@[simp] theorem State.modLaunch_time (k : Nat) (f : Launch → Launch) : (s.modLaunch k f).time = s.time := rfl
@[simp] theorem State.modLaunch_frac (k : Nat) (f : Launch → Launch) : (s.modLaunch k f).frac = s.frac := rfl
@[simp] theorem State.modLaunch_cycles (k : Nat) (f : Launch → Launch) : (s.modLaunch k f).cycles = s.cycles := rfl
@[simp] theorem State.modLaunch_agenda (k : Nat) (f : Launch → Launch) : (s.modLaunch k f).agenda = s.agenda := rfl
@[simp] theorem State.modLaunch_tick (k : Nat) (f : Launch → Launch) : (s.modLaunch k f).tick = s.tick := rfl
@[simp] theorem State.modLaunch_team_eq (k : Nat) (f : Launch → Launch) (j : Nat) : (s.modLaunch k f).team j = s.team j := rfl
@[simp] theorem State.modLaunch_block_eq (k : Nat) (f : Launch → Launch) (j : Nat) : (s.modLaunch k f).block j = s.block j := rfl
@[simp] theorem State.modLaunch_core_eq (k : Nat) (f : Launch → Launch) (j : Nat) : (s.modLaunch k f).core j = s.core j := rfl
@[simp] theorem State.modLaunch_cluster_eq (k : Nat) (f : Launch → Launch) (j : Nat) : (s.modLaunch k f).cluster j = s.cluster j := rfl
@[simp] theorem State.modLaunch_context_eq (k : Nat) (f : Launch → Launch) (j : Nat) : (s.modLaunch k f).context j = s.context j := rfl
@[simp] theorem State.modLaunch_launch_eq (k : Nat) (f : Launch → Launch) (j : Nat) :
    (s.modLaunch k f).launch j = if j = k then (s.launch k).map f else s.launch j := by simp [State.modLaunch, State.launch]
@[simp] theorem State.modLaunch_cmd_eq (k : Nat) (f : Launch → Launch) (j : Nat) : (s.modLaunch k f).cmd j = s.cmd j := rfl

/-! ### `setCmd` -/

@[simp] theorem State.setCmd_cur (k : Nat) (x : Cmd) : (s.setCmd k x).cur = s.cur := rfl
@[simp] theorem State.setCmd_teams (k : Nat) (x : Cmd) : (s.setCmd k x).teams = s.teams := rfl
@[simp] theorem State.setCmd_blocks (k : Nat) (x : Cmd) : (s.setCmd k x).blocks = s.blocks := rfl
@[simp] theorem State.setCmd_cores (k : Nat) (x : Cmd) : (s.setCmd k x).cores = s.cores := rfl
@[simp] theorem State.setCmd_clusters (k : Nat) (x : Cmd) : (s.setCmd k x).clusters = s.clusters := rfl
@[simp] theorem State.setCmd_contexts (k : Nat) (x : Cmd) : (s.setCmd k x).contexts = s.contexts := rfl
@[simp] theorem State.setCmd_launches (k : Nat) (x : Cmd) : (s.setCmd k x).launches = s.launches := rfl
@[simp] theorem State.setCmd_home (k : Nat) (x : Cmd) : (s.setCmd k x).home = s.home := rfl
@[simp] theorem State.setCmd_hub (k : Nat) (x : Cmd) : (s.setCmd k x).hub = s.hub := rfl
@[simp] theorem State.setCmd_recorder (k : Nat) (x : Cmd) : (s.setCmd k x).recorder = s.recorder := rfl
@[simp] theorem State.setCmd_capture (k : Nat) (x : Cmd) : (s.setCmd k x).capture = s.capture := rfl
@[simp] theorem State.setCmd_journal (k : Nat) (x : Cmd) : (s.setCmd k x).journal = s.journal := rfl
@[simp] theorem State.setCmd_module (k : Nat) (x : Cmd) : (s.setCmd k x).module = s.module := rfl
@[simp] theorem State.setCmd_time (k : Nat) (x : Cmd) : (s.setCmd k x).time = s.time := rfl
@[simp] theorem State.setCmd_frac (k : Nat) (x : Cmd) : (s.setCmd k x).frac = s.frac := rfl
@[simp] theorem State.setCmd_cycles (k : Nat) (x : Cmd) : (s.setCmd k x).cycles = s.cycles := rfl
@[simp] theorem State.setCmd_agenda (k : Nat) (x : Cmd) : (s.setCmd k x).agenda = s.agenda := rfl
@[simp] theorem State.setCmd_tick (k : Nat) (x : Cmd) : (s.setCmd k x).tick = s.tick := rfl
@[simp] theorem State.setCmd_team_eq (k : Nat) (x : Cmd) (j : Nat) : (s.setCmd k x).team j = s.team j := rfl
@[simp] theorem State.setCmd_block_eq (k : Nat) (x : Cmd) (j : Nat) : (s.setCmd k x).block j = s.block j := rfl
@[simp] theorem State.setCmd_core_eq (k : Nat) (x : Cmd) (j : Nat) : (s.setCmd k x).core j = s.core j := rfl
@[simp] theorem State.setCmd_cluster_eq (k : Nat) (x : Cmd) (j : Nat) : (s.setCmd k x).cluster j = s.cluster j := rfl
@[simp] theorem State.setCmd_context_eq (k : Nat) (x : Cmd) (j : Nat) : (s.setCmd k x).context j = s.context j := rfl
@[simp] theorem State.setCmd_launch_eq (k : Nat) (x : Cmd) (j : Nat) : (s.setCmd k x).launch j = s.launch j := rfl
@[simp] theorem State.setCmd_cmd_eq (k : Nat) (x : Cmd) (j : Nat) :
    (s.setCmd k x).cmd j = if j = k then some x else s.cmd j := by simp [State.setCmd, State.cmd]

/-! ### `modCmd` -/

@[simp] theorem State.modCmd_cur (k : Nat) (f : Cmd → Cmd) : (s.modCmd k f).cur = s.cur := rfl
@[simp] theorem State.modCmd_teams (k : Nat) (f : Cmd → Cmd) : (s.modCmd k f).teams = s.teams := rfl
@[simp] theorem State.modCmd_blocks (k : Nat) (f : Cmd → Cmd) : (s.modCmd k f).blocks = s.blocks := rfl
@[simp] theorem State.modCmd_cores (k : Nat) (f : Cmd → Cmd) : (s.modCmd k f).cores = s.cores := rfl
@[simp] theorem State.modCmd_clusters (k : Nat) (f : Cmd → Cmd) : (s.modCmd k f).clusters = s.clusters := rfl
@[simp] theorem State.modCmd_contexts (k : Nat) (f : Cmd → Cmd) : (s.modCmd k f).contexts = s.contexts := rfl
@[simp] theorem State.modCmd_launches (k : Nat) (f : Cmd → Cmd) : (s.modCmd k f).launches = s.launches := rfl
@[simp] theorem State.modCmd_home (k : Nat) (f : Cmd → Cmd) : (s.modCmd k f).home = s.home := rfl
@[simp] theorem State.modCmd_hub (k : Nat) (f : Cmd → Cmd) : (s.modCmd k f).hub = s.hub := rfl
@[simp] theorem State.modCmd_recorder (k : Nat) (f : Cmd → Cmd) : (s.modCmd k f).recorder = s.recorder := rfl
@[simp] theorem State.modCmd_capture (k : Nat) (f : Cmd → Cmd) : (s.modCmd k f).capture = s.capture := rfl
@[simp] theorem State.modCmd_journal (k : Nat) (f : Cmd → Cmd) : (s.modCmd k f).journal = s.journal := rfl
@[simp] theorem State.modCmd_module (k : Nat) (f : Cmd → Cmd) : (s.modCmd k f).module = s.module := rfl
@[simp] theorem State.modCmd_time (k : Nat) (f : Cmd → Cmd) : (s.modCmd k f).time = s.time := rfl
@[simp] theorem State.modCmd_frac (k : Nat) (f : Cmd → Cmd) : (s.modCmd k f).frac = s.frac := rfl
@[simp] theorem State.modCmd_cycles (k : Nat) (f : Cmd → Cmd) : (s.modCmd k f).cycles = s.cycles := rfl
@[simp] theorem State.modCmd_agenda (k : Nat) (f : Cmd → Cmd) : (s.modCmd k f).agenda = s.agenda := rfl
@[simp] theorem State.modCmd_tick (k : Nat) (f : Cmd → Cmd) : (s.modCmd k f).tick = s.tick := rfl
@[simp] theorem State.modCmd_team_eq (k : Nat) (f : Cmd → Cmd) (j : Nat) : (s.modCmd k f).team j = s.team j := rfl
@[simp] theorem State.modCmd_block_eq (k : Nat) (f : Cmd → Cmd) (j : Nat) : (s.modCmd k f).block j = s.block j := rfl
@[simp] theorem State.modCmd_core_eq (k : Nat) (f : Cmd → Cmd) (j : Nat) : (s.modCmd k f).core j = s.core j := rfl
@[simp] theorem State.modCmd_cluster_eq (k : Nat) (f : Cmd → Cmd) (j : Nat) : (s.modCmd k f).cluster j = s.cluster j := rfl
@[simp] theorem State.modCmd_context_eq (k : Nat) (f : Cmd → Cmd) (j : Nat) : (s.modCmd k f).context j = s.context j := rfl
@[simp] theorem State.modCmd_launch_eq (k : Nat) (f : Cmd → Cmd) (j : Nat) : (s.modCmd k f).launch j = s.launch j := rfl
@[simp] theorem State.modCmd_cmd_eq (k : Nat) (f : Cmd → Cmd) (j : Nat) :
    (s.modCmd k f).cmd j = if j = k then (s.cmd k).map f else s.cmd j := by simp [State.modCmd, State.cmd]

/-! ### `dropCmd` -/

@[simp] theorem State.dropCmd_cur (k : Nat) : (s.dropCmd k).cur = s.cur := rfl
@[simp] theorem State.dropCmd_teams (k : Nat) : (s.dropCmd k).teams = s.teams := rfl
@[simp] theorem State.dropCmd_blocks (k : Nat) : (s.dropCmd k).blocks = s.blocks := rfl
@[simp] theorem State.dropCmd_cores (k : Nat) : (s.dropCmd k).cores = s.cores := rfl
@[simp] theorem State.dropCmd_clusters (k : Nat) : (s.dropCmd k).clusters = s.clusters := rfl
@[simp] theorem State.dropCmd_contexts (k : Nat) : (s.dropCmd k).contexts = s.contexts := rfl
@[simp] theorem State.dropCmd_launches (k : Nat) : (s.dropCmd k).launches = s.launches := rfl
@[simp] theorem State.dropCmd_home (k : Nat) : (s.dropCmd k).home = s.home := rfl
@[simp] theorem State.dropCmd_hub (k : Nat) : (s.dropCmd k).hub = s.hub := rfl
@[simp] theorem State.dropCmd_recorder (k : Nat) : (s.dropCmd k).recorder = s.recorder := rfl
@[simp] theorem State.dropCmd_capture (k : Nat) : (s.dropCmd k).capture = s.capture := rfl
@[simp] theorem State.dropCmd_journal (k : Nat) : (s.dropCmd k).journal = s.journal := rfl
@[simp] theorem State.dropCmd_module (k : Nat) : (s.dropCmd k).module = s.module := rfl
@[simp] theorem State.dropCmd_time (k : Nat) : (s.dropCmd k).time = s.time := rfl
@[simp] theorem State.dropCmd_frac (k : Nat) : (s.dropCmd k).frac = s.frac := rfl
@[simp] theorem State.dropCmd_cycles (k : Nat) : (s.dropCmd k).cycles = s.cycles := rfl
@[simp] theorem State.dropCmd_agenda (k : Nat) : (s.dropCmd k).agenda = s.agenda := rfl
@[simp] theorem State.dropCmd_tick (k : Nat) : (s.dropCmd k).tick = s.tick := rfl
@[simp] theorem State.dropCmd_team_eq (k : Nat) (j : Nat) : (s.dropCmd k).team j = s.team j := rfl
@[simp] theorem State.dropCmd_block_eq (k : Nat) (j : Nat) : (s.dropCmd k).block j = s.block j := rfl
@[simp] theorem State.dropCmd_core_eq (k : Nat) (j : Nat) : (s.dropCmd k).core j = s.core j := rfl
@[simp] theorem State.dropCmd_cluster_eq (k : Nat) (j : Nat) : (s.dropCmd k).cluster j = s.cluster j := rfl
@[simp] theorem State.dropCmd_context_eq (k : Nat) (j : Nat) : (s.dropCmd k).context j = s.context j := rfl
@[simp] theorem State.dropCmd_launch_eq (k : Nat) (j : Nat) : (s.dropCmd k).launch j = s.launch j := rfl
@[simp] theorem State.dropCmd_cmd_eq (k : Nat) (j : Nat) :
    (s.dropCmd k).cmd j = if j = k then none else s.cmd j := by simp [State.dropCmd, State.cmd]

/-! ### `modHome` -/

@[simp] theorem State.modHome_cur (f : Home → Home) : (s.modHome f).cur = s.cur := rfl
@[simp] theorem State.modHome_teams (f : Home → Home) : (s.modHome f).teams = s.teams := rfl
@[simp] theorem State.modHome_blocks (f : Home → Home) : (s.modHome f).blocks = s.blocks := rfl
@[simp] theorem State.modHome_cores (f : Home → Home) : (s.modHome f).cores = s.cores := rfl
@[simp] theorem State.modHome_clusters (f : Home → Home) : (s.modHome f).clusters = s.clusters := rfl
@[simp] theorem State.modHome_contexts (f : Home → Home) : (s.modHome f).contexts = s.contexts := rfl
@[simp] theorem State.modHome_launches (f : Home → Home) : (s.modHome f).launches = s.launches := rfl
@[simp] theorem State.modHome_cmds (f : Home → Home) : (s.modHome f).cmds = s.cmds := rfl
@[simp] theorem State.modHome_home (f : Home → Home) : (s.modHome f).home = f s.home := rfl
@[simp] theorem State.modHome_hub (f : Home → Home) : (s.modHome f).hub = s.hub := rfl
@[simp] theorem State.modHome_recorder (f : Home → Home) : (s.modHome f).recorder = s.recorder := rfl
@[simp] theorem State.modHome_capture (f : Home → Home) : (s.modHome f).capture = s.capture := rfl
@[simp] theorem State.modHome_journal (f : Home → Home) : (s.modHome f).journal = s.journal := rfl
@[simp] theorem State.modHome_module (f : Home → Home) : (s.modHome f).module = s.module := rfl
@[simp] theorem State.modHome_time (f : Home → Home) : (s.modHome f).time = s.time := rfl
@[simp] theorem State.modHome_frac (f : Home → Home) : (s.modHome f).frac = s.frac := rfl
@[simp] theorem State.modHome_cycles (f : Home → Home) : (s.modHome f).cycles = s.cycles := rfl
@[simp] theorem State.modHome_agenda (f : Home → Home) : (s.modHome f).agenda = s.agenda := rfl
@[simp] theorem State.modHome_tick (f : Home → Home) : (s.modHome f).tick = s.tick := rfl
@[simp] theorem State.modHome_team_eq (f : Home → Home) (j : Nat) : (s.modHome f).team j = s.team j := rfl
@[simp] theorem State.modHome_block_eq (f : Home → Home) (j : Nat) : (s.modHome f).block j = s.block j := rfl
@[simp] theorem State.modHome_core_eq (f : Home → Home) (j : Nat) : (s.modHome f).core j = s.core j := rfl
@[simp] theorem State.modHome_cluster_eq (f : Home → Home) (j : Nat) : (s.modHome f).cluster j = s.cluster j := rfl
@[simp] theorem State.modHome_context_eq (f : Home → Home) (j : Nat) : (s.modHome f).context j = s.context j := rfl
@[simp] theorem State.modHome_launch_eq (f : Home → Home) (j : Nat) : (s.modHome f).launch j = s.launch j := rfl
@[simp] theorem State.modHome_cmd_eq (f : Home → Home) (j : Nat) : (s.modHome f).cmd j = s.cmd j := rfl

/-! ### `modHub` -/

@[simp] theorem State.modHub_cur (f : Hub → Hub) : (s.modHub f).cur = s.cur := rfl
@[simp] theorem State.modHub_teams (f : Hub → Hub) : (s.modHub f).teams = s.teams := rfl
@[simp] theorem State.modHub_blocks (f : Hub → Hub) : (s.modHub f).blocks = s.blocks := rfl
@[simp] theorem State.modHub_cores (f : Hub → Hub) : (s.modHub f).cores = s.cores := rfl
@[simp] theorem State.modHub_clusters (f : Hub → Hub) : (s.modHub f).clusters = s.clusters := rfl
@[simp] theorem State.modHub_contexts (f : Hub → Hub) : (s.modHub f).contexts = s.contexts := rfl
@[simp] theorem State.modHub_launches (f : Hub → Hub) : (s.modHub f).launches = s.launches := rfl
@[simp] theorem State.modHub_cmds (f : Hub → Hub) : (s.modHub f).cmds = s.cmds := rfl
@[simp] theorem State.modHub_home (f : Hub → Hub) : (s.modHub f).home = s.home := rfl
@[simp] theorem State.modHub_hub (f : Hub → Hub) : (s.modHub f).hub = f s.hub := rfl
@[simp] theorem State.modHub_recorder (f : Hub → Hub) : (s.modHub f).recorder = s.recorder := rfl
@[simp] theorem State.modHub_capture (f : Hub → Hub) : (s.modHub f).capture = s.capture := rfl
@[simp] theorem State.modHub_journal (f : Hub → Hub) : (s.modHub f).journal = s.journal := rfl
@[simp] theorem State.modHub_module (f : Hub → Hub) : (s.modHub f).module = s.module := rfl
@[simp] theorem State.modHub_time (f : Hub → Hub) : (s.modHub f).time = s.time := rfl
@[simp] theorem State.modHub_frac (f : Hub → Hub) : (s.modHub f).frac = s.frac := rfl
@[simp] theorem State.modHub_cycles (f : Hub → Hub) : (s.modHub f).cycles = s.cycles := rfl
@[simp] theorem State.modHub_agenda (f : Hub → Hub) : (s.modHub f).agenda = s.agenda := rfl
@[simp] theorem State.modHub_tick (f : Hub → Hub) : (s.modHub f).tick = s.tick := rfl
@[simp] theorem State.modHub_team_eq (f : Hub → Hub) (j : Nat) : (s.modHub f).team j = s.team j := rfl
@[simp] theorem State.modHub_block_eq (f : Hub → Hub) (j : Nat) : (s.modHub f).block j = s.block j := rfl
@[simp] theorem State.modHub_core_eq (f : Hub → Hub) (j : Nat) : (s.modHub f).core j = s.core j := rfl
@[simp] theorem State.modHub_cluster_eq (f : Hub → Hub) (j : Nat) : (s.modHub f).cluster j = s.cluster j := rfl
@[simp] theorem State.modHub_context_eq (f : Hub → Hub) (j : Nat) : (s.modHub f).context j = s.context j := rfl
@[simp] theorem State.modHub_launch_eq (f : Hub → Hub) (j : Nat) : (s.modHub f).launch j = s.launch j := rfl
@[simp] theorem State.modHub_cmd_eq (f : Hub → Hub) (j : Nat) : (s.modHub f).cmd j = s.cmd j := rfl

/-! ### `modModule` -/

@[simp] theorem State.modModule_cur (f : Module → Module) : (s.modModule f).cur = s.cur := rfl
@[simp] theorem State.modModule_teams (f : Module → Module) : (s.modModule f).teams = s.teams := rfl
@[simp] theorem State.modModule_blocks (f : Module → Module) : (s.modModule f).blocks = s.blocks := rfl
@[simp] theorem State.modModule_cores (f : Module → Module) : (s.modModule f).cores = s.cores := rfl
@[simp] theorem State.modModule_clusters (f : Module → Module) : (s.modModule f).clusters = s.clusters := rfl
@[simp] theorem State.modModule_contexts (f : Module → Module) : (s.modModule f).contexts = s.contexts := rfl
@[simp] theorem State.modModule_launches (f : Module → Module) : (s.modModule f).launches = s.launches := rfl
@[simp] theorem State.modModule_cmds (f : Module → Module) : (s.modModule f).cmds = s.cmds := rfl
@[simp] theorem State.modModule_home (f : Module → Module) : (s.modModule f).home = s.home := rfl
@[simp] theorem State.modModule_hub (f : Module → Module) : (s.modModule f).hub = s.hub := rfl
@[simp] theorem State.modModule_recorder (f : Module → Module) : (s.modModule f).recorder = s.recorder := rfl
@[simp] theorem State.modModule_capture (f : Module → Module) : (s.modModule f).capture = s.capture := rfl
@[simp] theorem State.modModule_journal (f : Module → Module) : (s.modModule f).journal = s.journal := rfl
@[simp] theorem State.modModule_module (f : Module → Module) : (s.modModule f).module = f s.module := rfl
@[simp] theorem State.modModule_time (f : Module → Module) : (s.modModule f).time = s.time := rfl
@[simp] theorem State.modModule_frac (f : Module → Module) : (s.modModule f).frac = s.frac := rfl
@[simp] theorem State.modModule_cycles (f : Module → Module) : (s.modModule f).cycles = s.cycles := rfl
@[simp] theorem State.modModule_agenda (f : Module → Module) : (s.modModule f).agenda = s.agenda := rfl
@[simp] theorem State.modModule_tick (f : Module → Module) : (s.modModule f).tick = s.tick := rfl
@[simp] theorem State.modModule_team_eq (f : Module → Module) (j : Nat) : (s.modModule f).team j = s.team j := rfl
@[simp] theorem State.modModule_block_eq (f : Module → Module) (j : Nat) : (s.modModule f).block j = s.block j := rfl
@[simp] theorem State.modModule_core_eq (f : Module → Module) (j : Nat) : (s.modModule f).core j = s.core j := rfl
@[simp] theorem State.modModule_cluster_eq (f : Module → Module) (j : Nat) : (s.modModule f).cluster j = s.cluster j := rfl
@[simp] theorem State.modModule_context_eq (f : Module → Module) (j : Nat) : (s.modModule f).context j = s.context j := rfl
@[simp] theorem State.modModule_launch_eq (f : Module → Module) (j : Nat) : (s.modModule f).launch j = s.launch j := rfl
@[simp] theorem State.modModule_cmd_eq (f : Module → Module) (j : Nat) : (s.modModule f).cmd j = s.cmd j := rfl

/-! ### `modRecorder` -/

@[simp] theorem State.modRecorder_cur (f : Recorder → Recorder) : (s.modRecorder f).cur = s.cur := rfl
@[simp] theorem State.modRecorder_teams (f : Recorder → Recorder) : (s.modRecorder f).teams = s.teams := rfl
@[simp] theorem State.modRecorder_blocks (f : Recorder → Recorder) : (s.modRecorder f).blocks = s.blocks := rfl
@[simp] theorem State.modRecorder_cores (f : Recorder → Recorder) : (s.modRecorder f).cores = s.cores := rfl
@[simp] theorem State.modRecorder_clusters (f : Recorder → Recorder) : (s.modRecorder f).clusters = s.clusters := rfl
@[simp] theorem State.modRecorder_contexts (f : Recorder → Recorder) : (s.modRecorder f).contexts = s.contexts := rfl
@[simp] theorem State.modRecorder_launches (f : Recorder → Recorder) : (s.modRecorder f).launches = s.launches := rfl
@[simp] theorem State.modRecorder_cmds (f : Recorder → Recorder) : (s.modRecorder f).cmds = s.cmds := rfl
@[simp] theorem State.modRecorder_home (f : Recorder → Recorder) : (s.modRecorder f).home = s.home := rfl
@[simp] theorem State.modRecorder_hub (f : Recorder → Recorder) : (s.modRecorder f).hub = s.hub := rfl
@[simp] theorem State.modRecorder_recorder (f : Recorder → Recorder) : (s.modRecorder f).recorder = f s.recorder := rfl
@[simp] theorem State.modRecorder_capture (f : Recorder → Recorder) : (s.modRecorder f).capture = s.capture := rfl
@[simp] theorem State.modRecorder_journal (f : Recorder → Recorder) : (s.modRecorder f).journal = s.journal := rfl
@[simp] theorem State.modRecorder_module (f : Recorder → Recorder) : (s.modRecorder f).module = s.module := rfl
@[simp] theorem State.modRecorder_time (f : Recorder → Recorder) : (s.modRecorder f).time = s.time := rfl
@[simp] theorem State.modRecorder_frac (f : Recorder → Recorder) : (s.modRecorder f).frac = s.frac := rfl
@[simp] theorem State.modRecorder_cycles (f : Recorder → Recorder) : (s.modRecorder f).cycles = s.cycles := rfl
@[simp] theorem State.modRecorder_agenda (f : Recorder → Recorder) : (s.modRecorder f).agenda = s.agenda := rfl
@[simp] theorem State.modRecorder_tick (f : Recorder → Recorder) : (s.modRecorder f).tick = s.tick := rfl
@[simp] theorem State.modRecorder_team_eq (f : Recorder → Recorder) (j : Nat) : (s.modRecorder f).team j = s.team j := rfl
@[simp] theorem State.modRecorder_block_eq (f : Recorder → Recorder) (j : Nat) : (s.modRecorder f).block j = s.block j := rfl
@[simp] theorem State.modRecorder_core_eq (f : Recorder → Recorder) (j : Nat) : (s.modRecorder f).core j = s.core j := rfl
@[simp] theorem State.modRecorder_cluster_eq (f : Recorder → Recorder) (j : Nat) : (s.modRecorder f).cluster j = s.cluster j := rfl
@[simp] theorem State.modRecorder_context_eq (f : Recorder → Recorder) (j : Nat) : (s.modRecorder f).context j = s.context j := rfl
@[simp] theorem State.modRecorder_launch_eq (f : Recorder → Recorder) (j : Nat) : (s.modRecorder f).launch j = s.launch j := rfl
@[simp] theorem State.modRecorder_cmd_eq (f : Recorder → Recorder) (j : Nat) : (s.modRecorder f).cmd j = s.cmd j := rfl

end Sys2Proof.Machine
end

