-- ==== Sys2Proof/Laws/Memory.lean ====
section
/-! SUPPORT. Every operation on the home memory keeps its canonical form, and reset has it. -/

namespace Sys2Proof.Machine

theorem Home.fresh_wf : Home.fresh.wf := ⟨rfl, rfl, rfl⟩

theorem reset_home_wf : State.reset.home.wf := Home.fresh_wf

theorem Home.putByte_wf {h : Home} (w : h.wf) (a : Nat) (b : Byte) (t : Nat × Nat) : (h.putByte a b t).wf :=
  ⟨Sparse.wf_set _ _ w.1, Sparse.wf_set _ _ w.2.1, w.2.2⟩

theorem Home.touch_wf {h : Home} (w : h.wf) (sector : Nat) : (h.touch sector).wf := w

theorem Home.bring_wf {h : Home} (w : h.wf) (sector keep : Nat) (dirty : Bool) : (h.bring sector keep dirty).wf := by
  unfold Home.bring
  split <;> exact w

theorem Home.markGranule_wf {h : Home} (w : h.wf) (g : Nat) (full pois : Bool) : (h.markGranule g full pois).wf := by
  unfold Home.markGranule
  split
  · exact ⟨w.1, w.2.1, Sparse.wf_set (m := h.poison) g true w.2.2⟩
  · split
    · exact ⟨w.1, w.2.1, Sparse.wf_set (m := h.poison) g false w.2.2⟩
    · exact w

/-- A fold over any list keeps what each of its steps keeps. -/
theorem foldl_keeps {α β : Type} {P : β → Prop} (f : β → α → β) (step : ∀ b a, P b → P (f b a)) :
    ∀ (ls : List α) (b : β), P b → P (ls.foldl f b)
  | [], _, h => h
  | a :: ls, b, h => foldl_keeps f step ls (f b a) (step b a h)

@[simp] theorem wakeMonitors_home (s : State) (sector : Nat) : (wakeMonitors s sector).home = s.home := rfl

theorem foldEntry_wf {s : State} (w : s.home.wf) (stamp core : Nat) (e : LogEntry) : (foldEntry stamp core s e).home.wf := by
  have hb := foldl_keeps (P := Home.wf)
    (fun (h : Home) (x : Nat × Byte) =>
      let t := h.tag x.1
      if stamp < t.1 ∨ stamp = t.1 ∧ core < t.2 then h
      else h.putByte x.1 x.2 (if e.keep != 3 || (s.home.l2.find (sectorOf (32 * e.chunk))).isSome then (stamp, core) else (0, 0)))
    (fun h x hw => by dsimp only; split; exact hw; exact Home.putByte_wf hw _ _ _) e.writes s.home w
  unfold foldEntry
  simp only [wakeMonitors_home, apply_ite State.home, State.setCore_home, ite_self]
  exact Home.markGranule_wf (Home.bring_wf hb _ _ _) _ _ _

theorem foldSome_wf {s : State} (w : s.home.wf) (c : Nat) (sel : LogEntry → Bool) : (foldSome s c sel).home.wf :=
  foldl_keeps (P := fun s : State => s.home.wf) _ (fun _ _ h => foldEntry_wf h _ _ _) _ _ w

theorem foldAcross_wf {s : State} (w : s.home.wf) (sel : Nat → Core → LogEntry → Bool) : (foldAcross s sel).home.wf :=
  foldl_keeps (P := fun s : State => s.home.wf) _ (fun _ _ h => by split; exact h; exact foldSome_wf h _ _) _ _ w

theorem syncDevice_wf {s : State} (w : s.home.wf) : (syncDevice s).home.wf := foldAcross_wf w _

theorem settleSector_wf {s : State} (w : s.home.wf) (sector : Nat) : (settleSector s sector).home.wf := foldAcross_wf w _

theorem homeWrite_wf {s : State} (w : s.home.wf) (pa : Nat) (bs : List Byte) (pois : Bool) : (homeWrite s pa bs pois).home.wf := by
  unfold homeWrite
  have hs := foldl_keeps (P := fun s : State => s.home.wf) settleSector (fun _ x h => settleSector_wf h x)
  have hp := foldl_keeps (P := Home.wf) (fun (h : Home) (bi : Byte × Nat) => h.putByte (pa + bi.2) bi.1 (0, 0))
    fun h x hw => Home.putByte_wf hw _ _ _
  have ht := foldl_keeps (P := Home.wf) Home.touch fun h x hw => Home.touch_wf hw x
  have hm := foldl_keeps (P := Home.wf)
    (fun (h : Home) (g : Nat) => h.markGranule g (decide (pa ≤ 32 * g ∧ 32 * g + 32 ≤ pa + bs.length)) pois)
    fun h x hw => Home.markGranule_wf hw _ _ _
  have hwake := foldl_keeps (P := fun s : State => s.home.wf) wakeMonitors fun _ _ h => h
  dsimp only
  split
  · exact hs _ _ w
  · exact hwake _ _ (hm _ _ (ht _ _ (hp _ _ (hs _ _ w))))

/-- Placing a word for the next step keeps it too. -/
theorem placeWord_wf {s : State} (h : s.home.wf) (w : Nat) : (placeWord s w).home.wf := by
  have hm := foldl_keeps (P := fun m : Sparse Byte => Sparse.wf 0#8 m = true)
    (fun m (c : Nat × Byte) => Sparse.set 0#8 m c.1 c.2) (fun _ _ h => Sparse.wf_set _ _ h) (oneWordImage w) s.home.mem h.1
  unfold placeWord Home.wf
  simp only [State.setTeam_home, State.setBlock_home, State.setLaunch_home, State.modCore_home]
  exact ⟨hm, h.2⟩

/-! ### What every step does around an instruction leaves memory alone -/

@[simp] theorem chargeBudget_home (s : State) (k : Nat) : (chargeBudget s k).home = s.home := by
  unfold chargeBudget
  split
  · rfl
  · split
    · rfl
    · split
      · rfl
      · simp

@[simp] theorem passTime_home (s : State) : (passTime s).home = s.home := by
  unfold passTime
  dsimp only
  split
  · rfl
  · exact foldl_keeps (P := fun x : State => x.home = s.home) chargeBudget (fun x k h => by simpa using h) (slotHolders s) s rfl

@[simp] theorem beginInstr_home (s : State) : (beginInstr s).home = s.home := by simp [beginInstr]

end Sys2Proof.Machine
end

