-- ==== Sys2Proof/Laws/PerInstr.lean ====
section
/-! SUPPORT. Family `Encodes`, one lemma for each constructor: an instruction word has a word of 32 bits (R58), an event has none. -/

namespace Sys2Proof.Laws

/-- An instruction of a run has a word, of 32 bits; an event has none. -/
def Encodes.Statement (i : Instr) : Prop :=
  match encodeWord i with
  | some w => i.isWord = true ∧ w < 4294967296
  | none => i.isWord = false

theorem Encodes.nop (c : BitVec 1) : Encodes.Statement (.nop c) := ⟨rfl, by have := c.isLt; omega⟩
theorem Encodes.exit : Encodes.Statement (.exit) := ⟨rfl, by omega⟩
theorem Encodes.yield : Encodes.Statement (.yield) := ⟨rfl, by omega⟩
theorem Encodes.brkpt (c : BitVec 1) (i : BitVec 20) : Encodes.Statement (.brkpt c i) := ⟨rfl, by have := c.isLt; have := i.isLt; omega⟩
theorem Encodes.sigck (c : BitVec 1) (i : BitVec 20) : Encodes.Statement (.sigck c i) := ⟨rfl, by have := c.isLt; have := i.isLt; omega⟩
theorem Encodes.evt (c : BitVec 1) (i : BitVec 20) : Encodes.Statement (.evt c i) := ⟨rfl, by have := c.isLt; have := i.isLt; omega⟩
theorem Encodes.rgnb (c : BitVec 1) (i : BitVec 20) : Encodes.Statement (.rgnb c i) := ⟨rfl, by have := c.isLt; have := i.isLt; omega⟩
theorem Encodes.rgne (c : BitVec 1) : Encodes.Statement (.rgne c) := ⟨rfl, by have := c.isLt; omega⟩
theorem Encodes.gbar : Encodes.Statement (.gbar) := ⟨rfl, by omega⟩
theorem Encodes.iaddSr (c : BitVec 1) (d : BitVec 6) (a : BitVec 6) (b : BitVec 6) : Encodes.Statement (.iaddSr c d a b) := ⟨rfl, by have := c.isLt; have := d.isLt; have := a.isLt; have := b.isLt; omega⟩
theorem Encodes.isubSr (c : BitVec 1) (d : BitVec 6) (a : BitVec 6) (b : BitVec 6) : Encodes.Statement (.isubSr c d a b) := ⟨rfl, by have := c.isLt; have := d.isLt; have := a.isLt; have := b.isLt; omega⟩
theorem Encodes.imulSr (c : BitVec 1) (d : BitVec 6) (a : BitVec 6) (b : BitVec 6) : Encodes.Statement (.imulSr c d a b) := ⟨rfl, by have := c.isLt; have := d.isLt; have := a.isLt; have := b.isLt; omega⟩
theorem Encodes.imulhSr (c : BitVec 1) (d : BitVec 6) (a : BitVec 6) (b : BitVec 6) : Encodes.Statement (.imulhSr c d a b) := ⟨rfl, by have := c.isLt; have := d.isLt; have := a.isLt; have := b.isLt; omega⟩
theorem Encodes.imulhUSr (c : BitVec 1) (d : BitVec 6) (a : BitVec 6) (b : BitVec 6) : Encodes.Statement (.imulhUSr c d a b) := ⟨rfl, by have := c.isLt; have := d.isLt; have := a.isLt; have := b.isLt; omega⟩
theorem Encodes.andSr (c : BitVec 1) (d : BitVec 6) (a : BitVec 6) (b : BitVec 6) : Encodes.Statement (.andSr c d a b) := ⟨rfl, by have := c.isLt; have := d.isLt; have := a.isLt; have := b.isLt; omega⟩
theorem Encodes.orSr (c : BitVec 1) (d : BitVec 6) (a : BitVec 6) (b : BitVec 6) : Encodes.Statement (.orSr c d a b) := ⟨rfl, by have := c.isLt; have := d.isLt; have := a.isLt; have := b.isLt; omega⟩
theorem Encodes.xorSr (c : BitVec 1) (d : BitVec 6) (a : BitVec 6) (b : BitVec 6) : Encodes.Statement (.xorSr c d a b) := ⟨rfl, by have := c.isLt; have := d.isLt; have := a.isLt; have := b.isLt; omega⟩
theorem Encodes.andnSr (c : BitVec 1) (d : BitVec 6) (a : BitVec 6) (b : BitVec 6) : Encodes.Statement (.andnSr c d a b) := ⟨rfl, by have := c.isLt; have := d.isLt; have := a.isLt; have := b.isLt; omega⟩
theorem Encodes.shlSr (c : BitVec 1) (d : BitVec 6) (a : BitVec 6) (b : BitVec 6) : Encodes.Statement (.shlSr c d a b) := ⟨rfl, by have := c.isLt; have := d.isLt; have := a.isLt; have := b.isLt; omega⟩
theorem Encodes.shrSr (c : BitVec 1) (d : BitVec 6) (a : BitVec 6) (b : BitVec 6) : Encodes.Statement (.shrSr c d a b) := ⟨rfl, by have := c.isLt; have := d.isLt; have := a.isLt; have := b.isLt; omega⟩
theorem Encodes.sraSr (c : BitVec 1) (d : BitVec 6) (a : BitVec 6) (b : BitVec 6) : Encodes.Statement (.sraSr c d a b) := ⟨rfl, by have := c.isLt; have := d.isLt; have := a.isLt; have := b.isLt; omega⟩
theorem Encodes.iminSr (c : BitVec 1) (d : BitVec 6) (a : BitVec 6) (b : BitVec 6) : Encodes.Statement (.iminSr c d a b) := ⟨rfl, by have := c.isLt; have := d.isLt; have := a.isLt; have := b.isLt; omega⟩
theorem Encodes.imaxSr (c : BitVec 1) (d : BitVec 6) (a : BitVec 6) (b : BitVec 6) : Encodes.Statement (.imaxSr c d a b) := ⟨rfl, by have := c.isLt; have := d.isLt; have := a.isLt; have := b.isLt; omega⟩
theorem Encodes.iminUSr (c : BitVec 1) (d : BitVec 6) (a : BitVec 6) (b : BitVec 6) : Encodes.Statement (.iminUSr c d a b) := ⟨rfl, by have := c.isLt; have := d.isLt; have := a.isLt; have := b.isLt; omega⟩
theorem Encodes.imaxUSr (c : BitVec 1) (d : BitVec 6) (a : BitVec 6) (b : BitVec 6) : Encodes.Statement (.imaxUSr c d a b) := ⟨rfl, by have := c.isLt; have := d.isLt; have := a.isLt; have := b.isLt; omega⟩
theorem Encodes.sltSr (c : BitVec 1) (d : BitVec 6) (a : BitVec 6) (b : BitVec 6) : Encodes.Statement (.sltSr c d a b) := ⟨rfl, by have := c.isLt; have := d.isLt; have := a.isLt; have := b.isLt; omega⟩
theorem Encodes.sltUSr (c : BitVec 1) (d : BitVec 6) (a : BitVec 6) (b : BitVec 6) : Encodes.Statement (.sltUSr c d a b) := ⟨rfl, by have := c.isLt; have := d.isLt; have := a.isLt; have := b.isLt; omega⟩
theorem Encodes.idivu (c : BitVec 1) (d : BitVec 6) (a : BitVec 6) (b : BitVec 6) : Encodes.Statement (.idivu c d a b) := ⟨rfl, by have := c.isLt; have := d.isLt; have := a.isLt; have := b.isLt; omega⟩
theorem Encodes.iremu (c : BitVec 1) (d : BitVec 6) (a : BitVec 6) (b : BitVec 6) : Encodes.Statement (.iremu c d a b) := ⟨rfl, by have := c.isLt; have := d.isLt; have := a.isLt; have := b.isLt; omega⟩
theorem Encodes.iadd64 (c : BitVec 1) (d : BitVec 6) (a : BitVec 6) (b : BitVec 6) : Encodes.Statement (.iadd64 c d a b) := ⟨rfl, by have := c.isLt; have := d.isLt; have := a.isLt; have := b.isLt; omega⟩
theorem Encodes.isub64 (c : BitVec 1) (d : BitVec 6) (a : BitVec 6) (b : BitVec 6) : Encodes.Statement (.isub64 c d a b) := ⟨rfl, by have := c.isLt; have := d.isLt; have := a.isLt; have := b.isLt; omega⟩
theorem Encodes.iaddSi (c : BitVec 1) (d : BitVec 6) (a : BitVec 6) (i : BitVec 10) : Encodes.Statement (.iaddSi c d a i) := ⟨rfl, by have := c.isLt; have := d.isLt; have := a.isLt; have := i.isLt; omega⟩
theorem Encodes.andSi (c : BitVec 1) (d : BitVec 6) (a : BitVec 6) (i : BitVec 10) : Encodes.Statement (.andSi c d a i) := ⟨rfl, by have := c.isLt; have := d.isLt; have := a.isLt; have := i.isLt; omega⟩
theorem Encodes.orSi (c : BitVec 1) (d : BitVec 6) (a : BitVec 6) (i : BitVec 10) : Encodes.Statement (.orSi c d a i) := ⟨rfl, by have := c.isLt; have := d.isLt; have := a.isLt; have := i.isLt; omega⟩
theorem Encodes.xorSi (c : BitVec 1) (d : BitVec 6) (a : BitVec 6) (i : BitVec 10) : Encodes.Statement (.xorSi c d a i) := ⟨rfl, by have := c.isLt; have := d.isLt; have := a.isLt; have := i.isLt; omega⟩
theorem Encodes.shlSi (c : BitVec 1) (d : BitVec 6) (a : BitVec 6) (i : BitVec 10) : Encodes.Statement (.shlSi c d a i) := ⟨rfl, by have := c.isLt; have := d.isLt; have := a.isLt; have := i.isLt; omega⟩
theorem Encodes.shrSi (c : BitVec 1) (d : BitVec 6) (a : BitVec 6) (i : BitVec 10) : Encodes.Statement (.shrSi c d a i) := ⟨rfl, by have := c.isLt; have := d.isLt; have := a.isLt; have := i.isLt; omega⟩
theorem Encodes.sraSi (c : BitVec 1) (d : BitVec 6) (a : BitVec 6) (i : BitVec 10) : Encodes.Statement (.sraSi c d a i) := ⟨rfl, by have := c.isLt; have := d.isLt; have := a.isLt; have := i.isLt; omega⟩
theorem Encodes.sltSi (c : BitVec 1) (d : BitVec 6) (a : BitVec 6) (i : BitVec 10) : Encodes.Statement (.sltSi c d a i) := ⟨rfl, by have := c.isLt; have := d.isLt; have := a.isLt; have := i.isLt; omega⟩
theorem Encodes.lui (c : BitVec 1) (d : BitVec 6) (i : BitVec 19) : Encodes.Statement (.lui c d i) := ⟨rfl, by have := c.isLt; have := d.isLt; have := i.isLt; omega⟩
theorem Encodes.gets (c : BitVec 1) (d : BitVec 6) (n : BitVec 8) : Encodes.Statement (.gets c d n) := ⟨rfl, by have := c.isLt; have := d.isLt; have := n.isLt; omega⟩
theorem Encodes.ldScalar (c : BitVec 1) (d : BitVec 6) (b : BitVec 6) (z : BitVec 2) (o : BitVec 11) : Encodes.Statement (.ldScalar c d b z o) := ⟨rfl, by have := c.isLt; have := d.isLt; have := b.isLt; have := z.isLt; have := o.isLt; omega⟩
theorem Encodes.stScalar (c : BitVec 1) (d : BitVec 6) (b : BitVec 6) (z : BitVec 2) (o : BitVec 11) : Encodes.Statement (.stScalar c d b z o) := ⟨rfl, by have := c.isLt; have := d.isLt; have := b.isLt; have := z.isLt; have := o.isLt; omega⟩
theorem Encodes.iaddVr (c : BitVec 1) (d : BitVec 7) (a : BitVec 7) (b : BitVec 7) : Encodes.Statement (.iaddVr c d a b) := ⟨rfl, by have := c.isLt; have := d.isLt; have := a.isLt; have := b.isLt; omega⟩
theorem Encodes.isubVr (c : BitVec 1) (d : BitVec 7) (a : BitVec 7) (b : BitVec 7) : Encodes.Statement (.isubVr c d a b) := ⟨rfl, by have := c.isLt; have := d.isLt; have := a.isLt; have := b.isLt; omega⟩
theorem Encodes.imulVr (c : BitVec 1) (d : BitVec 7) (a : BitVec 7) (b : BitVec 7) : Encodes.Statement (.imulVr c d a b) := ⟨rfl, by have := c.isLt; have := d.isLt; have := a.isLt; have := b.isLt; omega⟩
theorem Encodes.imulhVr (c : BitVec 1) (d : BitVec 7) (a : BitVec 7) (b : BitVec 7) : Encodes.Statement (.imulhVr c d a b) := ⟨rfl, by have := c.isLt; have := d.isLt; have := a.isLt; have := b.isLt; omega⟩
theorem Encodes.imulhUVr (c : BitVec 1) (d : BitVec 7) (a : BitVec 7) (b : BitVec 7) : Encodes.Statement (.imulhUVr c d a b) := ⟨rfl, by have := c.isLt; have := d.isLt; have := a.isLt; have := b.isLt; omega⟩
theorem Encodes.andVr (c : BitVec 1) (d : BitVec 7) (a : BitVec 7) (b : BitVec 7) : Encodes.Statement (.andVr c d a b) := ⟨rfl, by have := c.isLt; have := d.isLt; have := a.isLt; have := b.isLt; omega⟩
theorem Encodes.orVr (c : BitVec 1) (d : BitVec 7) (a : BitVec 7) (b : BitVec 7) : Encodes.Statement (.orVr c d a b) := ⟨rfl, by have := c.isLt; have := d.isLt; have := a.isLt; have := b.isLt; omega⟩
theorem Encodes.xorVr (c : BitVec 1) (d : BitVec 7) (a : BitVec 7) (b : BitVec 7) : Encodes.Statement (.xorVr c d a b) := ⟨rfl, by have := c.isLt; have := d.isLt; have := a.isLt; have := b.isLt; omega⟩
theorem Encodes.andnVr (c : BitVec 1) (d : BitVec 7) (a : BitVec 7) (b : BitVec 7) : Encodes.Statement (.andnVr c d a b) := ⟨rfl, by have := c.isLt; have := d.isLt; have := a.isLt; have := b.isLt; omega⟩
theorem Encodes.shlVr (c : BitVec 1) (d : BitVec 7) (a : BitVec 7) (b : BitVec 7) : Encodes.Statement (.shlVr c d a b) := ⟨rfl, by have := c.isLt; have := d.isLt; have := a.isLt; have := b.isLt; omega⟩
theorem Encodes.shrVr (c : BitVec 1) (d : BitVec 7) (a : BitVec 7) (b : BitVec 7) : Encodes.Statement (.shrVr c d a b) := ⟨rfl, by have := c.isLt; have := d.isLt; have := a.isLt; have := b.isLt; omega⟩
theorem Encodes.sraVr (c : BitVec 1) (d : BitVec 7) (a : BitVec 7) (b : BitVec 7) : Encodes.Statement (.sraVr c d a b) := ⟨rfl, by have := c.isLt; have := d.isLt; have := a.isLt; have := b.isLt; omega⟩
theorem Encodes.iminVr (c : BitVec 1) (d : BitVec 7) (a : BitVec 7) (b : BitVec 7) : Encodes.Statement (.iminVr c d a b) := ⟨rfl, by have := c.isLt; have := d.isLt; have := a.isLt; have := b.isLt; omega⟩
theorem Encodes.imaxVr (c : BitVec 1) (d : BitVec 7) (a : BitVec 7) (b : BitVec 7) : Encodes.Statement (.imaxVr c d a b) := ⟨rfl, by have := c.isLt; have := d.isLt; have := a.isLt; have := b.isLt; omega⟩
theorem Encodes.iminUVr (c : BitVec 1) (d : BitVec 7) (a : BitVec 7) (b : BitVec 7) : Encodes.Statement (.iminUVr c d a b) := ⟨rfl, by have := c.isLt; have := d.isLt; have := a.isLt; have := b.isLt; omega⟩
theorem Encodes.imaxUVr (c : BitVec 1) (d : BitVec 7) (a : BitVec 7) (b : BitVec 7) : Encodes.Statement (.imaxUVr c d a b) := ⟨rfl, by have := c.isLt; have := d.isLt; have := a.isLt; have := b.isLt; omega⟩
theorem Encodes.iaddVi (c : BitVec 1) (d : BitVec 7) (a : BitVec 7) (i : BitVec 9) : Encodes.Statement (.iaddVi c d a i) := ⟨rfl, by have := c.isLt; have := d.isLt; have := a.isLt; have := i.isLt; omega⟩
theorem Encodes.andVi (c : BitVec 1) (d : BitVec 7) (a : BitVec 7) (i : BitVec 9) : Encodes.Statement (.andVi c d a i) := ⟨rfl, by have := c.isLt; have := d.isLt; have := a.isLt; have := i.isLt; omega⟩
theorem Encodes.shlVi (c : BitVec 1) (d : BitVec 7) (a : BitVec 7) (i : BitVec 9) : Encodes.Statement (.shlVi c d a i) := ⟨rfl, by have := c.isLt; have := d.isLt; have := a.isLt; have := i.isLt; omega⟩
theorem Encodes.shrVi (c : BitVec 1) (d : BitVec 7) (a : BitVec 7) (i : BitVec 9) : Encodes.Statement (.shrVi c d a i) := ⟨rfl, by have := c.isLt; have := d.isLt; have := a.isLt; have := i.isLt; omega⟩
theorem Encodes.iaddP16 (c : BitVec 1) (d : BitVec 7) (a : BitVec 7) (b : BitVec 7) : Encodes.Statement (.iaddP16 c d a b) := ⟨rfl, by have := c.isLt; have := d.isLt; have := a.isLt; have := b.isLt; omega⟩
theorem Encodes.isubP16 (c : BitVec 1) (d : BitVec 7) (a : BitVec 7) (b : BitVec 7) : Encodes.Statement (.isubP16 c d a b) := ⟨rfl, by have := c.isLt; have := d.isLt; have := a.isLt; have := b.isLt; omega⟩
theorem Encodes.iaddsP16 (c : BitVec 1) (d : BitVec 7) (a : BitVec 7) (b : BitVec 7) : Encodes.Statement (.iaddsP16 c d a b) := ⟨rfl, by have := c.isLt; have := d.isLt; have := a.isLt; have := b.isLt; omega⟩
theorem Encodes.isubsP16 (c : BitVec 1) (d : BitVec 7) (a : BitVec 7) (b : BitVec 7) : Encodes.Statement (.isubsP16 c d a b) := ⟨rfl, by have := c.isLt; have := d.isLt; have := a.isLt; have := b.isLt; omega⟩
theorem Encodes.imaxP16 (c : BitVec 1) (d : BitVec 7) (a : BitVec 7) (b : BitVec 7) : Encodes.Statement (.imaxP16 c d a b) := ⟨rfl, by have := c.isLt; have := d.isLt; have := a.isLt; have := b.isLt; omega⟩
theorem Encodes.iminP16 (c : BitVec 1) (d : BitVec 7) (a : BitVec 7) (b : BitVec 7) : Encodes.Statement (.iminP16 c d a b) := ⟨rfl, by have := c.isLt; have := d.isLt; have := a.isLt; have := b.isLt; omega⟩
theorem Encodes.cmpvGtP16 (c : BitVec 1) (d : BitVec 7) (a : BitVec 7) (b : BitVec 7) : Encodes.Statement (.cmpvGtP16 c d a b) := ⟨rfl, by have := c.isLt; have := d.isLt; have := a.isLt; have := b.isLt; omega⟩
theorem Encodes.iaddP8 (c : BitVec 1) (d : BitVec 7) (a : BitVec 7) (b : BitVec 7) : Encodes.Statement (.iaddP8 c d a b) := ⟨rfl, by have := c.isLt; have := d.isLt; have := a.isLt; have := b.isLt; omega⟩
theorem Encodes.isubP8 (c : BitVec 1) (d : BitVec 7) (a : BitVec 7) (b : BitVec 7) : Encodes.Statement (.isubP8 c d a b) := ⟨rfl, by have := c.isLt; have := d.isLt; have := a.isLt; have := b.isLt; omega⟩
theorem Encodes.iaddsUP8 (c : BitVec 1) (d : BitVec 7) (a : BitVec 7) (b : BitVec 7) : Encodes.Statement (.iaddsUP8 c d a b) := ⟨rfl, by have := c.isLt; have := d.isLt; have := a.isLt; have := b.isLt; omega⟩
theorem Encodes.imaxUP8 (c : BitVec 1) (d : BitVec 7) (a : BitVec 7) (b : BitVec 7) : Encodes.Statement (.imaxUP8 c d a b) := ⟨rfl, by have := c.isLt; have := d.isLt; have := a.isLt; have := b.isLt; omega⟩
theorem Encodes.iminUP8 (c : BitVec 1) (d : BitVec 7) (a : BitVec 7) (b : BitVec 7) : Encodes.Statement (.iminUP8 c d a b) := ⟨rfl, by have := c.isLt; have := d.isLt; have := a.isLt; have := b.isLt; omega⟩
theorem Encodes.permb (c : BitVec 1) (d : BitVec 7) (a : BitVec 7) (b : BitVec 7) : Encodes.Statement (.permb c d a b) := ⟨rfl, by have := c.isLt; have := d.isLt; have := a.isLt; have := b.isLt; omega⟩
theorem Encodes.pack16 (c : BitVec 1) (d : BitVec 7) (a : BitVec 7) (b : BitVec 7) : Encodes.Statement (.pack16 c d a b) := ⟨rfl, by have := c.isLt; have := d.isLt; have := a.isLt; have := b.isLt; omega⟩
theorem Encodes.unpk16Lo (c : BitVec 1) (d : BitVec 7) (a : BitVec 7) (b : BitVec 7) : Encodes.Statement (.unpk16Lo c d a b) := ⟨rfl, by have := c.isLt; have := d.isLt; have := a.isLt; have := b.isLt; omega⟩
theorem Encodes.unpk16Hi (c : BitVec 1) (d : BitVec 7) (a : BitVec 7) (b : BitVec 7) : Encodes.Statement (.unpk16Hi c d a b) := ⟨rfl, by have := c.isLt; have := d.isLt; have := a.isLt; have := b.isLt; omega⟩
theorem Encodes.li (c : BitVec 1) (d : BitVec 7) (i : BitVec 18) : Encodes.Statement (.li c d i) := ⟨rfl, by have := c.isLt; have := d.isLt; have := i.isLt; omega⟩
theorem Encodes.sel (c : BitVec 1) (d : BitVec 7) (a : BitVec 7) (b : BitVec 7) (k : BitVec 4) : Encodes.Statement (.sel c d a b k) := ⟨rfl, by have := c.isLt; have := d.isLt; have := a.isLt; have := b.isLt; have := k.isLt; omega⟩
theorem Encodes.bcast (c : BitVec 1) (d : BitVec 7) (s : BitVec 6) : Encodes.Statement (.bcast c d s) := ⟨rfl, by have := c.isLt; have := d.isLt; have := s.isLt; omega⟩
theorem Encodes.iaddVs (c : BitVec 1) (d : BitVec 7) (a : BitVec 7) (s : BitVec 6) : Encodes.Statement (.iaddVs c d a s) := ⟨rfl, by have := c.isLt; have := d.isLt; have := a.isLt; have := s.isLt; omega⟩
theorem Encodes.imulVs (c : BitVec 1) (d : BitVec 7) (a : BitVec 7) (s : BitVec 6) : Encodes.Statement (.imulVs c d a s) := ⟨rfl, by have := c.isLt; have := d.isLt; have := a.isLt; have := s.isLt; omega⟩
theorem Encodes.faddVs (c : BitVec 1) (d : BitVec 7) (a : BitVec 7) (s : BitVec 6) : Encodes.Statement (.faddVs c d a s) := ⟨rfl, by have := c.isLt; have := d.isLt; have := a.isLt; have := s.isLt; omega⟩
theorem Encodes.fmulVs (c : BitVec 1) (d : BitVec 7) (a : BitVec 7) (s : BitVec 6) : Encodes.Statement (.fmulVs c d a s) := ⟨rfl, by have := c.isLt; have := d.isLt; have := a.isLt; have := s.isLt; omega⟩
theorem Encodes.ffmaVs (c : BitVec 1) (d : BitVec 7) (a : BitVec 7) (s : BitVec 6) : Encodes.Statement (.ffmaVs c d a s) := ⟨rfl, by have := c.isLt; have := d.isLt; have := a.isLt; have := s.isLt; omega⟩
theorem Encodes.laneid (c : BitVec 1) (d : BitVec 7) (s : BitVec 6) : Encodes.Statement (.laneid c d s) := ⟨rfl, by have := c.isLt; have := d.isLt; have := s.isLt; omega⟩
theorem Encodes.rand (c : BitVec 1) (d : BitVec 7) (s : BitVec 6) : Encodes.Statement (.rand c d s) := ⟨rfl, by have := c.isLt; have := d.isLt; have := s.isLt; omega⟩
theorem Encodes.samp (c : BitVec 1) (d : BitVec 7) (a : BitVec 7) (s : BitVec 6) : Encodes.Statement (.samp c d a s) := ⟨rfl, by have := c.isLt; have := d.isLt; have := a.isLt; have := s.isLt; omega⟩
theorem Encodes.rdlane (c : BitVec 1) (d : BitVec 6) (a : BitVec 7) (s : BitVec 6) : Encodes.Statement (.rdlane c d a s) := ⟨rfl, by have := c.isLt; have := d.isLt; have := a.isLt; have := s.isLt; omega⟩
theorem Encodes.popc (c : BitVec 1) (d : BitVec 7) (a : BitVec 7) : Encodes.Statement (.popc c d a) := ⟨rfl, by have := c.isLt; have := d.isLt; have := a.isLt; omega⟩
theorem Encodes.clz (c : BitVec 1) (d : BitVec 7) (a : BitVec 7) : Encodes.Statement (.clz c d a) := ⟨rfl, by have := c.isLt; have := d.isLt; have := a.isLt; omega⟩
theorem Encodes.fadd (c : BitVec 1) (d : BitVec 7) (a : BitVec 7) (b : BitVec 7) : Encodes.Statement (.fadd c d a b) := ⟨rfl, by have := c.isLt; have := d.isLt; have := a.isLt; have := b.isLt; omega⟩
theorem Encodes.fsub (c : BitVec 1) (d : BitVec 7) (a : BitVec 7) (b : BitVec 7) : Encodes.Statement (.fsub c d a b) := ⟨rfl, by have := c.isLt; have := d.isLt; have := a.isLt; have := b.isLt; omega⟩
theorem Encodes.fmul (c : BitVec 1) (d : BitVec 7) (a : BitVec 7) (b : BitVec 7) : Encodes.Statement (.fmul c d a b) := ⟨rfl, by have := c.isLt; have := d.isLt; have := a.isLt; have := b.isLt; omega⟩
theorem Encodes.ffma (c : BitVec 1) (d : BitVec 7) (a : BitVec 7) (b : BitVec 7) : Encodes.Statement (.ffma c d a b) := ⟨rfl, by have := c.isLt; have := d.isLt; have := a.isLt; have := b.isLt; omega⟩
theorem Encodes.ffms (c : BitVec 1) (d : BitVec 7) (a : BitVec 7) (b : BitVec 7) : Encodes.Statement (.ffms c d a b) := ⟨rfl, by have := c.isLt; have := d.isLt; have := a.isLt; have := b.isLt; omega⟩
theorem Encodes.fnfma (c : BitVec 1) (d : BitVec 7) (a : BitVec 7) (b : BitVec 7) : Encodes.Statement (.fnfma c d a b) := ⟨rfl, by have := c.isLt; have := d.isLt; have := a.isLt; have := b.isLt; omega⟩
theorem Encodes.fmin (c : BitVec 1) (d : BitVec 7) (a : BitVec 7) (b : BitVec 7) : Encodes.Statement (.fmin c d a b) := ⟨rfl, by have := c.isLt; have := d.isLt; have := a.isLt; have := b.isLt; omega⟩
theorem Encodes.fmax (c : BitVec 1) (d : BitVec 7) (a : BitVec 7) (b : BitVec 7) : Encodes.Statement (.fmax c d a b) := ⟨rfl, by have := c.isLt; have := d.isLt; have := a.isLt; have := b.isLt; omega⟩
theorem Encodes.fminn (c : BitVec 1) (d : BitVec 7) (a : BitVec 7) (b : BitVec 7) : Encodes.Statement (.fminn c d a b) := ⟨rfl, by have := c.isLt; have := d.isLt; have := a.isLt; have := b.isLt; omega⟩
theorem Encodes.fmaxn (c : BitVec 1) (d : BitVec 7) (a : BitVec 7) (b : BitVec 7) : Encodes.Statement (.fmaxn c d a b) := ⟨rfl, by have := c.isLt; have := d.isLt; have := a.isLt; have := b.isLt; omega⟩
theorem Encodes.fabs (c : BitVec 1) (d : BitVec 7) (a : BitVec 7) : Encodes.Statement (.fabs c d a) := ⟨rfl, by have := c.isLt; have := d.isLt; have := a.isLt; omega⟩
theorem Encodes.fneg (c : BitVec 1) (d : BitVec 7) (a : BitVec 7) : Encodes.Statement (.fneg c d a) := ⟨rfl, by have := c.isLt; have := d.isLt; have := a.isLt; omega⟩
theorem Encodes.fcps (c : BitVec 1) (d : BitVec 7) (a : BitVec 7) (b : BitVec 7) : Encodes.Statement (.fcps c d a b) := ⟨rfl, by have := c.isLt; have := d.isLt; have := a.isLt; have := b.isLt; omega⟩
theorem Encodes.twosum (c : BitVec 1) (d : BitVec 7) (a : BitVec 7) (b : BitVec 7) : Encodes.Statement (.twosum c d a b) := ⟨rfl, by have := c.isLt; have := d.isLt; have := a.isLt; have := b.isLt; omega⟩
theorem Encodes.twoprod (c : BitVec 1) (d : BitVec 7) (a : BitVec 7) (b : BitVec 7) : Encodes.Statement (.twoprod c d a b) := ⟨rfl, by have := c.isLt; have := d.isLt; have := a.isLt; have := b.isLt; omega⟩
theorem Encodes.fclass (c : BitVec 1) (d : BitVec 7) (a : BitVec 7) : Encodes.Statement (.fclass c d a) := ⟨rfl, by have := c.isLt; have := d.isLt; have := a.isLt; omega⟩
theorem Encodes.cmp (c : BitVec 1) (k : BitVec 4) (a : BitVec 7) (b : BitVec 7) (o : BitVec 4) (t : BitVec 3) : Encodes.Statement (.cmp c k a b o t) := ⟨rfl, by have := c.isLt; have := k.isLt; have := a.isLt; have := b.isLt; have := o.isLt; have := t.isLt; omega⟩
theorem Encodes.faddB2 (c : BitVec 1) (d : BitVec 7) (a : BitVec 7) (b : BitVec 7) : Encodes.Statement (.faddB2 c d a b) := ⟨rfl, by have := c.isLt; have := d.isLt; have := a.isLt; have := b.isLt; omega⟩
theorem Encodes.fmulB2 (c : BitVec 1) (d : BitVec 7) (a : BitVec 7) (b : BitVec 7) : Encodes.Statement (.fmulB2 c d a b) := ⟨rfl, by have := c.isLt; have := d.isLt; have := a.isLt; have := b.isLt; omega⟩
theorem Encodes.ffmaB2 (c : BitVec 1) (d : BitVec 7) (a : BitVec 7) (b : BitVec 7) : Encodes.Statement (.ffmaB2 c d a b) := ⟨rfl, by have := c.isLt; have := d.isLt; have := a.isLt; have := b.isLt; omega⟩
theorem Encodes.fmaxB2 (c : BitVec 1) (d : BitVec 7) (a : BitVec 7) (b : BitVec 7) : Encodes.Statement (.fmaxB2 c d a b) := ⟨rfl, by have := c.isLt; have := d.isLt; have := a.isLt; have := b.isLt; omega⟩
theorem Encodes.fminB2 (c : BitVec 1) (d : BitVec 7) (a : BitVec 7) (b : BitVec 7) : Encodes.Statement (.fminB2 c d a b) := ⟨rfl, by have := c.isLt; have := d.isLt; have := a.isLt; have := b.isLt; omega⟩
theorem Encodes.faddH2 (c : BitVec 1) (d : BitVec 7) (a : BitVec 7) (b : BitVec 7) : Encodes.Statement (.faddH2 c d a b) := ⟨rfl, by have := c.isLt; have := d.isLt; have := a.isLt; have := b.isLt; omega⟩
theorem Encodes.fmulH2 (c : BitVec 1) (d : BitVec 7) (a : BitVec 7) (b : BitVec 7) : Encodes.Statement (.fmulH2 c d a b) := ⟨rfl, by have := c.isLt; have := d.isLt; have := a.isLt; have := b.isLt; omega⟩
theorem Encodes.ffmaH2 (c : BitVec 1) (d : BitVec 7) (a : BitVec 7) (b : BitVec 7) : Encodes.Statement (.ffmaH2 c d a b) := ⟨rfl, by have := c.isLt; have := d.isLt; have := a.isLt; have := b.isLt; omega⟩
theorem Encodes.fmaxH2 (c : BitVec 1) (d : BitVec 7) (a : BitVec 7) (b : BitVec 7) : Encodes.Statement (.fmaxH2 c d a b) := ⟨rfl, by have := c.isLt; have := d.isLt; have := a.isLt; have := b.isLt; omega⟩
theorem Encodes.fminH2 (c : BitVec 1) (d : BitVec 7) (a : BitVec 7) (b : BitVec 7) : Encodes.Statement (.fminH2 c d a b) := ⟨rfl, by have := c.isLt; have := d.isLt; have := a.isLt; have := b.isLt; omega⟩
theorem Encodes.cbx (c : BitVec 1) (d : BitVec 7) (a : BitVec 7) (i : BitVec 9) : Encodes.Statement (.cbx c d a i) := ⟨rfl, by have := c.isLt; have := d.isLt; have := a.isLt; have := i.isLt; omega⟩
theorem Encodes.cbnear (c : BitVec 1) (d : BitVec 7) (a : BitVec 7) (i : BitVec 9) : Encodes.Statement (.cbnear c d a i) := ⟨rfl, by have := c.isLt; have := d.isLt; have := a.isLt; have := i.isLt; omega⟩
theorem Encodes.cbld (c : BitVec 1) (a : BitVec 7) (i : BitVec 9) : Encodes.Statement (.cbld c a i) := ⟨rfl, by have := c.isLt; have := a.isLt; have := i.isLt; omega⟩
theorem Encodes.cvt (c : BitVec 1) (d : BitVec 7) (a : BitVec 7) (o : BitVec 5) (r : BitVec 3) (s : BitVec 1) : Encodes.Statement (.cvt c d a o r s) := ⟨rfl, by have := c.isLt; have := d.isLt; have := a.isLt; have := o.isLt; have := r.isLt; have := s.isLt; omega⟩
theorem Encodes.rcps (c : BitVec 1) (d : BitVec 7) (a : BitVec 7) : Encodes.Statement (.rcps c d a) := ⟨rfl, by have := c.isLt; have := d.isLt; have := a.isLt; omega⟩
theorem Encodes.rsqs (c : BitVec 1) (d : BitVec 7) (a : BitVec 7) : Encodes.Statement (.rsqs c d a) := ⟨rfl, by have := c.isLt; have := d.isLt; have := a.isLt; omega⟩
theorem Encodes.exp2 (c : BitVec 1) (d : BitVec 7) (a : BitVec 7) : Encodes.Statement (.exp2 c d a) := ⟨rfl, by have := c.isLt; have := d.isLt; have := a.isLt; omega⟩
theorem Encodes.log2 (c : BitVec 1) (d : BitVec 7) (a : BitVec 7) : Encodes.Statement (.log2 c d a) := ⟨rfl, by have := c.isLt; have := d.isLt; have := a.isLt; omega⟩
theorem Encodes.tanh (c : BitVec 1) (d : BitVec 7) (a : BitVec 7) : Encodes.Statement (.tanh c d a) := ⟨rfl, by have := c.isLt; have := d.isLt; have := a.isLt; omega⟩
theorem Encodes.qswap (c : BitVec 1) (d : BitVec 7) (a : BitVec 7) (i : BitVec 2) : Encodes.Statement (.qswap c d a i) := ⟨rfl, by have := c.isLt; have := d.isLt; have := a.isLt; have := i.isLt; omega⟩
theorem Encodes.qbc (c : BitVec 1) (d : BitVec 7) (a : BitVec 7) (i : BitVec 2) : Encodes.Statement (.qbc c d a i) := ⟨rfl, by have := c.isLt; have := d.isLt; have := a.isLt; have := i.isLt; omega⟩
theorem Encodes.qred (c : BitVec 1) (d : BitVec 7) (a : BitVec 7) (i : BitVec 2) : Encodes.Statement (.qred c d a i) := ⟨rfl, by have := c.isLt; have := d.isLt; have := a.isLt; have := i.isLt; omega⟩
theorem Encodes.qfill (c : BitVec 1) : Encodes.Statement (.qfill c) := ⟨rfl, by have := c.isLt; omega⟩
theorem Encodes.shflAt (c : BitVec 1) (d : BitVec 7) (a : BitVec 7) (s : BitVec 6) : Encodes.Statement (.shflAt c d a s) := ⟨rfl, by have := c.isLt; have := d.isLt; have := a.isLt; have := s.isLt; omega⟩
theorem Encodes.shflRot (c : BitVec 1) (d : BitVec 7) (a : BitVec 7) (s : BitVec 6) : Encodes.Statement (.shflRot c d a s) := ⟨rfl, by have := c.isLt; have := d.isLt; have := a.isLt; have := s.isLt; omega⟩
theorem Encodes.shflShift (c : BitVec 1) (d : BitVec 7) (a : BitVec 7) (s : BitVec 6) : Encodes.Statement (.shflShift c d a s) := ⟨rfl, by have := c.isLt; have := d.isLt; have := a.isLt; have := s.isLt; omega⟩
theorem Encodes.shflMirr (c : BitVec 1) (d : BitVec 7) (a : BitVec 7) (s : BitVec 6) : Encodes.Statement (.shflMirr c d a s) := ⟨rfl, by have := c.isLt; have := d.isLt; have := a.isLt; have := s.isLt; omega⟩
theorem Encodes.redAddI (c : BitVec 1) (d : BitVec 7) (a : BitVec 7) : Encodes.Statement (.redAddI c d a) := ⟨rfl, by have := c.isLt; have := d.isLt; have := a.isLt; omega⟩
theorem Encodes.redAddF (c : BitVec 1) (d : BitVec 7) (a : BitVec 7) : Encodes.Statement (.redAddF c d a) := ⟨rfl, by have := c.isLt; have := d.isLt; have := a.isLt; omega⟩
theorem Encodes.redMaxF (c : BitVec 1) (d : BitVec 7) (a : BitVec 7) : Encodes.Statement (.redMaxF c d a) := ⟨rfl, by have := c.isLt; have := d.isLt; have := a.isLt; omega⟩
theorem Encodes.redMinF (c : BitVec 1) (d : BitVec 7) (a : BitVec 7) : Encodes.Statement (.redMinF c d a) := ⟨rfl, by have := c.isLt; have := d.isLt; have := a.isLt; omega⟩
theorem Encodes.redMaxI (c : BitVec 1) (d : BitVec 7) (a : BitVec 7) : Encodes.Statement (.redMaxI c d a) := ⟨rfl, by have := c.isLt; have := d.isLt; have := a.isLt; omega⟩
theorem Encodes.redMinI (c : BitVec 1) (d : BitVec 7) (a : BitVec 7) : Encodes.Statement (.redMinI c d a) := ⟨rfl, by have := c.isLt; have := d.isLt; have := a.isLt; omega⟩
theorem Encodes.redMaxixF (c : BitVec 1) (d : BitVec 7) (a : BitVec 7) (b : BitVec 7) : Encodes.Statement (.redMaxixF c d a b) := ⟨rfl, by have := c.isLt; have := d.isLt; have := a.isLt; have := b.isLt; omega⟩
theorem Encodes.redMinixF (c : BitVec 1) (d : BitVec 7) (a : BitVec 7) (b : BitVec 7) : Encodes.Statement (.redMinixF c d a b) := ⟨rfl, by have := c.isLt; have := d.isLt; have := a.isLt; have := b.isLt; omega⟩
theorem Encodes.scanAddI (c : BitVec 1) (d : BitVec 7) (a : BitVec 7) : Encodes.Statement (.scanAddI c d a) := ⟨rfl, by have := c.isLt; have := d.isLt; have := a.isLt; omega⟩
theorem Encodes.scanAddF (c : BitVec 1) (d : BitVec 7) (a : BitVec 7) : Encodes.Statement (.scanAddF c d a) := ⟨rfl, by have := c.isLt; have := d.isLt; have := a.isLt; omega⟩
theorem Encodes.shflVar (c : BitVec 1) (d : BitVec 7) (a : BitVec 7) (b : BitVec 7) : Encodes.Statement (.shflVar c d a b) := ⟨rfl, by have := c.isLt; have := d.isLt; have := a.isLt; have := b.isLt; omega⟩
theorem Encodes.redMaxixH (c : BitVec 1) (d : BitVec 7) (a : BitVec 7) (b : BitVec 7) : Encodes.Statement (.redMaxixH c d a b) := ⟨rfl, by have := c.isLt; have := d.isLt; have := a.isLt; have := b.isLt; omega⟩
theorem Encodes.ballot (c : BitVec 1) (d : BitVec 7) (a : BitVec 4) : Encodes.Statement (.ballot c d a) := ⟨rfl, by have := c.isLt; have := d.isLt; have := a.isLt; omega⟩
theorem Encodes.kany (c : BitVec 1) (a : BitVec 4) (k : BitVec 4) : Encodes.Statement (.kany c a k) := ⟨rfl, by have := c.isLt; have := a.isLt; have := k.isLt; omega⟩
theorem Encodes.kall (c : BitVec 1) (a : BitVec 4) (k : BitVec 4) : Encodes.Statement (.kall c a k) := ⟨rfl, by have := c.isLt; have := a.isLt; have := k.isLt; omega⟩
theorem Encodes.kpop (c : BitVec 1) (a : BitVec 4) (k : BitVec 4) : Encodes.Statement (.kpop c a k) := ⟨rfl, by have := c.isLt; have := a.isLt; have := k.isLt; omega⟩
theorem Encodes.krank (c : BitVec 1) (d : BitVec 7) (a : BitVec 4) : Encodes.Statement (.krank c d a) := ⟨rfl, by have := c.isLt; have := d.isLt; have := a.isLt; omega⟩
theorem Encodes.kand (c : BitVec 1) (k : BitVec 4) (a : BitVec 4) (b : BitVec 4) : Encodes.Statement (.kand c k a b) := ⟨rfl, by have := c.isLt; have := k.isLt; have := a.isLt; have := b.isLt; omega⟩
theorem Encodes.kor (c : BitVec 1) (k : BitVec 4) (a : BitVec 4) (b : BitVec 4) : Encodes.Statement (.kor c k a b) := ⟨rfl, by have := c.isLt; have := k.isLt; have := a.isLt; have := b.isLt; omega⟩
theorem Encodes.kxor (c : BitVec 1) (k : BitVec 4) (a : BitVec 4) (b : BitVec 4) : Encodes.Statement (.kxor c k a b) := ⟨rfl, by have := c.isLt; have := k.isLt; have := a.isLt; have := b.isLt; omega⟩
theorem Encodes.kandn (c : BitVec 1) (k : BitVec 4) (a : BitVec 4) (b : BitVec 4) : Encodes.Statement (.kandn c k a b) := ⟨rfl, by have := c.isLt; have := k.isLt; have := a.isLt; have := b.isLt; omega⟩
theorem Encodes.knot (c : BitVec 1) (k : BitVec 4) (a : BitVec 4) : Encodes.Statement (.knot c k a) := ⟨rfl, by have := c.isLt; have := k.isLt; have := a.isLt; omega⟩
theorem Encodes.kmov (c : BitVec 1) (k : BitVec 4) (a : BitVec 4) : Encodes.Statement (.kmov c k a) := ⟨rfl, by have := c.isLt; have := k.isLt; have := a.isLt; omega⟩
theorem Encodes.kset (c : BitVec 1) (k : BitVec 4) : Encodes.Statement (.kset c k) := ⟨rfl, by have := c.isLt; have := k.isLt; omega⟩
theorem Encodes.kclr (c : BitVec 1) (k : BitVec 4) : Encodes.Statement (.kclr c k) := ⟨rfl, by have := c.isLt; have := k.isLt; omega⟩
theorem Encodes.kfromv (c : BitVec 1) (k : BitVec 4) (v : BitVec 7) : Encodes.Statement (.kfromv c k v) := ⟨rfl, by have := c.isLt; have := k.isLt; have := v.isLt; omega⟩
theorem Encodes.kbit (c : BitVec 1) (k : BitVec 4) (a : BitVec 7) (n : BitVec 5) : Encodes.Statement (.kbit c k a n) := ⟨rfl, by have := c.isLt; have := k.isLt; have := a.isLt; have := n.isLt; omega⟩
theorem Encodes.ifK (k : BitVec 4) (o : BitVec 18) : Encodes.Statement (.ifK k o) := ⟨rfl, by have := k.isLt; have := o.isLt; omega⟩
theorem Encodes.elseK (o : BitVec 18) : Encodes.Statement (.elseK o) := ⟨rfl, by have := o.isLt; omega⟩
theorem Encodes.endIf (c : BitVec 1) : Encodes.Statement (.endIf c) := ⟨rfl, by have := c.isLt; omega⟩
theorem Encodes.brkIf (c : BitVec 1) (k : BitVec 4) (o : BitVec 18) : Encodes.Statement (.brkIf c k o) := ⟨rfl, by have := c.isLt; have := k.isLt; have := o.isLt; omega⟩
theorem Encodes.loop (c : BitVec 1) (o : BitVec 18) : Encodes.Statement (.loop c o) := ⟨rfl, by have := c.isLt; have := o.isLt; omega⟩
theorem Encodes.endLp (o : BitVec 18) : Encodes.Statement (.endLp o) := ⟨rfl, by have := o.isLt; omega⟩
theorem Encodes.regrp (v : BitVec 4) (o : BitVec 18) : Encodes.Statement (.regrp v o) := ⟨rfl, by have := v.isLt; have := o.isLt; omega⟩
theorem Encodes.endrg : Encodes.Statement (.endrg) := ⟨rfl, by omega⟩
theorem Encodes.bra (o : BitVec 15) : Encodes.Statement (.bra o) := ⟨rfl, by have := o.isLt; omega⟩
theorem Encodes.brc (k : BitVec 4) (s : BitVec 6) (o : BitVec 15) : Encodes.Statement (.brc k s o) := ⟨rfl, by have := k.isLt; have := s.isLt; have := o.isLt; omega⟩
theorem Encodes.call (o : BitVec 22) : Encodes.Statement (.call o) := ⟨rfl, by have := o.isLt; omega⟩
theorem Encodes.callr (s : BitVec 6) : Encodes.Statement (.callr s) := ⟨rfl, by have := s.isLt; omega⟩
theorem Encodes.ret : Encodes.Statement (.ret) := ⟨rfl, by omega⟩
theorem Encodes.jmpr (s : BitVec 6) : Encodes.Statement (.jmpr s) := ⟨rfl, by have := s.isLt; omega⟩
theorem Encodes.ldVector (c : BitVec 1) (d : BitVec 7) (b : BitVec 6) (i : BitVec 7) (z : BitVec 2) (p : BitVec 3) : Encodes.Statement (.ldVector c d b i z p) := ⟨rfl, by have := c.isLt; have := d.isLt; have := b.isLt; have := i.isLt; have := z.isLt; have := p.isLt; omega⟩
theorem Encodes.stVector (c : BitVec 1) (d : BitVec 7) (b : BitVec 6) (i : BitVec 7) (z : BitVec 2) (p : BitVec 3) : Encodes.Statement (.stVector c d b i z p) := ⟨rfl, by have := c.isLt; have := d.isLt; have := b.isLt; have := i.isLt; have := z.isLt; have := p.isLt; omega⟩
theorem Encodes.ldl (c : BitVec 1) (d : BitVec 7) (b : BitVec 6) (i : BitVec 7) (z : BitVec 2) : Encodes.Statement (.ldl c d b i z) := ⟨rfl, by have := c.isLt; have := d.isLt; have := b.isLt; have := i.isLt; have := z.isLt; omega⟩
theorem Encodes.stl (c : BitVec 1) (d : BitVec 7) (b : BitVec 6) (i : BitVec 7) (z : BitVec 2) : Encodes.Statement (.stl c d b i z) := ⟨rfl, by have := c.isLt; have := d.isLt; have := b.isLt; have := i.isLt; have := z.isLt; omega⟩
theorem Encodes.ldt (c : BitVec 1) (d : BitVec 7) (t : BitVec 6) (i : BitVec 7) : Encodes.Statement (.ldt c d t i) := ⟨rfl, by have := c.isLt; have := d.isLt; have := t.isLt; have := i.isLt; omega⟩
theorem Encodes.stt (c : BitVec 1) (d : BitVec 7) (t : BitVec 6) (i : BitVec 7) : Encodes.Statement (.stt c d t i) := ⟨rfl, by have := c.isLt; have := d.isLt; have := t.isLt; have := i.isLt; omega⟩
theorem Encodes.atom (c : BitVec 1) (d : BitVec 7) (a : BitVec 7) (o : BitVec 4) (e : BitVec 2) (s : BitVec 3) : Encodes.Statement (.atom c d a o e s) := ⟨rfl, by have := c.isLt; have := d.isLt; have := a.isLt; have := o.isLt; have := e.isLt; have := s.isLt; omega⟩
theorem Encodes.lmon (c : BitVec 1) (a : BitVec 7) (s : BitVec 6) : Encodes.Statement (.lmon c a s) := ⟨rfl, by have := c.isLt; have := a.isLt; have := s.isLt; omega⟩
theorem Encodes.waitm (a : BitVec 7) (s : BitVec 6) : Encodes.Statement (.waitm a s) := ⟨rfl, by have := a.isLt; have := s.isLt; omega⟩
theorem Encodes.fence (c : BitVec 1) (k : BitVec 3) (s : BitVec 3) : Encodes.Statement (.fence c k s) := ⟨rfl, by have := c.isLt; have := k.isLt; have := s.isLt; omega⟩
theorem Encodes.lpub (c : BitVec 1) (s : BitVec 3) (x : BitVec 6) : Encodes.Statement (.lpub c s x) := ⟨rfl, by have := c.isLt; have := s.isLt; have := x.isLt; omega⟩
theorem Encodes.lmark (c : BitVec 1) (s : BitVec 3) (x : BitVec 6) : Encodes.Statement (.lmark c s x) := ⟨rfl, by have := c.isLt; have := s.isLt; have := x.isLt; omega⟩
theorem Encodes.lacq (c : BitVec 1) (s : BitVec 3) (x : BitVec 6) (y : BitVec 6) : Encodes.Statement (.lacq c s x y) := ⟨rfl, by have := c.isLt; have := s.isLt; have := x.isLt; have := y.isLt; omega⟩
theorem Encodes.binit (c : BitVec 1) (b : BitVec 4) (s : BitVec 6) : Encodes.Statement (.binit c b s) := ⟨rfl, by have := c.isLt; have := b.isLt; have := s.isLt; omega⟩
theorem Encodes.barr (c : BitVec 1) (b : BitVec 4) (s : BitVec 6) : Encodes.Statement (.barr c b s) := ⟨rfl, by have := c.isLt; have := b.isLt; have := s.isLt; omega⟩
theorem Encodes.bwait (b : BitVec 4) (s : BitVec 6) : Encodes.Statement (.bwait b s) := ⟨rfl, by have := b.isLt; have := s.isLt; omega⟩
theorem Encodes.barw (b : BitVec 4) (s : BitVec 6) : Encodes.Statement (.barw b s) := ⟨rfl, by have := b.isLt; have := s.isLt; omega⟩
theorem Encodes.bphase (c : BitVec 1) (b : BitVec 4) (s : BitVec 6) : Encodes.Statement (.bphase c b s) := ⟨rfl, by have := c.isLt; have := b.isLt; have := s.isLt; omega⟩
theorem Encodes.bexp (c : BitVec 1) (b : BitVec 4) (s : BitVec 6) : Encodes.Statement (.bexp c b s) := ⟨rfl, by have := c.isLt; have := b.isLt; have := s.isLt; omega⟩
theorem Encodes.tdef (c : BitVec 1) (t : BitVec 6) (s : BitVec 6) : Encodes.Statement (.tdef c t s) := ⟨rfl, by have := c.isLt; have := t.isLt; have := s.isLt; omega⟩
theorem Encodes.tacq (c : BitVec 1) (t : BitVec 6) : Encodes.Statement (.tacq c t) := ⟨rfl, by have := c.isLt; have := t.isLt; omega⟩
theorem Encodes.trdy (c : BitVec 1) (t : BitVec 6) : Encodes.Statement (.trdy c t) := ⟨rfl, by have := c.isLt; have := t.isLt; omega⟩
theorem Encodes.trel (c : BitVec 1) (t : BitVec 6) : Encodes.Statement (.trel c t) := ⟨rfl, by have := c.isLt; have := t.isLt; omega⟩
theorem Encodes.tstat (c : BitVec 1) (t : BitVec 6) (s : BitVec 6) : Encodes.Statement (.tstat c t s) := ⟨rfl, by have := c.isLt; have := t.isLt; have := s.isLt; omega⟩
theorem Encodes.thand (c : BitVec 1) (s : BitVec 6) : Encodes.Statement (.thand c s) := ⟨rfl, by have := c.isLt; have := s.isLt; omega⟩
theorem Encodes.tadopt (c : BitVec 1) (s : BitVec 6) : Encodes.Statement (.tadopt c s) := ⟨rfl, by have := c.isLt; have := s.isLt; omega⟩
theorem Encodes.cpyG2t (c : BitVec 1) (x : BitVec 6) (y : BitVec 6) (z : BitVec 6) (b : BitVec 4) : Encodes.Statement (.cpyG2t c x y z b) := ⟨rfl, by have := c.isLt; have := x.isLt; have := y.isLt; have := z.isLt; have := b.isLt; omega⟩
theorem Encodes.cpyT2g (c : BitVec 1) (x : BitVec 6) (y : BitVec 6) (z : BitVec 6) (b : BitVec 4) : Encodes.Statement (.cpyT2g c x y z b) := ⟨rfl, by have := c.isLt; have := x.isLt; have := y.isLt; have := z.isLt; have := b.isLt; omega⟩
theorem Encodes.cpyL2l (c : BitVec 1) (x : BitVec 6) (y : BitVec 6) (z : BitVec 6) (b : BitVec 4) : Encodes.Statement (.cpyL2l c x y z b) := ⟨rfl, by have := c.isLt; have := x.isLt; have := y.isLt; have := z.isLt; have := b.isLt; omega⟩
theorem Encodes.cpyG2g (c : BitVec 1) (x : BitVec 6) (y : BitVec 6) (z : BitVec 6) (b : BitVec 4) : Encodes.Statement (.cpyG2g c x y z b) := ⟨rfl, by have := c.isLt; have := x.isLt; have := y.isLt; have := z.isLt; have := b.isLt; omega⟩
theorem Encodes.cpyG2l (c : BitVec 1) (x : BitVec 6) (y : BitVec 6) (z : BitVec 6) (b : BitVec 4) : Encodes.Statement (.cpyG2l c x y z b) := ⟨rfl, by have := c.isLt; have := x.isLt; have := y.isLt; have := z.isLt; have := b.isLt; omega⟩
theorem Encodes.cpyL2g (c : BitVec 1) (x : BitVec 6) (y : BitVec 6) (z : BitVec 6) (b : BitVec 4) : Encodes.Statement (.cpyL2g c x y z b) := ⟨rfl, by have := c.isLt; have := x.isLt; have := y.isLt; have := z.isLt; have := b.isLt; omega⟩
theorem Encodes.gather (c : BitVec 1) (x : BitVec 6) (y : BitVec 6) (z : BitVec 6) (b : BitVec 4) : Encodes.Statement (.gather c x y z b) := ⟨rfl, by have := c.isLt; have := x.isLt; have := y.isLt; have := z.isLt; have := b.isLt; omega⟩
theorem Encodes.mldwTile (c : BitVec 1) (t : BitVec 6) (n : BitVec 1) : Encodes.Statement (.mldwTile c t n) := ⟨rfl, by have := c.isLt; have := t.isLt; have := n.isLt; omega⟩
theorem Encodes.mldwHandle (c : BitVec 1) (p : BitVec 6) (n : BitVec 1) : Encodes.Statement (.mldwHandle c p n) := ⟨rfl, by have := c.isLt; have := p.isLt; have := n.isLt; omega⟩
theorem Encodes.mma (c : BitVec 1) (t : BitVec 6) (g : BitVec 3) (s : BitVec 6) (n : BitVec 1) (a : BitVec 1) : Encodes.Statement (.mma c t g s n a) := ⟨rfl, by have := c.isLt; have := t.isLt; have := g.isLt; have := s.isLt; have := n.isLt; have := a.isLt; omega⟩
theorem Encodes.mz (c : BitVec 1) (s : BitVec 6) (n : BitVec 6) : Encodes.Statement (.mz c s n) := ⟨rfl, by have := c.isLt; have := s.isLt; have := n.isLt; omega⟩
theorem Encodes.mdrn (c : BitVec 1) (s : BitVec 6) : Encodes.Statement (.mdrn c s) := ⟨rfl, by have := c.isLt; have := s.isLt; omega⟩
theorem Encodes.mrst (c : BitVec 1) (s : BitVec 6) : Encodes.Statement (.mrst c s) := ⟨rfl, by have := c.isLt; have := s.isLt; omega⟩
theorem Encodes.mrel (c : BitVec 1) : Encodes.Statement (.mrel c) := ⟨rfl, by have := c.isLt; omega⟩
theorem Encodes.accrd (c : BitVec 1) (d : BitVec 7) (a : BitVec 6) (b : BitVec 6) : Encodes.Statement (.accrd c d a b) := ⟨rfl, by have := c.isLt; have := d.isLt; have := a.isLt; have := b.isLt; omega⟩
theorem Encodes.accrdF (c : BitVec 1) (d : BitVec 7) (a : BitVec 6) (b : BitVec 6) : Encodes.Statement (.accrdF c d a b) := ⟨rfl, by have := c.isLt; have := d.isLt; have := a.isLt; have := b.isLt; omega⟩
theorem Encodes.accwr (c : BitVec 1) (d : BitVec 7) (a : BitVec 6) (b : BitVec 6) : Encodes.Statement (.accwr c d a b) := ⟨rfl, by have := c.isLt; have := d.isLt; have := a.isLt; have := b.isLt; omega⟩
theorem Encodes.accwrF (c : BitVec 1) (d : BitVec 7) (a : BitVec 6) (b : BitVec 6) : Encodes.Statement (.accwrF c d a b) := ⟨rfl, by have := c.isLt; have := d.isLt; have := a.isLt; have := b.isLt; omega⟩
theorem Encodes.put (c : BitVec 1) (x : BitVec 6) (y : BitVec 6) (z : BitVec 6) (b : BitVec 4) : Encodes.Statement (.put c x y z b) := ⟨rfl, by have := c.isLt; have := x.isLt; have := y.isLt; have := z.isLt; have := b.isLt; omega⟩
theorem Encodes.puts (c : BitVec 1) (x : BitVec 6) (y : BitVec 6) (z : BitVec 6) (b : BitVec 4) : Encodes.Statement (.puts c x y z b) := ⟨rfl, by have := c.isLt; have := x.isLt; have := y.isLt; have := z.isLt; have := b.isLt; omega⟩
theorem Encodes.get (c : BitVec 1) (x : BitVec 6) (y : BitVec 6) (z : BitVec 6) (b : BitVec 4) : Encodes.Statement (.get c x y z b) := ⟨rfl, by have := c.isLt; have := x.isLt; have := y.isLt; have := z.isLt; have := b.isLt; omega⟩
theorem Encodes.csend (c : BitVec 1) (x : BitVec 6) (y : BitVec 6) (z : BitVec 6) (b : BitVec 4) : Encodes.Statement (.csend c x y z b) := ⟨rfl, by have := c.isLt; have := x.isLt; have := y.isLt; have := z.isLt; have := b.isLt; omega⟩
theorem Encodes.rsig (c : BitVec 1) (x : BitVec 6) (y : BitVec 6) (z : BitVec 6) (b : BitVec 4) : Encodes.Statement (.rsig c x y z b) := ⟨rfl, by have := c.isLt; have := x.isLt; have := y.isLt; have := z.isLt; have := b.isLt; omega⟩
theorem Encodes.spawn (c : BitVec 1) (x : BitVec 6) (y : BitVec 6) (z : BitVec 6) (b : BitVec 4) : Encodes.Statement (.spawn c x y z b) := ⟨rfl, by have := c.isLt; have := x.isLt; have := y.isLt; have := z.isLt; have := b.isLt; omega⟩
theorem Encodes.hpass (c : BitVec 1) (x : BitVec 6) (y : BitVec 6) (z : BitVec 6) (b : BitVec 4) : Encodes.Statement (.hpass c x y z b) := ⟨rfl, by have := c.isLt; have := x.isLt; have := y.isLt; have := z.isLt; have := b.isLt; omega⟩
theorem Encodes.getx (c : BitVec 1) (s : BitVec 6) (x : BitVec 11) : Encodes.Statement (.getx c s x) := ⟨rfl, by have := c.isLt; have := s.isLt; have := x.isLt; omega⟩
theorem Encodes.setx (c : BitVec 1) (s : BitVec 6) (x : BitVec 11) : Encodes.Statement (.setx c s x) := ⟨rfl, by have := c.isLt; have := s.isLt; have := x.isLt; omega⟩
theorem Encodes.sysc (i : BitVec 16) : Encodes.Statement (.sysc i) := ⟨rfl, by have := i.isLt; omega⟩
theorem Encodes.rett : Encodes.Statement (.rett) := ⟨rfl, by omega⟩
theorem Encodes.hcall (i : BitVec 16) : Encodes.Statement (.hcall i) := ⟨rfl, by have := i.isLt; omega⟩
theorem Encodes.tlbi (c : BitVec 1) (a : BitVec 6) : Encodes.Statement (.tlbi c a) := ⟨rfl, by have := c.isLt; have := a.isLt; omega⟩
theorem Encodes.tlbiAll (c : BitVec 1) : Encodes.Statement (.tlbiAll c) := ⟨rfl, by have := c.isLt; omega⟩
theorem Encodes.dict (c : BitVec 1) (h : BitVec 1) (w : BitVec 2) (i : BitVec 10) (x : BitVec 2) (j : BitVec 10) : Encodes.Statement (.dict c h w i x j) := ⟨rfl, by have := c.isLt; have := h.isLt; have := w.isLt; have := i.isLt; have := x.isLt; have := j.isLt; omega⟩
theorem Encodes.runStart (core slot : Nat) : Encodes.Statement (.runStart core slot) := rfl
theorem Encodes.teamPromote (team : Nat) : Encodes.Statement (.teamPromote team) := rfl
theorem Encodes.operationComplete (team op : Nat) : Encodes.Statement (.operationComplete team op) := rfl
theorem Encodes.walkComplete (die ctx page : Nat) : Encodes.Statement (.walkComplete die ctx page) := rfl
theorem Encodes.trapEntry (team : Nat) : Encodes.Statement (.trapEntry team) := rfl
theorem Encodes.regionRollback (team : Nat) : Encodes.Statement (.regionRollback team) := rfl
theorem Encodes.ladleGrant (launch : Nat) : Encodes.Statement (.ladleGrant launch) := rfl
theorem Encodes.regrpForm (block : Nat) : Encodes.Statement (.regrpForm block) := rfl
theorem Encodes.endrgReturn (block : Nat) : Encodes.Statement (.endrgReturn block) := rfl
theorem Encodes.teamWake (team : Nat) : Encodes.Statement (.teamWake team) := rfl
theorem Encodes.teamEnd (team : Nat) : Encodes.Statement (.teamEnd team) := rfl
theorem Encodes.blockEnd (block : Nat) : Encodes.Statement (.blockEnd block) := rfl
theorem Encodes.budgetOut (launch : Nat) : Encodes.Statement (.budgetOut launch) := rfl
theorem Encodes.fold (core : Nat) : Encodes.Statement (.fold core) := rfl
theorem Encodes.rebase : Encodes.Statement (.rebase) := rfl
theorem Encodes.engineCommandIssue (team : Nat) : Encodes.Statement (.engineCommandIssue team) := rfl
theorem Encodes.copyUnit (cmd unit : Nat) : Encodes.Statement (.copyUnit cmd unit) := rfl
theorem Encodes.copyComplete (cmd : Nat) : Encodes.Statement (.copyComplete cmd) := rfl
theorem Encodes.reservationGrant (cluster : Nat) : Encodes.Statement (.reservationGrant cluster) := rfl
theorem Encodes.reservationRetire (cluster entry : Nat) : Encodes.Statement (.reservationRetire cluster entry) := rfl
theorem Encodes.reservationPromote (cluster entry : Nat) : Encodes.Statement (.reservationPromote cluster entry) := rfl
theorem Encodes.packetSend (cmd : Nat) : Encodes.Statement (.packetSend cmd) := rfl
theorem Encodes.flitReceive (port : Nat) (flit : List (BitVec 8)) (crc : BitVec 32) (replay : Bool) (acked : Nat) (credits : List Nat) :
    Encodes.Statement (.flitReceive port flit crc replay acked credits) := rfl
theorem Encodes.linkRetrain (port : Nat) : Encodes.Statement (.linkRetrain port) := rfl
theorem Encodes.putDataPacket (port : Nat) (packet : List (BitVec 8)) : Encodes.Statement (.putDataPacket port packet) := rfl
theorem Encodes.putsDataPacket (port : Nat) (packet : List (BitVec 8)) : Encodes.Statement (.putsDataPacket port packet) := rfl
theorem Encodes.signalPacket (port : Nat) (packet : List (BitVec 8)) : Encodes.Statement (.signalPacket port packet) := rfl
theorem Encodes.getRequestPacket (port : Nat) (packet : List (BitVec 8)) : Encodes.Statement (.getRequestPacket port packet) := rfl
theorem Encodes.getResponsePacket (port : Nat) (packet : List (BitVec 8)) (poison : Nat) : Encodes.Statement (.getResponsePacket port packet poison) := rfl
theorem Encodes.collectiveChunk (port : Nat) (packet : List (BitVec 8)) : Encodes.Statement (.collectiveChunk port packet) := rfl
theorem Encodes.ackPacket (port : Nat) (packet : List (BitVec 8)) : Encodes.Statement (.ackPacket port packet) := rfl
theorem Encodes.nackPacket (port : Nat) (packet : List (BitVec 8)) (translation : Bool) : Encodes.Statement (.nackPacket port packet translation) := rfl
theorem Encodes.controlPacket (port : Nat) (packet : List (BitVec 8)) : Encodes.Statement (.controlPacket port packet) := rfl
theorem Encodes.retransmit (entry : Nat) : Encodes.Statement (.retransmit entry) := rfl
theorem Encodes.watchdog (slot : Nat) : Encodes.Statement (.watchdog slot) := rfl
theorem Encodes.coreOffer (core : Nat) : Encodes.Statement (.coreOffer core) := rfl
theorem Encodes.carveChange (core : Nat) : Encodes.Statement (.carveChange core) := rfl
theorem Encodes.governorEvaluate : Encodes.Statement (.governorEvaluate) := rfl
theorem Encodes.sliceBoundary (cluster : Nat) : Encodes.Statement (.sliceBoundary cluster) := rfl
theorem Encodes.classUpdate : Encodes.Statement (.classUpdate) := rfl
theorem Encodes.evictionCheck : Encodes.Statement (.evictionCheck) := rfl
theorem Encodes.blockEvict (block : Nat) : Encodes.Statement (.blockEvict block) := rfl
theorem Encodes.blockResume (image core : Nat) : Encodes.Statement (.blockResume image core) := rfl
theorem Encodes.fallback (core hold : Nat) : Encodes.Statement (.fallback core hold) := rfl
theorem Encodes.spawnAccept : Encodes.Statement (.spawnAccept) := rfl
theorem Encodes.passRecord : Encodes.Statement (.passRecord) := rfl
theorem Encodes.monitorSpuriousWake (image : Nat) : Encodes.Statement (.monitorSpuriousWake image) := rfl
theorem Encodes.lanemapApply (core : Nat) : Encodes.Statement (.lanemapApply core) := rfl
theorem Encodes.stopTimeout (tag : Nat) : Encodes.Statement (.stopTimeout tag) := rfl
theorem Encodes.load (image : List (BitVec 8)) : Encodes.Statement (.load image) := rfl
theorem Encodes.start : Encodes.Statement (.start) := rfl
theorem Encodes.signalArrival : Encodes.Statement (.signalArrival) := rfl
theorem Encodes.signalWord : Encodes.Statement (.signalWord) := rfl
theorem Encodes.stop : Encodes.Statement (.stop) := rfl
theorem Encodes.reset : Encodes.Statement (.reset) := rfl
theorem Encodes.ckpt : Encodes.Statement (.ckpt) := rfl
theorem Encodes.restore : Encodes.Statement (.restore) := rfl
theorem Encodes.setseed : Encodes.Statement (.setseed) := rfl
theorem Encodes.queryIdent : Encodes.Statement (.queryIdent) := rfl
theorem Encodes.queryHealth : Encodes.Statement (.queryHealth) := rfl
theorem Encodes.queryAttest : Encodes.Statement (.queryAttest) := rfl
theorem Encodes.queryEvents : Encodes.Statement (.queryEvents) := rfl
theorem Encodes.queryCapture : Encodes.Statement (.queryCapture) := rfl
theorem Encodes.badcmd : Encodes.Statement (.badcmd) := rfl
theorem Encodes.cqheadWrite (value : BitVec 32) : Encodes.Statement (.cqheadWrite value) := rfl
theorem Encodes.registerWrite (window : Bool) (offset : Nat) (value : List (BitVec 8)) : Encodes.Statement (.registerWrite window offset value) := rfl
theorem Encodes.hostApertureWrite (offset : Nat) (value : List (BitVec 8)) : Encodes.Statement (.hostApertureWrite offset value) := rfl
theorem Encodes.hostApertureRead (bar offset count : Nat) : Encodes.Statement (.hostApertureRead bar offset count) := rfl
theorem Encodes.debugEnableWrite (value : BitVec 32) : Encodes.Statement (.debugEnableWrite value) := rfl
theorem Encodes.meas7Write (value : List (BitVec 8)) : Encodes.Statement (.meas7Write value) := rfl
theorem Encodes.imageKeyWrite (entry : Nat) (key : List (BitVec 8)) : Encodes.Statement (.imageKeyWrite entry key) := rfl
theorem Encodes.firmwareImageWrite (image : List (BitVec 8)) : Encodes.Statement (.firmwareImageWrite image) := rfl
theorem Encodes.edgeViewPass : Encodes.Statement (.edgeViewPass) := rfl
theorem Encodes.coldStart : Encodes.Statement (.coldStart) := rfl
theorem Encodes.warmResetPin : Encodes.Statement (.warmResetPin) := rfl
theorem Encodes.powerLoss : Encodes.Statement (.powerLoss) := rfl
theorem Encodes.monitorSample (temps rails process : List Nat) (power flow : Nat) : Encodes.Statement (.monitorSample temps rails process power flow) := rfl
theorem Encodes.clockStepUp : Encodes.Statement (.clockStepUp) := rfl
theorem Encodes.eccError (kind unit place : Nat) (uncorrectable : Bool) : Encodes.Statement (.eccError kind unit place uncorrectable) := rfl
theorem Encodes.stackLost (stack : Nat) : Encodes.Statement (.stackLost stack) := rfl
theorem Encodes.hbmScrub : Encodes.Statement (.hbmScrub) := rfl
theorem Encodes.eventRecord : Encodes.Statement (.eventRecord) := rfl
theorem Encodes.ringWrite : Encodes.Statement (.ringWrite) := rfl
theorem Encodes.ringHeaderWrite : Encodes.Statement (.ringHeaderWrite) := rfl
theorem Encodes.sample (core team : Nat) : Encodes.Statement (.sample core team) := rfl
theorem Encodes.ckptComplete : Encodes.Statement (.ckptComplete) := rfl
theorem Encodes.restoreComplete : Encodes.Statement (.restoreComplete) := rfl
theorem Encodes.l2SectorEvict (sector : Nat) : Encodes.Statement (.l2SectorEvict sector) := rfl
theorem Encodes.l1LineEvict (core sector : Nat) : Encodes.Statement (.l1LineEvict core sector) := rfl
theorem Encodes.ptpMessage (time : Nat) : Encodes.Statement (.ptpMessage time) := rfl

end Sys2Proof.Laws
end

