-- ==== Sys2Proof/Laws/Registers.lean ====
section
/-! SUPPORT. What the shared operations on a team's registers do: one lemma for each, in the terms of Safety. -/

namespace Sys2Proof.Machine

open Sys2Proof.Claims

/-- Changing the team of a context that holds one is putting the changed team there. -/
theorem modTeam_of {s : State} {k : Nat} {t : Team} (h : s.team k = some t) (f : Team → Team) :
    s.modTeam k f = s.setTeam k (f t) := by
  simp only [State.team] at h
  simp [State.modTeam, State.setTeam, Table.update, h]

/-- An instruction that changes only its team. -/
theorem onTeam_of {s : State} {t : Team} (h : s.team s.cur = some t) (f : Team → Team) :
    onTeam s f = .next (s.setTeam s.cur (f t)) := by rw [onTeam, modTeam_of h]

/-! ### Notes beside outstanding operations (R67) -/

theorem dirtyKeys_eq (t : Team) (ks : List Nat) : t.dirtyKeys ks = { t with ops := (t.dirtyKeys ks).ops } := by
  unfold Team.dirtyKeys; split <;> rfl

theorem dirtyKeys_ops (t : Team) (ks : List Nat) :
    (t.dirtyKeys ks).ops.map (fun o => { o with dirty := [] }) = t.ops.map fun o => { o with dirty := [] } := by
  unfold Team.dirtyKeys; split <;> simp

/-! ### Keys of registers (R88, R89) -/

theorem vKey_lane {m : Mode} {r l l' : Nat} (h : vKey m r l = vKey m r l') : l = l' := by
  unfold vKey at h; omega

theorem lanesOf_lt {m : Mask} {n l : Nat} (h : l ∈ lanesOf m n) : l < n ∧ l < 1024 := by
  simp only [lanesOf, List.mem_filter, List.mem_range] at h
  refine ⟨h.1, ?_⟩
  exact Nat.lt_of_not_le fun hn => by simp [BitVec.getLsbD_of_ge m l hn] at h

@[simp] theorem mem_lanesOf {m : Mask} {n l : Nat} : l ∈ lanesOf m n ↔ l < n ∧ m.getLsbD l = true := by simp [lanesOf]

/-- A mask made of a list of lanes. -/
theorem getLsbD_maskOf (ls : List Nat) (i : Nat) : (maskOf ls).getLsbD i = (decide (i < 1024) && ls.contains i) := by
  have step : ∀ (ls : List Nat) (m : Mask), (ls.foldl (fun m i => m ||| (1#1024 <<< i)) m).getLsbD i =
      (m.getLsbD i || (decide (i < 1024) && ls.contains i)) := by
    intro ls
    induction ls with
    | nil => intro m; simp
    | cons x xs ih =>
      intro m
      simp only [List.foldl_cons, ih, BitVec.getLsbD_or, BitVec.getLsbD_shiftLeft, BitVec.getLsbD_one, List.contains_cons]
      by_cases hi : i < 1024
      · by_cases hx : i = x
        · subst hx; simp [hi]
        · have hb : (i == x) = false := by simpa using hx
          by_cases hl : i < x
          · simp [hi, hb, hl]
          · have : ¬ i - x = 0 := by omega
            simp [hi, hb, hl, this]
      · simp [hi]
  rw [maskOf, step]; simp

theorem getElem_maskOf (ls : List Nat) (i : Nat) (hi : i < 1024) : (maskOf ls)[i] = ls.contains i := by
  rw [← BitVec.getLsbD_eq_getElem, getLsbD_maskOf]; simp [hi]

/-! ### Writing -/

theorem writeV_writes (t : Team) (d : Nat) (ls : List Nat) (f : Nat → Word) : WritesLanes t (t.writeV d ls f) d ls f := by
  have ho := dirtyKeys_ops t (ls.map (vKey t.mode d))
  have inj : ∀ l ∈ ls, ∀ x ∈ ls, vKey t.mode d x = vKey t.mode d l → x = l := fun l _ x _ h => vKey_lane h
  unfold Team.writeV
  rw [dirtyKeys_eq]
  refine ⟨⟨rfl, by simpa [Team.modRegs] using ho⟩, rfl, ?_, ?_⟩
  · intro l hl
    refine ⟨?_, ?_⟩
    · simpa [vreg, Team.modRegs] using Sparse.get_setAll_of_mem 0#32 (vKey t.mode d) f ls t.regs.v l hl (inj l hl)
    · simp only [Team.modRegs]
      split
      · rename_i h; simp only [List.isEmpty_iff] at h; simp [h, Sparse.get]
      · exact Sparse.get_setAll_of_mem false (vKey t.mode d) (fun _ => false) ls _ l hl (inj l hl)
  · intro key hk
    have hk' : ∀ l ∈ ls, vKey t.mode d l ≠ key := fun l hl h => hk l hl h.symm
    refine ⟨?_, ?_⟩
    · simpa [Team.modRegs] using Sparse.get_setAll_of_not_mem 0#32 (vKey t.mode d) f ls t.regs.v key hk'
    · simp only [Team.modRegs]
      split
      · rfl
      · exact Sparse.get_setAll_of_not_mem false (vKey t.mode d) (fun _ => false) ls _ key hk'

theorem writeS_writes (t : Team) (d : Nat) (w : Word) : WritesScalar t (t.writeS d w) d w := by
  unfold Team.writeS
  split
  · subst d; exact ⟨⟨rfl, rfl⟩, rfl, by simp, fun k _ => ⟨rfl, rfl⟩⟩
  · rename_i hd
    have ho := dirtyKeys_ops t [1048576 + sKey t.mode d]
    rw [dirtyKeys_eq]
    refine ⟨⟨rfl, by simpa [Team.modRegs] using ho⟩, rfl, ?_, ?_⟩
    · intro _; simp [sreg, Team.modRegs, hd]
    · intro key hk
      rcases hk with h | h
      · exact absurd h hd
      · simp [Team.modRegs, h]

theorem writeBits_writes (t : Team) (d : Nat) (ls : List Nat) (f : Nat → Bool) :
    WritesBits t (t.writeBits d (maskOf ls) (maskOf (ls.filter f))) d ls f := by
  refine ⟨rfl, rfl, ?_, ?_, ?_⟩
  · intro i hi
    by_cases h : i ∈ ls <;> by_cases hf : f i = true <;>
      simp [kreg, Team.writeBits, Team.modRegs, getElem_maskOf, hi, h, hf]
  · intro i hi
    by_cases h : i ∈ ls <;> simp [Team.writeBits, Team.modRegs, getElem_maskOf, hi, h]
  · intro key hk; simp [Team.writeBits, Team.modRegs, hk]

/-! ### Poison (R273) -/

@[simp] theorem consume_zero (t : Team) : t.consume 0#1024 = t := by
  unfold Team.consume; split <;> simp

theorem poisonS_clean {t : Team} (h : Clean t) (r : Nat) : t.poisonS r = false := by
  simp [Team.poisonS, h.2, Sparse.get]

theorem poisonV_clean {t : Team} (h : Clean t) (r l : Nat) : t.poisonV r l = false := by
  simp [Team.poisonV, h.1, Sparse.get]

theorem filter_all {α : Type} (ls : List α) : ls.filter (fun _ => true) = ls := List.filter_eq_self.2 fun _ _ => rfl

/-- Nothing is consumed where nothing is poisoned. -/
theorem taint_clean {t : Team} (h : Clean t) (vs : Nat → List (Nat × Nat)) (src : List Nat) : t.taint vs src = 0#1024 := by
  simp [Team.taint, h.1, h.2]

theorem putLanes_clean {t : Team} (h : Clean t) (vs src d f) : t.putLanes vs src d f = t.writeV d (t.writers d) f := by
  simp [Team.putLanes, taint_clean h, filter_all]

theorem putActive_clean {t : Team} (h : Clean t) (vs src d f) : t.putActive vs src d f = t.writeV d t.actingLanes f := by
  simp [Team.putActive, taint_clean h, filter_all]

theorem putMask_clean {t : Team} (h : Clean t) (vs d f) :
    t.putMask vs d f = t.writeBits d (maskOf t.actingLanes) (maskOf (t.actingLanes.filter f)) := by
  simp [Team.putMask, taint_clean h, filter_all]

theorem flagLanes_clean {t : Team} (h : Clean t) (vs src) : t.flagLanes vs src = t.actingLanes := by
  simp [Team.flagLanes, taint_clean h, filter_all]

/-- A scalar instruction that acts, on clean sources. -/
theorem putS_acts {t : Team} (hm : t.mute = false) {src : List Nat} (hs : ∀ r ∈ src, t.poisonS r = false) (d w) :
    t.putS src d w = t.writeS d w := by
  have : src.any t.poisonS = false := by simpa using hs
  simp [Team.putS, Team.once, hm, Team.taintS, this]

/-- With every active lane held it does nothing (R98). -/
theorem putS_mute {t : Team} (hm : t.mute = true) (src d w) : t.putS src d w = t := by simp [Team.putS, Team.once, hm]

end Sys2Proof.Machine
end

