-- ==== Sys2Proof/Tests/Slice0.lean ====
section
/-! SUPPORT. The model's own tests: the smoke test of `Instr.wellFormed`, one decoded word of every instruction, single steps
with the results of the spec's worked cases, and for every statement with hypotheses a state and operands that meet them. -/

namespace Sys2Proof.Tests
open Sys2Proof Sys2Proof.Machine Sys2Proof.Claims

set_option maxRecDepth 20000
set_option Elab.async false

/-- Every instruction of the list breaks the word rules. -/
def allIll (xs : List Instr) : Bool := xs.all fun i => !i.wellFormed

/-- The pair rule: an odd register where R85 asks for an even one. -/
theorem test_ill_pairs : allIll [
    .iadd64 0 3 4 6, .iadd64 0 2 5 6, .isub64 0 2 4 7, .ldScalar 0 4 3 0 0, .ldScalar 0 5 2 1 0, .stScalar 0 4 3 0 0,
    .stScalar 0 5 2 1 0, .twosum 0 3 0 0, .twoprod 0 3 0 0, .redMaxixF 0 3 0 0, .redMinixF 0 3 0 0, .redMaxixH 0 3 0 0,
    .ldVector 0 4 3 1 0 0, .ldVector 0 5 2 1 1 0, .stVector 0 4 3 1 0 0, .stVector 0 5 2 1 1 0, .ldl 0 5 2 1 1, .stl 0 5 2 1 1,
    .lmon 0 3 1, .waitm 3 1, .mldwHandle 0 3 1, .accrd 0 3 0 0, .accwr 0 3 0 0, .tlbi 0 3, .cvt 0 2 3 12 0 0] = true := by decide +kernel

/-- The value rules of R83: an immediate, a count, a kind or a scope past its last value. -/
theorem test_ill_values : allIll [
    .shlSi 0 1 1 32, .shrSi 0 1 1 32, .sraSi 0 1 1 32, .shlVi 0 1 1 32, .shrVi 0 1 1 32, .gets 0 1 21, .cbx 0 1 1 4, .cbnear 0 1 1 8,
    .cbld 0 1 4, .cbld 0 1 508, .qswap 0 1 1 3, .brc 0 1 4, .brc 7 1 4, .ldVector 0 4 2 1 0 5, .stVector 0 4 2 1 0 5,
    .fence 0 4 0, .fence 0 0 5, .lpub 0 5 1, .lmark 0 5 1, .lacq 0 5 1 1, .atom 0 4 2 0 0 5, .regrp 3 0] = true := by decide +kernel

/-- `k0` is no destination of a mask instruction nor of `CMP` (R84). -/
theorem test_ill_k0 : allIll [
    .cmp 0 0 1 2 0 0, .kany 0 1 0, .kall 0 1 0, .kpop 0 1 0, .kand 0 0 1 2, .kor 0 0 1 2, .kxor 0 0 1 2, .kandn 0 0 1 2, .knot 0 0 1,
    .kmov 0 0 1, .kset 0 0, .kclr 0 0, .kfromv 0 0 1, .kbit 0 0 1 2] = true := by decide +kernel

/-- The field combinations R83 to R85 rule out: conditions of `CMP`, the ops of `CVT`, the wide ops of `ATOM`, privileged ids. -/
theorem test_ill_combinations : allIll [
    .cmp 0 1 2 3 8 0, .cmp 0 1 2 3 0 4, .cmp 0 1 2 3 6 1, .cmp 0 1 2 3 7 2, .cvt 0 1 2 16 0 0, .cvt 0 1 2 0 5 0, .cvt 0 1 2 2 1 0,
    .cvt 0 1 2 14 1 0, .cvt 0 1 2 2 0 1, .cvt 0 1 2 12 0 1, .atom 0 5 2 1 0 0, .atom 0 5 2 13 0 0, .atom 0 5 2 14 0 0, .atom 0 4 3 0 0 0,
    .getx 0 1 0x003, .setx 0 1 0x003, .setx 0 1 0x000, .setx 0 1 0x011, .setx 0 1 0x012, .setx 0 1 0x041] = true := by decide +kernel

/-- None of these words is an instruction: 0, the words the worked cases of the spec call illegal, a reserved major code, an odd pair. -/
theorem test_rejected_words :
    [0x00000000, 0x222081B1, 0x38340003, 0x50E80000, 0x66000000, 0x04194614].all
      (fun w => match decodeWord w with | .ok _ => false | .error _ => true) = true := by decide +kernel

/-- Word by word: each decodes to its instruction. -/
def allRead (xs : List (Nat × Instr)) : Bool := xs.all fun x => match decodeWord x.1 with | .ok i => decide (i = x.2) | .error _ => false

theorem test_decode_01 : allRead [
    (0x02000000, .nop 0),
    (0x02100000, .exit),
    (0x02200000, .yield),
    (0x02300005, .brkpt 0 5),
    (0x02400000, .sigck 0 0),
    (0x02500123, .evt 0 291),
    (0x02600000, .rgnb 0 0),
    (0x02700000, .rgne 0),
    (0x02800000, .gbar)] = true := by decide +kernel
theorem test_decode_02a : allRead [
    (0x0428C380, .iaddSr 0 5 6 7),
    (0x84310501, .isubSr 1 6 8 10),
    (0x84310502, .imulSr 1 6 8 10),
    (0x84310503, .imulhSr 1 6 8 10),
    (0x84310504, .imulhUSr 1 6 8 10),
    (0x84310505, .andSr 1 6 8 10),
    (0x84310506, .orSr 1 6 8 10),
    (0x0420A307, .xorSr 0 4 5 6),
    (0x04390488, .andnSr 0 7 8 9),
    (0x0420A309, .shlSr 0 4 5 6),
    (0x8431050A, .shrSr 1 6 8 10),
    (0x8431050B, .sraSr 1 6 8 10)] = true := by decide +kernel
theorem test_decode_02b : allRead [
    (0x8431050C, .iminSr 1 6 8 10),
    (0x8431050D, .imaxSr 1 6 8 10),
    (0x8431050E, .iminUSr 1 6 8 10),
    (0x8431050F, .imaxUSr 1 6 8 10),
    (0x0420A310, .sltSr 0 4 5 6),
    (0x0420A311, .sltUSr 0 4 5 6),
    (0x04188292, .idivu 0 3 4 5),
    (0x84310513, .iremu 1 6 8 10),
    (0x04414614, .iadd64 0 8 10 12),
    (0x84310515, .isub64 1 6 8 10)] = true := by decide +kernel
theorem test_decode_03 : allRead [
    (0x062083FF, .iaddSi 0 4 4 1023),
    (0x8631040A, .andSi 1 6 8 10),
    (0x0620881F, .orSi 0 4 4 31),
    (0x0620AFFF, .xorSi 0 4 5 1023),
    (0x8631100A, .shlSi 1 6 8 10),
    (0x8631140A, .shrSi 1 6 8 10),
    (0x0620B803, .sraSi 0 4 5 3),
    (0x0620BC0A, .sltSi 0 4 5 10)] = true := by decide +kernel
theorem test_decode_04 : allRead [
    (0x0821FC00, .lui 0 4 130048)] = true := by decide +kernel
theorem test_decode_05 : allRead [
    (0x0A205000, .gets 0 4 10)] = true := by decide +kernel
theorem test_decode_06 : allRead [
    (0x0C210010, .ldScalar 0 4 8 0 16)] = true := by decide +kernel
theorem test_decode_07 : allRead [
    (0x0E210010, .stScalar 0 4 8 0 16)] = true := by decide +kernel
theorem test_decode_08a : allRead [
    (0x100C0820, .iaddVr 0 3 1 2),
    (0x901840A1, .isubVr 1 6 8 10),
    (0x901840A2, .imulVr 1 6 8 10),
    (0x901840A3, .imulhVr 1 6 8 10),
    (0x10081844, .imulhUVr 0 2 3 4),
    (0x901840A5, .andVr 1 6 8 10),
    (0x100C0826, .orVr 0 3 1 2),
    (0x100C0827, .xorVr 0 3 1 2),
    (0x901840A8, .andnVr 1 6 8 10),
    (0x901840A9, .shlVr 1 6 8 10),
    (0x901840AA, .shrVr 1 6 8 10),
    (0x100C082B, .sraVr 0 3 1 2)] = true := by decide +kernel
theorem test_decode_08b : allRead [
    (0x901840AC, .iminVr 1 6 8 10),
    (0x901840AD, .imaxVr 1 6 8 10),
    (0x901840AE, .iminUVr 1 6 8 10),
    (0x901840AF, .imaxUVr 1 6 8 10)] = true := by decide +kernel
theorem test_decode_09 : allRead [
    (0x12040064, .iaddVi 0 1 0 100),
    (0x120C0AFF, .andVi 0 3 1 255),
    (0x9218440A, .shlVi 1 6 8 10),
    (0x120C0E04, .shrVi 0 3 1 4)] = true := by decide +kernel
theorem test_decode_0Aa : allRead [
    (0x941840A0, .iaddP16 1 6 8 10),
    (0x941840A1, .isubP16 1 6 8 10),
    (0x14242862, .iaddsP16 0 9 5 6),
    (0x941840A3, .isubsP16 1 6 8 10),
    (0x141C8114, .imaxP16 0 7 16 17),
    (0x941840A5, .iminP16 1 6 8 10),
    (0x14242866, .cmpvGtP16 0 9 5 6),
    (0x941840A7, .iaddP8 1 6 8 10),
    (0x941840A8, .isubP8 1 6 8 10),
    (0x941840A9, .iaddsUP8 1 6 8 10),
    (0x1404103A, .imaxUP8 0 1 2 3),
    (0x941840AB, .iminUP8 1 6 8 10)] = true := by decide +kernel
theorem test_decode_0Ab : allRead [
    (0x140C082C, .permb 0 3 1 2),
    (0x140C082D, .pack16 0 3 1 2),
    (0x140C080E, .unpk16Lo 0 3 1 0),
    (0x941840AF, .unpk16Hi 1 6 8 10)] = true := by decide +kernel
theorem test_decode_0B : allRead [
    (0x160FFFFF, .li 0 3 262143)] = true := by decide +kernel
theorem test_decode_0C : allRead [
    (0x180C0824, .sel 0 3 1 2 4)] = true := by decide +kernel
theorem test_decode_0D : allRead [
    (0x1A0C0120, .bcast 0 3 9),
    (0x1A0C20A1, .iaddVs 0 3 4 5),
    (0x9A184142, .imulVs 1 6 8 10),
    (0x1A081883, .faddVs 0 2 3 4),
    (0x1A081884, .fmulVs 0 2 3 4),
    (0x1A204985, .ffmaVs 0 8 9 12),
    (0x1A080006, .laneid 0 2 0),
    (0x1A180067, .rand 0 6 3),
    (0x1A1018A8, .samp 0 4 3 5)] = true := by decide +kernel
theorem test_decode_0E : allRead [
    (0x1C202140, .rdlane 0 4 2 5)] = true := by decide +kernel
theorem test_decode_0F : allRead [
    (0x1E0C0800, .popc 0 3 1),
    (0x1E0C0801, .clz 0 3 1)] = true := by decide +kernel
theorem test_decode_10a : allRead [
    (0x201C3860, .fadd 0 7 7 6),
    (0x20182051, .fsub 0 6 4 5),
    (0x20182052, .fmul 0 6 4 5),
    (0x202048A3, .ffma 0 8 9 10),
    (0x202048A4, .ffms 0 8 9 10),
    (0x202048A5, .fnfma 0 8 9 10),
    (0x20081846, .fmin 0 2 3 4),
    (0x20081847, .fmax 0 2 3 4),
    (0x20081848, .fminn 0 2 3 4),
    (0x20081849, .fmaxn 0 2 3 4),
    (0x2008180A, .fabs 0 2 3),
    (0x2008180B, .fneg 0 2 3)] = true := by decide +kernel
theorem test_decode_10b : allRead [
    (0x2008184C, .fcps 0 2 3 4),
    (0x2010103D, .twosum 0 4 2 3),
    (0x2010103E, .twoprod 0 4 2 3),
    (0x2008180F, .fclass 0 2 3)] = true := by decide +kernel
theorem test_decode_11 : allRead [
    (0x22418390, .cmp 0 2 6 7 2 0)] = true := by decide +kernel
theorem test_decode_12 : allRead [
    (0x24041030, .faddB2 0 1 2 3),
    (0xA41840A1, .fmulB2 1 6 8 10),
    (0x24041032, .ffmaB2 0 1 2 3),
    (0x24041033, .fmaxB2 0 1 2 3),
    (0xA41840A4, .fminB2 1 6 8 10),
    (0xA41840A5, .faddH2 1 6 8 10),
    (0x24041036, .fmulH2 0 1 2 3),
    (0xA41840A7, .ffmaH2 1 6 8 10),
    (0xA41840A8, .fmaxH2 1 6 8 10),
    (0x24041039, .fminH2 0 1 2 3)] = true := by decide +kernel
theorem test_decode_13 : allRead [
    (0x26281001, .cbx 0 10 2 1),
    (0x260C3A05, .cbnear 0 3 7 5),
    (0x26002408, .cbld 0 4 8)] = true := by decide +kernel
theorem test_decode_14 : allRead [
    (0x28080A0C, .cvt 0 2 1 8 1 1)] = true := by decide +kernel
theorem test_decode_15 : allRead [
    (0x2A0C1000, .rcps 0 3 2),
    (0x2A0C1001, .rsqs 0 3 2),
    (0x2A0C1002, .exp2 0 3 2),
    (0x2A0C1003, .log2 0 3 2),
    (0x2A0C1004, .tanh 0 3 2)] = true := by decide +kernel
theorem test_decode_16 : allRead [
    (0x2C101801, .qswap 0 4 3 1),
    (0x2C101A02, .qbc 0 4 3 2),
    (0x2C101C00, .qred 0 4 3 0),
    (0xAC000600, .qfill 1)] = true := by decide +kernel
theorem test_decode_17 : allRead [
    (0x2E1018A0, .shflAt 0 4 3 5),
    (0x2E1018A1, .shflRot 0 4 3 5),
    (0x2E1018A2, .shflShift 0 4 3 5),
    (0x2E1018A3, .shflMirr 0 4 3 5)] = true := by decide +kernel
theorem test_decode_18 : allRead [
    (0xB0184000, .redAddI 1 6 8),
    (0x30101801, .redAddF 0 4 3),
    (0xB0184002, .redMaxF 1 6 8),
    (0xB0184003, .redMinF 1 6 8),
    (0xB0184004, .redMaxI 1 6 8),
    (0xB0184005, .redMinI 1 6 8),
    (0x30101856, .redMaxixF 0 4 3 5),
    (0xB01840A7, .redMinixF 1 6 8 10),
    (0xB0184008, .scanAddI 1 6 8),
    (0x30101809, .scanAddF 0 4 3),
    (0x3010185A, .shflVar 0 4 3 5),
    (0xB01840AB, .redMaxixH 1 6 8 10)] = true := by decide +kernel
theorem test_decode_19 : allRead [
    (0x32148000, .ballot 0 5 2),
    (0x32009080, .kany 0 2 4),
    (0x32008D00, .kall 0 2 3),
    (0x32008D80, .kpop 0 2 3),
    (0x32148200, .krank 0 5 2)] = true := by decide +kernel
theorem test_decode_1A : allRead [
    (0x34624000, .kand 0 3 1 2),
    (0x34624200, .kor 0 3 1 2),
    (0x34624400, .kxor 0 3 1 2),
    (0x34624600, .kandn 0 3 1 2),
    (0x34CE0800, .knot 0 6 7),
    (0x34CE0A00, .kmov 0 6 7),
    (0x34A00C00, .kset 0 5),
    (0x34A00E00, .kclr 0 5),
    (0x34801024, .kfromv 0 4 9)] = true := by decide +kernel
theorem test_decode_1B : allRead [
    (0x36420A00, .kbit 0 2 8 5)] = true := by decide +kernel
theorem test_decode_1C : allRead [
    (0x38400002, .ifK 2 2),
    (0x38040002, .elseK 2),
    (0x38080000, .endIf 0),
    (0x386C0002, .brkIf 0 3 2),
    (0x38100003, .loop 0 3),
    (0x3817FFFD, .endLp 262141),
    (0x38380003, .regrp 1 3),
    (0x38180000, .endrg)] = true := by decide +kernel
theorem test_decode_1D : allRead [
    (0x3A007FFE, .bra 32766),
    (0x3A420000, .brc 2 4 0)] = true := by decide +kernel
theorem test_decode_1E : allRead [
    (0x3C3FFFFD, .call 4194301),
    (0x3C4C0000, .callr 12),
    (0x3C800000, .ret),
    (0x3CCC0000, .jmpr 12)] = true := by decide +kernel
theorem test_decode_20 : allRead [
    (0x40204040, .ldVector 0 8 4 2 0 0)] = true := by decide +kernel
theorem test_decode_21 : allRead [
    (0x42204040, .stVector 0 8 4 2 0 0)] = true := by decide +kernel
theorem test_decode_22 : allRead [
    (0x4414A0C0, .ldl 0 5 10 6 0)] = true := by decide +kernel
theorem test_decode_23 : allRead [
    (0x4614A0C0, .stl 0 5 10 6 0)] = true := by decide +kernel
theorem test_decode_24 : allRead [
    (0x48103040, .ldt 0 4 3 2)] = true := by decide +kernel
theorem test_decode_25 : allRead [
    (0x4A103040, .stt 0 4 3 2)] = true := by decide +kernel
theorem test_decode_26 : allRead [
    (0x4C08264C, .atom 0 2 4 12 2 3)] = true := by decide +kernel
theorem test_decode_27 : allRead [
    (0x4E010500, .lmon 0 4 5),
    (0x4E210500, .waitm 4 5)] = true := by decide +kernel
theorem test_decode_28 : allRead [
    (0x50180000, .fence 0 0 3)] = true := by decide +kernel
theorem test_decode_29 : allRead [
    (0x52180000, .lpub 0 3 0),
    (0x5248A000, .lmark 0 1 5),
    (0x5298C380, .lacq 0 3 6 7)] = true := by decide +kernel
theorem test_decode_2A : allRead [
    (0x54203000, .binit 0 1 3),
    (0x54255000, .barr 0 1 21),
    (0x54295000, .bwait 1 21),
    (0x542D4000, .barw 1 20),
    (0x54107000, .bphase 0 0 7),
    (0x54749000, .bexp 0 3 9)] = true := by decide +kernel
theorem test_decode_2B : allRead [
    (0x56202000, .tdef 0 4 8),
    (0x56210000, .tacq 0 4),
    (0x56220000, .trdy 0 4),
    (0x56230000, .trel 0 4),
    (0x56241C00, .tstat 0 4 7),
    (0x56053000, .thand 0 12),
    (0x56063000, .tadopt 0 12)] = true := by decide +kernel
theorem test_decode_2C : allRead [
    (0x58000000, .cpyG2t 0 0 0 0 0),
    (0x58460890, .cpyT2g 0 6 2 9 0),
    (0x58841462, .cpyL2l 0 4 5 6 2),
    (0x58C41880, .cpyG2g 0 4 6 8 0),
    (0x590C3901, .cpyG2l 0 12 14 16 1),
    (0x59441872, .cpyL2g 0 4 6 7 2),
    (0x598420C1, .gather 0 4 8 12 1)] = true := by decide +kernel
theorem test_decode_2D : allRead [
    (0x5A020000, .mldwTile 0 2 0),
    (0x5A08C000, .mldwHandle 0 8 1),
    (0x5A4322A0, .mma 0 3 1 5 0 1),
    (0x5A861C00, .mz 0 6 7),
    (0x5ACA0000, .mdrn 0 10),
    (0x5B0A0000, .mrst 0 10),
    (0x5B400000, .mrel 0)] = true := by decide +kernel
theorem test_decode_2E : allRead [
    (0x5C105180, .accrd 0 4 5 6),
    (0xDC188288, .accrdF 1 6 8 10),
    (0xDC188290, .accwr 1 6 8 10),
    (0x5C1C5198, .accwrF 0 7 5 6)] = true := by decide +kernel
theorem test_decode_2F : allRead [
    (0x5E0418A1, .put 0 4 6 10 1),
    (0x5E4418A1, .puts 0 4 6 10 1),
    (0x5E8418A2, .get 0 4 6 10 2),
    (0x5EC824A3, .csend 0 8 9 10 3),
    (0x5F041462, .rsig 0 4 5 6 2)] = true := by decide +kernel
theorem test_decode_30 : allRead [
    (0x600824A2, .spawn 0 8 9 10 2),
    (0x60441871, .hpass 0 4 6 7 1)] = true := by decide +kernel
theorem test_decode_31 : allRead [
    (0x62281100, .getx 0 5 17),
    (0x62280120, .setx 0 5 1)] = true := by decide +kernel
theorem test_decode_32 : allRead [
    (0x64000000, .sysc 0),
    (0x64400000, .rett),
    (0x64800022, .hcall 34),
    (0x64C00000, .tlbi 0 0),
    (0x64C08000, .tlbiAll 0)] = true := by decide +kernel
theorem test_decode_3F : allRead [
    (0xFE00A00E, .dict 1 0 0 10 0 14)] = true := by decide +kernel

/-- One team of 32 lanes in U, whose run issues the word `w` now. -/
def issuing (w : Nat) : State := beginInstr (State.reset.withFetchWord 32 w)

/-- The same with the team changed. -/
def issuingWith (f : Team → Team) (w : Nat) : State := (issuing w).modTeam 0 f

/-- A translation of the first GiB of context 0, to itself, that every mode may use. -/
def flatPage : TlbEntry := ⟨0, 0, 0, 30, 0, 0, true, true, true, false, true, true⟩

/-- A machine with that translation held on core 0 and a handler for S and H loaded at 0x2000. -/
def mapped (s : State) : State :=
  let s := s.modCore 0 fun c => { c with tlb := [flatPage] }
  let s := s.modHub fun h => { h with images := h.images.put 1 { kind := 3, dpa := 0x2000, size := 4096, ctx := 0, datava := 0 } }
  s.modContext 0 fun x => { x with xvect := 0x2000, xhvect := 0x2000 }

/-- SETA and SETB name flag `n`, which stands at `count`. -/
def flagged (n count : Nat) (t : Team) : Team := { t with run := t.run.map fun r => { r with setA := n, setB := n }, flags := Sparse.set 0 [] n count }

/-! ### One step each, with the results of the spec's worked cases -/

/-- A team whose scalars hold `s` and whose vector registers hold `v`, each list from lane 0 on. -/
def withRegs (s : List (Nat × Word)) (v : List (Nat × List Word)) (t : Team) : Team :=
  { t with regs := { t.regs with
      s := s.foldl (fun m x => Sparse.set 0#32 m (sKey .u x.1) x.2) t.regs.s
      v := v.foldl (fun m x => (x.2.zip (List.range x.2.length)).foldl (fun m y => Sparse.set 0#32 m (vKey .u x.1 y.2) y.1) m) t.regs.v } }

/-- With these masks, and partition tiles of `2 ^ part` lanes. -/
def masked (k : List (Nat × Mask)) (part : BitVec 3) (t : Team) : Team :=
  { t with regs := { t.regs with k := k.foldl (fun m x => Sparse.set 0#1024 m (kKey .u x.1) x.2) t.regs.k, part := part } }

/-- The team after one instruction. -/
def after (i : Instr) (f : Team → Team) : Option Team :=
  match exec i (issuingWith f 0x02000000) with
  | .next s => s.team 0
  | _ => none

/-- Lanes 0 to n − 1 of a register after one instruction. -/
def lanesAfter (i : Instr) (f : Team → Team) (r n : Nat) : Option (List Word) :=
  (after i f).map fun t => (List.range n).map fun l => t.readV 0 r l

/-- A scalar after one instruction. -/
def scalarAfter (i : Instr) (f : Team → Team) (r : Nat) : Option Word := (after i f).map fun t => t.readS 0 r

/-- The low `n` bits of a mask after one instruction. -/
def maskAfter (i : Instr) (f : Team → Team) (r n : Nat) : Option Nat := (after i f).map fun t => (t.readK r).toNat % 2 ^ n

/-- A register of lane 0 and the sticky flags after one instruction. -/
def flagsAfter (i : Instr) (f : Team → Team) (r : Nat) : Option (Word × BitVec 5) := (after i f).map fun t => (t.readV 0 r 0, t.regs.fflags)

/-- 20_instructions_e_i.md, the two high products. -/
theorem test_imulh : scalarAfter (.imulhSr 0 1 2 3) (withRegs [(2, 0xFFFFFFFF), (3, 0xFFFFFFFF)] []) 1 = some 0 := by decide +kernel
theorem test_imulh_u : scalarAfter (.imulhUSr 0 1 2 3) (withRegs [(2, 0xFFFFFFFF), (3, 0xFFFFFFFF)] []) 1 = some 0xFFFFFFFE := by decide +kernel
theorem test_imul : scalarAfter (.imulSr 0 1 2 3) (withRegs [(2, 0xFFFFFFFF), (3, 0xFFFFFFFF)] []) 1 = some 1 := by decide +kernel

/-- R347: a zero divisor gives all ones and the dividend. -/
theorem test_idivu_zero : scalarAfter (.idivu 0 1 2 3) (withRegs [(2, 7)] []) 1 = some 0xFFFFFFFF := by decide +kernel
theorem test_iremu_zero : scalarAfter (.iremu 0 1 2 3) (withRegs [(2, 7)] []) 1 = some 7 := by decide +kernel

/-- R88: a write of `s0` is discarded. -/
theorem test_s0 : scalarAfter (.iaddSi 0 0 0 5) id 0 = some 0 := by decide +kernel

/-- R347: a 64-bit sum carries from the low register into the high one. -/
theorem test_iadd64_carry : (after (.iadd64 0 2 4 6) (withRegs [(4, 0xFFFFFFFF), (6, 1)] [])).map (fun t => (t.readS 0 2, t.readS 0 3)) = some (0, 1) := by
  decide +kernel

/-- R395: an arithmetic shift fills with bit 31. -/
theorem test_sra : scalarAfter (.sraSi 0 4 5 3) (withRegs [(5, 0x80000000)] []) 4 = some 0xF0000000 := by decide +kernel

/-- R366: LUI's immediate is shifted by 13. -/
theorem test_lui : scalarAfter (.lui 0 4 0x40000) id 4 = some 0x80000000 := by decide +kernel

/-- 20_instructions_e_i.md, saturating against wrapping. -/
theorem test_iadds_p16 : lanesAfter (.iaddsP16 0 3 1 2) (withRegs [] [(1, [0x7FF08005]), (2, [0x00208000])]) 3 1 = some [0x7FFF8000] := by decide +kernel
theorem test_iadd_p16 : lanesAfter (.iaddP16 0 3 1 2) (withRegs [] [(1, [0x7FF08005]), (2, [0x00208000])]) 3 1 = some [0x80100005] := by decide +kernel

/-- 22_instructions_m_r.md, the example of R372. -/
theorem test_permb : lanesAfter (.permb 0 3 1 2) (withRegs [] [(1, [0x88442211]), (2, [0x80430003])]) 3 1 = some [0x00FF1188] := by decide +kernel

/-- 20_instructions_e_i.md, one rounding against two. -/
theorem test_ffma_one_rounding : flagsAfter (.ffma 0 3 1 2) (withRegs [] [(1, [0x3F800800]), (2, [0x3F800800]), (3, [0xBF801000])]) 3
    = some (0x33800000, 0) := by decide +kernel
theorem test_fmul_tie : flagsAfter (.fmul 0 3 1 2) (withRegs [] [(1, [0x3F800800]), (2, [0x3F800800])]) 3 = some (0x3F801000, 0x10) := by decide +kernel

/-- 06_numbers.md, the seed of 1/√25. -/
theorem test_rsqs_25 : lanesAfter (.rsqs 0 3 1) (withRegs [] [(1, List.replicate 32 0x41C80000)]) 3 1 = some [0x3E4CD000] := by decide +kernel

/-- 19_instructions_c.md, conversions of five values, and the examples of R108. -/
theorem test_cvt_f2b_tie : flagsAfter (.cvt 0 3 1 0 0 0) (withRegs [] [(1, [0x3F808000])]) 3 = some (0x00003F80, 0x10) := by decide +kernel
theorem test_cvt_f2b_odd : flagsAfter (.cvt 0 3 1 0 4 0) (withRegs [] [(1, [0x3F808000])]) 3 = some (0x00003F81, 0x10) := by decide +kernel
theorem test_cvt_f2i_sat : flagsAfter (.cvt 0 3 1 8 1 1) (withRegs [] [(1, [0x4F000000])]) 3 = some (0x7FFFFFFF, 1) := by decide +kernel
theorem test_cvt_f2ui_exact : flagsAfter (.cvt 0 3 1 9 1 0) (withRegs [] [(1, [0x4F000000])]) 3 = some (0x80000000, 0) := by decide +kernel
theorem test_cvt_f2h_overflow : flagsAfter (.cvt 0 3 1 4 0 1) (withRegs [] [(1, [0x4788B800])]) 3 = some (0x00007BFF, 0x14) := by decide +kernel
theorem test_cvt_f2q8_sat : flagsAfter (.cvt 0 3 1 13 0 1) (withRegs [] [(1, [0x3F800000])]) 3 = some (0x0000007F, 1) := by decide +kernel
theorem test_cvt_rounds_into_range : flagsAfter (.cvt 0 3 1 9 1 0) (withRegs [] [(1, [0xBECCCCCD])]) 3 = some (0, 0x10) := by decide +kernel
theorem test_cvt_indefinite : flagsAfter (.cvt 0 3 1 9 1 0) (withRegs [] [(1, [0xC0200000])]) 3 = some (0x80000000, 1) := by decide +kernel

/-- 19_instructions_c.md, one comparison, three readings. -/
theorem test_cmp_zeros : [(0, 0), (2, 0), (2, 1), (4, 2)].map (fun (x : BitVec 4 × BitVec 3) =>
    maskAfter (.cmp 0 1 2 3 x.1 x.2) (withRegs [] [(2, [0x80000000])]) 1 1) = [some 1, some 0, some 1, some 1] := by decide +kernel
theorem test_cmp_nan : [(2, 0), (1, 0), (6, 0), (7, 0)].map (fun (x : BitVec 4 × BitVec 3) =>
    maskAfter (.cmp 0 1 2 3 x.1 x.2) (withRegs [] [(2, [0x7FC00000]), (3, [0x3F800000])]) 1 1) = [some 0, some 1, some 1, some 0] := by decide +kernel
theorem test_cmp_signalling : (after (.cmp 0 1 2 3 6 0) (withRegs [] [(2, [0x7F800001]), (3, [0x3F800000])])).map (fun t => t.regs.fflags) = some 1 := by
  decide +kernel

/-- 19_instructions_c.md, choosing and expanding. -/
theorem test_cbnear : lanesAfter (.cbnear 0 3 7 5) (fun t => withRegs [] [(7, [0x3E800000, 0x7FC00000])]
    { t with regs := { t.regs with cbt := [(0, 0xBF80), (2, 0x3F00), (3, 0x3F80)] ++ (List.range 12).map fun i => (i + 4, 0x7FC0) } }) 3 2
    = some [0x00100000, 0x00F00000] := by decide +kernel
theorem test_cbx : lanesAfter (.cbx 0 10 2 0) (fun t => withRegs [] [(2, [0x00000031])]
    { t with regs := { t.regs with cbt := [(0, 0xBF80), (2, 0x3F00), (3, 0x3F80)] ++ (List.range 12).map fun i => (i + 4, 0x7FC0) } }) 10 1
    = some [0x3F800000] := by decide +kernel

/-- 22_instructions_m_r.md, four lanes under PART = 4: the tie of the pairwise tree, and its flag. -/
theorem test_red_add_f : flagsAfter (.redAddF 0 4 3) (fun t => masked [(0, 15)] 4 (withRegs [] [(3, [0x3F800000, 0x4B800000, 0x3F800000, 0x3F800000])] t)) 4
    = some (0x4B800001, 0x10) := by decide +kernel
theorem test_red_add_f_inactive : flagsAfter (.redAddF 0 4 3) (fun t => masked [(0, 7)] 4 (withRegs [] [(3, [0x3F800000, 0x4B800000, 0x3F800000, 0x3F800000])] t)) 4
    = some (0x4B800000, 0x10) := by decide +kernel
/-- The same case's RED.MAXIX.F: of two NaNs of one key the lower index is taken. -/
theorem test_red_maxix_f : (after (.redMaxixF 0 4 3 5) (fun t => masked [(0, 15)] 4 (withRegs [] [(3, [0, 0x7FC00000, 0xFFC00001, 0x3F800000]), (5, [7, 9, 3, 2])] t))).map
    (fun t => (t.readV 0 4 0, t.readV 0 5 3)) = some (0xFFC00001, 3) := by decide +kernel
/-- 06_numbers.md, five FP16 values: the maximum is index 3. -/
theorem test_red_maxix_h : (after (.redMaxixH 0 4 3 6) (fun t => masked [(0, 31)] 3 (withRegs [] [(3, [0xFC00, 0x8000, 0, 0x7E00, 0xFE01]), (6, [0, 1, 2, 3, 4])] t))).map
    (fun t => t.readV 0 5 0) = some 3 := by decide +kernel

/-- 23_instructions_s_y.md, a prefix by doubling. -/
theorem test_scan_add_i : lanesAfter (.scanAddI 0 4 3) (fun t => masked [] 3 (withRegs [] [(3, [1, 2, 3, 4, 5, 6, 7, 8])] t)) 4 8
    = some [1, 3, 6, 10, 15, 21, 28, 36] := by decide +kernel
theorem test_shfl_shift : lanesAfter (.shflShift 0 112 3 5) (fun t => masked [] 3 (withRegs [(5, 1)] [(3, [1, 2, 3, 4, 5, 6, 7, 8])] t)) 112 9
    = some [0, 1, 2, 3, 4, 5, 6, 7, 0] := by decide +kernel

/-- 21_instructions_j_l.md, one tile of eight. -/
theorem test_krank : lanesAfter (.krank 0 5 2) (fun t => masked [(0, 0xDF), (2, 0xBA)] 3 (withRegs [] [(5, List.replicate 8 99)] t)) 5 8
    = some [0, 0, 1, 1, 2, 99, 3, 3] := by decide +kernel
theorem test_kpop : maskAfter (.kpop 0 2 3) (masked [(0, 0xDF), (2, 0xBA)] 3) 3 8 = some 0x0F := by decide +kernel
theorem test_kany : maskAfter (.kany 0 2 4) (masked [(0, 0xDF), (2, 0xBA)] 3) 4 8 = some 0xDF := by decide +kernel
theorem test_kall : maskAfter (.kall 0 2 3) (masked [(0, 0xDF), (2, 0xBA)] 3) 3 8 = some 0 := by decide +kernel

/-- 06_numbers.md, four lanes, weights 1.0, −2.0, 0.5 and 2.5: the lane each draw chooses. -/
theorem test_samp : [0x30000000, 0x40000000, 0x80000000, 0xFFFFFFFF].map (fun x =>
    lanesAfter (.samp 0 4 3 5) (fun t => masked [(0, 15)] 4 (withRegs [(5, x)] [(3, [0x3F800000, 0xC0000000, 0x3F000000, 0x40200000])] t)) 4 1)
    = [some [0], some [2], some [3], some [3]] := by decide +kernel

/-- 02_execution_model.md, an IF and ELSE: the mask of each arm (here the first 32 lanes of the case's 64). -/
theorem test_if : maskAfter (.ifK 1 2) (masked [(1, 0xFF)] 0) 0 32 = some 0xFF := by decide +kernel
theorem test_else : maskAfter (.elseK 2) (fun t => { masked [(0, 0xFF)] 0 t with stack := [⟨0xFFFFFFFF, 0xFFFFFF00, .ifArm, 0, 0⟩] }) 0 32
    = some 0xFFFFFF00 := by decide +kernel

/-- 05_registers_modes.md, a system call from three divergent lanes (3, 17 and 28 of this team's 32). -/
def afterCall : Option Team :=
  match exec (.sysc 0x11) (mapped (issuingWith (masked [(0, 0x10020008)] 0) 0x64000011)) with
  | .next s => match exec (.trapEntry 0) s with
    | .next s => s.team 0
    | _ => none
  | _ => none

theorem test_sysc : (afterCall.any fun t => t.mode == .s && t.depth == 1 && t.pc == 0 && t.stack == [] && t.k0 == 0x10020008#1024
    && t.readK 15 == 0x10020008#1024 && t.readV 0 119 3 == 0x11#32 && t.readV 0 119 4 == 0#32) = true := by decide +kernel

/-! ### Hypotheses met: scalar, vector and mask results -/

theorem witness_ScalarResult : ∃ (s : State) (t : Team) (i : Instr) (d : Nat) (w : Word), s.team s.cur = some t ∧ t.mute = false ∧
    (∀ r ∈ scalarSources i, t.poisonS r = false) ∧ scalarResult s t i = some (d, w) :=
  ⟨issuing 0x0428C380, _, .iaddSr 0 5 6 7, _, _, rfl, by decide +kernel, by decide +kernel, rfl⟩

theorem witness_ScalarPairResult : ∃ (s : State) (t : Team) (i : Instr) (d : Nat) (w : BitVec 64), s.team s.cur = some t ∧ t.mute = false ∧
    (∀ r ∈ scalarSources i, t.poisonS r = false) ∧ pairResult s t i = some (d, w) ∧ d % 2 = 0 :=
  ⟨issuing 0x04414614, _, .iadd64 0 8 10 12, _, _, rfl, by decide +kernel, by decide +kernel, rfl, by decide⟩

theorem witness_ScalarHeld : ∃ (s : State) (t : Team) (i : Instr), s.team s.cur = some t ∧ (scalarResult s t i).isSome ∧ t.mute = true :=
  ⟨issuingWith (fun t => t.raiseAll 5 0) 0x0428C380, _, .iaddSr 0 5 6 7, rfl, by decide +kernel, by decide +kernel⟩

theorem witness_ScalarPoisoned : ∃ (s : State) (t : Team) (i : Instr) (r : Run), s.team s.cur = some t ∧ (scalarResult s t i).isSome ∧
    t.run = some r ∧ t.mute = false ∧ t.acting ≠ 0#1024 ∧ ∃ x ∈ scalarSources i, t.poisonS x = true :=
  ⟨issuingWith (fun t => { t with regs := { t.regs with sPoison := [(sKey .u 6, true)] } }) 0x0428C380, _, .iaddSr 0 5 6 7, _, rfl,
    by decide +kernel, rfl, by decide +kernel, by decide +kernel, 6, by decide +kernel, by decide +kernel⟩

theorem witness_LaneResult : ∃ (s : State) (t : Team) (i : Instr) (w : LaneWrite), s.team s.cur = some t ∧ Clean t ∧ t.tileSize ≠ 0 ∧
    laneResult s t i = some w :=
  ⟨issuing 0x100C0820, _, .iaddVr 0 3 1 2, _, rfl, ⟨rfl, rfl⟩, by decide +kernel, rfl⟩

theorem witness_PoisonedLanesConsume : ∃ (s : State) (t : Team) (r : Run) (i : Instr) (w : LaneWrite), s.team s.cur = some t ∧
    t.run = some r ∧ t.tileSize ≠ 0 ∧ laneResult s t i = some w ∧ (0 ∈ t.actingLanes ∧ (w.reads 0).any fun x => t.poisonV x.1 x.2) ∧
    (1 ∈ w.lanes t ∧ ((w.reads 1).any fun x => t.poisonV x.1 x.2) = false) :=
  ⟨issuingWith (fun t => { t with regs := { t.regs with vPoison := [(vKey .u 1 0, true)] } }) 0x100C0820, _, _, .iaddVr 0 3 1 2, _, rfl,
    rfl, by decide +kernel, rfl, ⟨by decide +kernel, by decide +kernel⟩, by decide +kernel, by decide +kernel⟩

theorem witness_FloatResult : ∃ (s : State) (t : Team) (i : Instr) (w : FpWrite), s.team s.cur = some t ∧ Clean t ∧ fpResult s t i = some w :=
  ⟨issuing 0x20182052, _, .fmul 0 6 4 5, _, rfl, ⟨rfl, rfl⟩, rfl⟩

theorem witness_FirstInvalidRecord (flag seen : Bool) : ∃ (s : State) (k : Nat) (t : Team) (b : Block) (x : Launch), s.team k = some t ∧
    s.block t.block = some b ∧ s.launch b.launch = some x ∧ x.flagEvt = flag ∧ x.invalidSeen = seen :=
  ⟨(issuing 0x20182052).modLaunch 0 fun l => { l with flagEvt := flag, invalidSeen := seen }, 0, _, _, _, rfl, rfl, rfl, rfl, rfl⟩

theorem witness_FloatPairResult : ∃ (s : State) (t : Team), s.team s.cur = some t ∧ Clean t :=
  ⟨issuing 0x2010103D, _, rfl, rfl, rfl⟩

theorem witness_IndexedReduction : ∃ (s : State) (t : Team) (i : Instr) (d a b : Nat) (better : Word → Word → Prop) (key value : Word → Word),
    s.team s.cur = some t ∧ Clean t ∧ t.tileSize ≠ 0 ∧ indexedForm i = some (d, a, b, better, key, value) :=
  ⟨issuing 0x30101856, _, .redMaxixF 0 4 3 5, _, _, _, _, _, _, rfl, ⟨rfl, rfl⟩, by decide +kernel, rfl⟩

theorem witness_CountedFunctionResult : ∃ (i : Instr) (x : Nat × Nat × (Word → Word × FpFlags)), countedForm i = some x ∧
    (∃ (s : State) (t : Team) (r : Run), s.team s.cur = some t ∧ t.run = some r ∧ Clean t ∧ t.flagFull true = true) ∧
    (∃ (s : State) (t : Team) (r : Run), s.team s.cur = some t ∧ t.run = some r ∧ Clean t ∧ t.flagFull true = false ∧ t.writers x.1 = []) ∧
    (∃ (s : State) (t : Team) (r : Run), s.team s.cur = some t ∧ t.run = some r ∧ Clean t ∧ t.flagFull true = false ∧ t.writers x.1 ≠ [] ∧
      r.setA = 15) ∧
    ∃ (s : State) (t : Team) (r : Run), s.team s.cur = some t ∧ t.run = some r ∧ Clean t ∧ t.flagFull true = false ∧ t.writers x.1 ≠ [] ∧
      r.setA ≠ 15 :=
  ⟨.rcps 0 3 2, _, rfl, ⟨issuingWith (flagged 2 63) 0x2A0C1000, _, _, rfl, rfl, ⟨rfl, rfl⟩, by decide +kernel⟩,
    ⟨issuingWith (fun t => t.raiseAll 5 0) 0x2A0C1000, _, _, rfl, rfl, ⟨rfl, rfl⟩, by decide +kernel, by decide +kernel⟩,
    ⟨issuing 0x2A0C1000, _, _, rfl, rfl, ⟨rfl, rfl⟩, by decide +kernel, by decide +kernel, rfl⟩,
    issuingWith (flagged 2 62) 0x2A0C1000, _, _, rfl, rfl, ⟨rfl, rfl⟩, by decide +kernel, by decide +kernel, by decide +kernel⟩

theorem witness_MaskResult : ∃ (s : State) (t : Team) (i : Instr) (d : Nat) (f : Nat → Bool), s.team s.cur = some t ∧ Clean t ∧
    maskResult s t i = some (d, f) :=
  ⟨issuing 0x34624000, _, .kand 0 3 1 2, _, _, rfl, ⟨rfl, rfl⟩, rfl⟩

theorem witness_CompareResult : ∃ (s : State) (t : Team) (o : BitVec 4), s.team s.cur = some t ∧ Clean t ∧ o.toNat < 8 :=
  ⟨issuing 0x22418390, _, 7, rfl, ⟨rfl, rfl⟩, by decide⟩

theorem witness_CodebookLoad : ∃ (b : BitVec 9),
    (∃ (s : State) (t : Team), s.team s.cur = some t ∧ Clean t ∧ t.acting = 0#1024) ∧
    ∃ (s : State) (t : Team), s.team s.cur = some t ∧ Clean t ∧ t.acting ≠ 0#1024 ∧ b.toNat + 8 ≤ t.lanes ∧ t.lanes < (b + 8#9).toNat + 8 :=
  ⟨24, ⟨issuingWith (fun t => t.raiseAll 5 0) 0x26002408, _, rfl, ⟨rfl, rfl⟩, by decide +kernel⟩,
    issuing 0x26002408, _, rfl, ⟨rfl, rfl⟩, by decide +kernel, by decide +kernel, by decide +kernel⟩

/-- Two words of lanes, all active, and `s5` holding `x`. -/
def wide (x : Word) (t : Team) : Team :=
  { t with words := 2, regs := { t.regs with k := Sparse.set 0#1024 [] 0 (laneMask 64), s := Sparse.set 0#32 [] 5 x } }

theorem witness_ReadLane : ∃ b : BitVec 6,
    (∃ (s : State) (t : Team) (r : Run), s.team s.cur = some t ∧ t.run = some r ∧ Clean t ∧ t.acting = 0#1024) ∧
    (∃ (s : State) (t : Team) (r : Run), s.team s.cur = some t ∧ t.run = some r ∧ Clean t ∧ t.acting ≠ 0#1024 ∧
      t.lanes ≤ (t.readS s.tick b.toNat).toNat) ∧
    (∃ (s : State) (t : Team) (r : Run), s.team s.cur = some t ∧ t.run = some r ∧ Clean t ∧ t.acting ≠ 0#1024 ∧
      (t.readS s.tick b.toNat).toNat < t.lanes ∧ (t.readS s.tick b.toNat).toNat < 32) ∧
    ∃ (s : State) (t : Team) (r : Run), s.team s.cur = some t ∧ t.run = some r ∧ Clean t ∧ t.acting ≠ 0#1024 ∧
      (t.readS s.tick b.toNat).toNat < t.lanes ∧ 32 ≤ (t.readS s.tick b.toNat).toNat ∧ r.setA ≠ 15 ∧ t.flag r.setA < 63 :=
  ⟨5, ⟨issuingWith (fun t => t.raiseAll 5 0) 0x1C202140, _, _, rfl, rfl, ⟨rfl, rfl⟩, by decide +kernel⟩,
    ⟨issuingWith (wide 64) 0x1C202140, _, _, rfl, rfl, ⟨rfl, rfl⟩, by decide +kernel, by decide +kernel⟩,
    ⟨issuingWith (wide 31) 0x1C202140, _, _, rfl, rfl, ⟨rfl, rfl⟩, by decide +kernel, by decide +kernel, by decide +kernel⟩,
    issuingWith (fun t => flagged 2 62 (wide 32 t)) 0x1C202140, _, _, rfl, rfl, ⟨rfl, rfl⟩, by and_intros <;> decide +kernel⟩

/-! ### Hypotheses met: control, runs, registers and traps -/

/-- A team with one entry on its mask stack. -/
def stacked (k : StackKind) (t : Team) : Team := { t with stack := [⟨t.k0, 0#1024, k, 0#1024, 0#1024⟩] }

/-- A structured control instruction and a team on which it acts. -/
def StackCase (i : Instr) (f : Team → Team) (jumps skips : Bool) : Prop :=
  ∃ (s : State) (t : Team) (r : Run) (off : Int) (m : StackMove) (target : Nat), s = issuingWith f 0 ∧ s.team s.cur = some t ∧ t.run = some r ∧
    t.snap = none ∧ stackForm i = some off ∧ stackMove t i = some m ∧ packetAt r off target ∧ m.jumps = jumps ∧ m.skips = skips ∧
    r.item.chain = false

theorem witness_StructuredControl : StackCase (.ifK 1 2) id true false ∧ StackCase (.elseK 2) (stacked .ifArm) true false ∧
    StackCase (.endIf 0) (stacked .elseArm) false false ∧ StackCase (.loop 0 3) id false false ∧
    StackCase (.loop 0 3) (fun t => { t with regs := { t.regs with k := [] } }) false true ∧
    StackCase (.brkIf 0 1 2) (stacked .loopBody) false false ∧ StackCase (.endLp 0) (stacked .loopBody) true false :=
  ⟨⟨_, _, _, _, _, 24, rfl, rfl, rfl, rfl, rfl, rfl, by unfold packetAt; decide +kernel, by decide +kernel, by decide +kernel, rfl⟩,
    ⟨_, _, _, _, _, 24, rfl, rfl, rfl, rfl, rfl, rfl, by unfold packetAt; decide +kernel, by decide +kernel, by decide +kernel, rfl⟩,
    ⟨_, _, _, _, _, 0, rfl, rfl, rfl, rfl, rfl, rfl, by unfold packetAt; decide +kernel, by decide +kernel, by decide +kernel, rfl⟩,
    ⟨_, _, _, _, _, 36, rfl, rfl, rfl, rfl, rfl, rfl, by unfold packetAt; decide +kernel, by decide +kernel, by decide +kernel, rfl⟩,
    ⟨_, _, _, _, _, 36, rfl, rfl, rfl, rfl, rfl, rfl, by unfold packetAt; decide +kernel, by decide +kernel, by decide +kernel, rfl⟩,
    ⟨_, _, _, _, _, 24, rfl, rfl, rfl, rfl, rfl, rfl, by unfold packetAt; decide +kernel, by decide +kernel, by decide +kernel, rfl⟩,
    ⟨_, _, _, _, _, 0, rfl, rfl, rfl, rfl, rfl, rfl, by unfold packetAt; decide +kernel, by decide +kernel, by decide +kernel, rfl⟩⟩

theorem witness_StackTrap : ∃ (s : State) (t : Team) (r : Run) (i : Instr), s.team s.cur = some t ∧ t.run = some r ∧ (stackForm i).isSome ∧
    stackMove t i = none :=
  ⟨issuing 0x38080000, _, _, .endIf 0, rfl, rfl, rfl, rfl⟩

theorem witness_Transfers : (∃ (s : State) (t : Team) (r : Run) (i : Instr) (target : Nat), s.team s.cur = some t ∧ t.run = some r ∧
      (∀ x, t.poisonS x = false) ∧ branchForm s t i = some (4, true) ∧ packetAt r 4 target) ∧
    (∃ (s : State) (t : Team) (i : Instr), s.team s.cur = some t ∧ branchForm s t i = some (4, false)) ∧
    (∃ (s : State) (t : Team) (r : Run) (target : Nat), s.team s.cur = some t ∧ t.run = some r ∧ packetAt r (5#22).toInt target) ∧
    (∃ (s : State) (t : Team) (r : Run), s.team s.cur = some t ∧ t.run = some r ∧ registerForm (.callr 12) = some (12, true) ∧
      t.poisonS 12 = false) ∧
    (∃ (s : State) (t : Team) (r : Run), s.team s.cur = some t ∧ t.run = some r ∧ registerForm .ret = some (1, false) ∧ t.poisonS 1 = false) ∧
    ∃ (s : State) (t : Team) (r : Run), s.team s.cur = some t ∧ t.run = some r ∧ t.poisonS 12 = true ∧ t.acting ≠ 0#1024 :=
  ⟨⟨issuing 0x3A008009, _, _, .brc 1 5 4, 48, rfl, rfl, fun _ => poisonS_clean ⟨rfl, rfl⟩ _, by decide +kernel, by unfold packetAt; decide +kernel⟩,
    ⟨issuing 0x3A008009, _, .brc 2 5 4, rfl, by decide +kernel⟩,
    ⟨issuing 0x3C000005, _, _, 60, rfl, rfl, by unfold packetAt; decide +kernel⟩,
    ⟨issuing 0x3C4C0000, _, _, rfl, rfl, rfl, rfl⟩, ⟨issuing 0x3C800000, _, _, rfl, rfl, rfl, rfl⟩,
    issuingWith (fun t => { t with regs := { t.regs with sPoison := [(sKey .u 12, true)] } }) 0x3C4C0000, _, _, rfl, rfl,
    by decide +kernel, by decide +kernel⟩

/-- `issuing` with a kernel image whose list of regions holds id 1 alone. -/
def withRegion (w : Nat) : State :=
  (issuing w).modHome fun h => { h with mem := Sparse.set 0#8 (Sparse.set 0#8 (Sparse.set 0#8 h.mem 0x1038 0x80) 0x103C 1) 0x1080 1 }

theorem witness_RunMarks : (∃ (s : State) (t : Team) (r : Run), s.team s.cur = some t ∧ t.run = some r ∧ t.mute = false ∧ t.depth = 0 ∧
      regionListed s t 1 = true) ∧
    (∃ (s : State) (t : Team) (r : Run), s.team s.cur = some t ∧ t.run = some r ∧ t.acting ≠ 0#1024 ∧ t.mute = false ∧
      t.depth = 0 ∧ regionListed s t 1 = false) ∧
    ∃ (s : State) (t : Team) (r : Run), s.team s.cur = some t ∧ t.run = some r ∧ t.depth ≠ 0 ∧ t.mute = false :=
  ⟨⟨withRegion 0x02600001, _, _, rfl, rfl, by decide +kernel, rfl, by decide +kernel⟩,
    ⟨issuing 0x02600001, _, _, rfl, rfl, by decide +kernel, by decide +kernel, rfl, by decide +kernel⟩,
    issuingWith (fun t => { t with depth := 1 }) 0x02600001, _, _, rfl, rfl, by decide +kernel, by decide +kernel⟩

theorem witness_SignatureCheck : ∃ (s : State) (t : Team) (r : Run) (i : BitVec 20), s.team s.cur = some t ∧ t.run = some r ∧ t.mute = false ∧
    t.living &&& ~~~r.held ≠ 0#1024 ∧ r.sgRead.toNat % 1048576 = i.toNat ∧ r.sgRead.toNat % 1048576 ≠ (i + 1#20).toNat :=
  ⟨issuing 0x02400000, _, _, BitVec.ofNat 20 0xFFFFF, rfl, rfl, by decide +kernel, by decide +kernel, by decide +kernel, by decide +kernel⟩

theorem witness_RunEnds : ∃ (s : State) (t : Team) (r : Run), s.team s.cur = some t ∧ t.run = some r ∧ r.items = [] ∧ r.hold = none ∧
    r.traps = [] ∧ r.consumed = [] ∧ t.due = [] ∧ t.parked = [] ∧ t.rolling = [] ∧ t.region = none ∧ t.opening = none ∧ t.ends = false ∧ r.opens = none ∧ r.blocks = none ∧
    t.snap = none ∧ (t.depth = 0 ∧ ∃ l, s.launchOf t = some l ∧ l.budget ≠ 0) ∧
    (r.mode = .u ∧ Sparse.get false (s.core (coreOfTeam s.cur)).steps (ctxOfTeam s.cur) = false) ∧ (r.target.getD r.through) % 12 = 0 ∧
    ∃ len, textLength s (if t.mode = .u then 1 else 3) (r.newText.getD t.textBase) = some len ∧ r.target.getD r.through < len :=
  ⟨issuing 0x02000000, _, _, rfl, rfl, rfl, rfl, rfl, rfl, rfl, rfl, rfl, rfl, rfl, rfl, rfl, rfl, rfl, ⟨rfl, _, rfl, by decide +kernel⟩,
    ⟨rfl, by decide +kernel⟩, by decide +kernel, 24, by decide +kernel, by decide +kernel⟩

theorem witness_SpecialRegisterRead : ∃ (s : State) (t : Team) (n : Nat) (b : Block) (l : Launch), Placed s t n b l ∧ t.mute = false ∧
    l.budget.toNat < 2 ^ 32 ∧ t.ops = [] :=
  ⟨(issuing 0x0A205000).modLaunch 0 fun l => { l with budget := 5 }, _, 0, _, _, ⟨rfl, rfl, rfl, rfl⟩, by decide +kernel, by decide +kernel, rfl⟩

theorem witness_CounterLatch : ∃ (s : State) (t : Team) (u2 : Team), s.team s.cur = some t ∧ t.mute = false ∧
    t.clkLatch.find (2 * t.mode.code + 1) = none ∧ u2 = { t with clkLatch := t.clkLatch.put 1 7#32 } ∧ u2.mute = false ∧ u2.mode = t.mode :=
  ⟨issuing 0x0A205000, _, _, rfl, by decide +kernel, by decide +kernel, rfl, by decide +kernel, rfl⟩

/-- A team in S at depth 1, with `s5` 0x0305. -/
def inS (t : Team) : Team := { t with mode := .s, depth := 1, regs := { t.regs with s := Sparse.set 0#32 [] 5 0x0305 } }
/-- A team in H. -/
def inH (t : Team) : Team := { inS t with mode := .h }

theorem witness_PrivilegedRead : ∃ (s : State) (t : Team) (r : Run) (n : Nat) (b : Block) (l : Launch), Placed s t n b l ∧ t.run = some r ∧
    t.mute = false ∧ t.snap = none ∧ t.ops = [] ∧ t.mode = .h ∧ t.flagFull true = false ∧ l.budget.toNat < 2 ^ 32 ∧ t.xLatch = [] ∧
    t.double = none ∧ t.depth = 0 ∧ r.setA = 15 :=
  ⟨((issuing 0x62281100).modTeam 0 fun t => { t with mode := .h }).modLaunch 0 fun l => { l with budget := 5 }, _, _, 0, _, _,
    ⟨rfl, rfl, rfl, rfl⟩, rfl, by decide +kernel, rfl, rfl, rfl, by decide +kernel, by decide +kernel, rfl, rfl, rfl, rfl⟩

theorem witness_PrivilegedReadSlow : ∃ (s : State) (t : Team) (r : Run) (n : Nat) (b : Block) (l : Launch) (z : DoubleState), Placed s t n b l ∧
    t.run = some r ∧ t.mute = false ∧ t.snap = none ∧ t.ops = [] ∧ t.mode = .h ∧ t.flagFull true = false ∧ r.setA ≠ 15 ∧
    t.xLatch.find (4096 * t.mode.code + 0x014) = some 9#32 ∧ t.double = some z :=
  ⟨issuingWith (fun t => flagged 3 62 { inH t with xLatch := [(4096 * 2 + 0x014, 9#32)], double := some ⟨24, 6⟩ }) 0x62281100, _, _, 0, _, _, _,
    ⟨rfl, rfl, rfl, rfl⟩, rfl, by decide +kernel, rfl, rfl, rfl, by decide +kernel, by decide +kernel, by decide +kernel, rfl⟩

theorem witness_PrivilegedWrite : ∃ (s : State) (t : Team) (n : Nat) (b : Block) (l : Launch) (a : BitVec 6), Placed s t n b l ∧ t.mute = false ∧
    (∀ r, t.poisonS r = false) ∧ t.ops = [] ∧ t.mode = .h ∧ (t.readS s.tick a.toNat).toNat % 8 = 5 ∧
    (t.readS s.tick a.toNat).toNat / 256 % 64 = 3 :=
  ⟨issuingWith inH 0x62280120, _, 0, _, _, 5, ⟨rfl, rfl, rfl, rfl⟩, by decide +kernel, fun _ => poisonS_clean ⟨rfl, rfl⟩ _, rfl, rfl, by decide +kernel,
    by decide +kernel⟩

theorem witness_PrivilegedWriteRefused : ∃ (s : State) (t : Team) (n : Nat) (b : Block) (l : Launch) (a : BitVec 6), Placed s t n b l ∧
    t.mute = false ∧ (∀ r, t.poisonS r = false) ∧ t.ops = [] ∧ t.mode = .h ∧ 6 ≤ (t.readS s.tick a.toNat).toNat % 8 ∧
    (t.readS s.tick a.toNat).toNat % 64 = 62 :=
  ⟨issuingWith (fun t => { inH t with regs := { t.regs with s := Sparse.set 0#32 [] 5 62 } }) 0x62280120, _, 0, _, _, 5, ⟨rfl, rfl, rfl, rfl⟩,
    by decide +kernel, fun _ => poisonS_clean ⟨rfl, rfl⟩ _, rfl, rfl, by decide +kernel, by decide +kernel⟩

theorem witness_PrivilegedPairWrite : ∃ (s : State) (t : Team) (n : Nat) (b : Block) (l : Launch) (a e : BitVec 6) (x : BitVec 11), Placed s t n b l ∧
    t.mute = false ∧ (∀ r, t.poisonS r = false) ∧ mayReach t.mode x.toNat ∧ x.toNat ∈ pairXids ∧
    (pair64 (t.readS s.tick a.toNat) (t.readS s.tick e.toNat)).toNat % 64 ≠ 0 ∧
    (pair64 (t.readS s.tick e.toNat) (t.readS s.tick e.toNat)).toNat % 64 = 0 :=
  ⟨issuingWith inH 0x62280120, _, 0, _, _, 5, 6, 0x014, ⟨rfl, rfl, rfl, rfl⟩, by decide +kernel, fun _ => poisonS_clean ⟨rfl, rfl⟩ _, trivial, by decide, by decide +kernel,
    by decide +kernel⟩

theorem witness_PrivilegeTrap : ∃ (s : State) (t : Team) (r : Run) (x : BitVec 11), s.team s.cur = some t ∧ t.run = some r ∧ t.mute = false ∧
    ¬ mayReach t.mode x.toNat ∧ t.mode = .u :=
  ⟨issuing 0x62281100, _, _, 0x011, rfl, rfl, by decide +kernel, fun h => absurd (show 17 ∈ classU from h) (by decide), rfl⟩

theorem witness_TranslationsRemoved : ∃ (s : State) (t : Team) (n : Nat) (b : Block) (l : Launch) (a : BitVec 6), Placed s t n b l ∧ t.mode ≠ .u ∧
    t.mute = false ∧ (∀ r, t.poisonS r = false) ∧ (t.readPair s.tick a.toNat).toNat < 2 ^ 56 ∧ (s.core 0).tlb ≠ [] :=
  ⟨mapped (issuingWith inS 0x64C40000), _, 0, _, _, 4, ⟨rfl, rfl, rfl, rfl⟩, by decide +kernel, by decide +kernel, fun _ => poisonS_clean ⟨rfl, rfl⟩ _, by decide +kernel,
    by decide +kernel⟩

/-! ### Hypotheses met: traps -/

theorem witness_CallsTrap (m : Mode) : ∃ (s : State) (t : Team) (r : Run), s.team s.cur = some t ∧ t.run = some r ∧ t.mode = m :=
  ⟨issuingWith (fun t => { t with mode := m }) 0x64000011, _, _, rfl, rfl, rfl⟩

/-- What the entry of R99 needs at a handler's stack for a team that owes `due`: its frame is written, its text is there, its bank is made
resident. -/
def EntryCase (s : State) (due : List LaneTrap) (m : Mode) : Prop :=
  ∃ t, s.team 0 = some t ∧ t.depth ≠ 3 ∧ (m = .h ↔ t.mode = .h ∨ ∃ x ∈ due, x.inH = true) ∧
    let cx := s.context (s.ctxOf t)
    let sp := if m = .h then t.xhtsp else t.xtsp
    let vect := if m = .h then cx.xhvect else cx.xvect
    let xs := due.map fun x => (if x.lanes = 0#1024 then t.trapSet else x.lanes, x)
    let all := xs.foldl (fun g x => g ||| x.1) 0#1024
    let parked := t.parked.filter fun p => p.depth == t.depth && !p.framed
    let frame := frameBytes t xs all (decide (m = t.mode)) parked
    let sp' := sp - BitVec.ofNat 64 (frameSize t.lanes parked.length (decide (m = t.mode)))
    let r1 := storeBytes s 0 m sp'.toNat frame (frame.length / 32 + 2)
    let r2 := residentBank r1.1 0 m
    sp.toNat % 64 = 0 ∧ r1.2 = none ∧ (textLength r1.1 3 vect.toNat).isSome ∧ r2.2 = none ∧ (r2.1.team 0).isSome

/-- Two causes of two lanes, and one of every lane taken in H. -/
def twoCauses : List LaneTrap := [⟨1#1024, 6, 1#32, 0x5000, 0, false, false, false, 0⟩, ⟨2#1024, 8, 4#32, 0x5001, 1, false, false, false, 0⟩]
/-- See `twoCauses`. -/
def inHypervisor : List LaneTrap := [⟨0, 21, 0x22#32, 0, 0, false, false, true, 0x22⟩]

theorem witness_TrapEntry : EntryCase (mapped (issuing 0x02000000)) twoCauses .s ∧ EntryCase (mapped (issuing 0x02000000)) inHypervisor .h :=
  ⟨⟨_, rfl, by decide +kernel, by decide +kernel, by decide +kernel⟩, _, rfl, by decide +kernel, by decide +kernel, by decide +kernel⟩

/-- A team in S at depth 1 that issues `RETT`, over a frame of zeros: U, no lane, no stack entry. -/
def inHandler : State := mapped (issuingWith (fun t => { t with mode := .s, depth := 1 }) 0x64400000)
/-- Its team. -/
def handlerTeam : Team := (inHandler.team 0).getD (Team.fresh 0 0 1 0 0)

theorem witness_ReturnFromTrap : (inHandler.team inHandler.cur = some handlerTeam ∧ handlerTeam.run.isSome ∧ handlerTeam.mode ≠ .u ∧
      handlerTeam.mute = false ∧ handlerTeam.double = none ∧ handlerTeam.depth ≠ 0 ∧ handlerTeam.ops = [] ∧ handlerTeam.parked = [] ∧
      handlerTeam.snap = none ∧
      let sp := if handlerTeam.mode = .h then handlerTeam.xhtsp else handlerTeam.xtsp
      let r1 := readFrame inHandler inHandler.cur handlerTeam sp.toNat
      sp.toNat % 64 = 0 ∧ r1.1.team inHandler.cur = some handlerTeam ∧ r1.1.cur = inHandler.cur ∧
        (match r1.2 with
        | .ok f => decide (f.mode ≤ handlerTeam.mode.code) && !f.nested
        | .error _ => false) = true) ∧
    ∃ (s : State) (t : Team) (r : Run), s.team s.cur = some t ∧ t.run = some r ∧ t.mode ≠ .u ∧ t.mute = false ∧ t.double = none ∧ t.depth = 0 :=
  ⟨by decide +kernel,
    issuingWith (fun t => { t with mode := .s }) 0x64400000, _, _, rfl, rfl, by decide +kernel, by decide +kernel, rfl, rfl⟩

theorem witness_FrameLayout : ∃ (t : Team) (e : StackEntry), t.stack.length ≤ 32 ∧ t.stack.reverse[31]? = some e :=
  ⟨{ Team.fresh 0 0 1 0 0x1100 with stack := List.replicate 32 ⟨1#1024, 0#1024, .ifArm, 0#1024, 0#1024⟩ }, _, by decide, rfl⟩

/-! ### Hypotheses met: local and global memory -/

/-- A block's place in the window of core `j` of its group. -/
theorem witness_LocalAddresses : (∃ (s : State) (b : Block) (a n : Nat), 0 < n ∧ b.size ≤ 0x4000000 ∧ a + n = b.size ∧
      b.base + a + n ≤ (s.core b.core).carveFrom) ∧
    (∃ (s : State) (b : Block) (a n : Nat), 0 < n ∧ b.size ≤ 0x4000000 ∧ a + n ≤ b.size ∧ (s.core b.core).carveFrom < b.base + a + n) ∧
    (∃ (b : Block) (a n : Nat), 0 < n ∧ b.size ≤ 0x4000000 ∧ b.size < a + n ∧ a + n ≤ 0x4000000 ∧ b.grouped = false) ∧
    ∃ (s : State) (b : Block) (a n j o : Nat) (kb : Nat × Block), 0 < n ∧ b.size ≤ 0x4000000 ∧ j < 4 ∧ b.grouped = true ∧
      (s.blocksOfCore (4 * (b.core / 4) + j)).find? (fun x => x.2.launch == b.launch && x.2.grouped && x.2.index / 4 == b.index / 4) = some kb ∧
      a = 0x4000000 + 0x1000000 * j + o ∧ o < 0x1000000 ∧ kb.2.size ≤ 0x1000000 ∧ o + n = kb.2.size ∧
      kb.2.base + o + n ≤ (s.core kb.2.core).carveFrom := by
  let b : Block := ((issuing 0).block 0).getD ⟨0, 0, 0, 0, 0, 0, 0, 0, 0, 0, 0, [], [], [], false, [], false, false, 0, none⟩
  let s := (issuing 0).modBlock 0 fun b => { b with grouped := true, size := 4096 }
  refine ⟨⟨issuing 0, { b with size := 4096 }, 4092, 4, by decide, by decide +kernel, by decide +kernel, by decide +kernel⟩,
    ⟨(issuing 0).modCore 0 fun c => { c with carve := 1 }, b, 1048572, 4, by decide, by decide +kernel, by decide +kernel, by decide +kernel⟩,
    ⟨{ b with size := 4096 }, 4093, 4, by decide, by decide +kernel, by decide +kernel, by decide, by decide +kernel⟩,
    s, { b with grouped := true, size := 4096 }, 0x4000000 + 4092, 4, 0, 4092, (0, { b with grouped := true, size := 4096 }), by decide,
    by decide +kernel, by decide, rfl, by decide +kernel, by decide, by decide, by decide +kernel, by decide +kernel, by decide +kernel⟩

/-- One team with nothing outstanding saves nothing. -/
theorem unsaving_one {s : State} (k : Nat) {t : Team} (h : s.teams = [(k, t)]) (ht : ∀ o ∈ t.ops, o.area = none) : Unsaving s := by
  intro x hx
  rw [h] at hx
  cases List.mem_singleton.1 hx
  exact ht

theorem witness_LocalLoad : (∃ (s : State) (t : Team) (r : Run) (b : Block) (w : LocalAccess), s.team s.cur = some t ∧ t.run = some r ∧
      s.block t.block = some b ∧ Clean t ∧ Unsaving s ∧ Ordered s ∧ localLoadForm s t b (.ldl 0 5 10 6 0) = some w ∧ 
      (t.actingLanes.all fun l => match w.fate l with | .go c o => !(w.value l c o).2 | .trap _ _ _ => true) = true ∧ t.actingLanes ≠ [] ∧
      t.flagFull true = false) ∧
    (∃ (s : State) (t : Team) (b : Block), s.team s.cur = some t ∧ s.block t.block = some b ∧ Clean t ∧ Unsaving s ∧ Ordered s ∧ t.actingLanes ≠ [] ∧
      t.flagFull true = true) ∧
    (∃ (s : State) (t : Team) (b : Block), s.team s.cur = some t ∧ s.block t.block = some b ∧ Clean t ∧ Unsaving s ∧ Ordered s ∧ t.actingLanes = []) ∧
    ∃ (s : State) (t : Team) (b : Block), s.team s.cur = some t ∧ s.block t.block = some b ∧ Clean t ∧ Unsaving s ∧ Ordered s ∧
      (localLoadForm s t b (.ldt 0 4 3 2)).isSome :=
  ⟨⟨issuing 0x4414A0C0, _, _, _, _, rfl, rfl, rfl, ⟨rfl, rfl⟩, unsaving_one _ rfl nofun, nofun, rfl, by decide +kernel, by decide +kernel, by decide +kernel⟩,
    ⟨issuingWith (flagged 2 63) 0x4414A0C0, _, _, rfl, rfl, ⟨rfl, rfl⟩, unsaving_one _ rfl nofun, nofun, by decide +kernel, by decide +kernel⟩,
    ⟨issuingWith (fun t => t.raiseAll 5 0) 0x4414A0C0, _, _, rfl, rfl, ⟨rfl, rfl⟩, unsaving_one _ rfl nofun, nofun, by decide +kernel⟩,
    (issuing 0x48103040).modBlock 0 fun b => { b with tiles := b.tiles.put 3 ⟨0, 0x00200020, 0, 128, false, true, 2⟩ }, _, _, rfl, rfl,
    ⟨rfl, rfl⟩, unsaving_one _ rfl nofun, nofun, by decide +kernel⟩

theorem witness_LocalStore : (∃ (s : State) (t : Team) (r : Run) (b : Block) (w : LaneStore), s.team s.cur = some t ∧ t.run = some r ∧
      s.block t.block = some b ∧ Clean t ∧ Unsaving s ∧ localStoreForm s t b (.stl 0 5 10 6 0) = some w ∧ t.actingLanes ≠ [] ∧ t.flagFull false = false) ∧
    (∃ (s : State) (t : Team) (b : Block), s.team s.cur = some t ∧ s.block t.block = some b ∧ Clean t ∧ Unsaving s ∧ t.actingLanes ≠ [] ∧
      t.flagFull false = true) ∧
    (∃ (s : State) (t : Team) (b : Block), s.team s.cur = some t ∧ s.block t.block = some b ∧ Clean t ∧ Unsaving s ∧ t.actingLanes = []) ∧
    ∃ (s : State) (t : Team) (b : Block), s.team s.cur = some t ∧ s.block t.block = some b ∧ Clean t ∧ Unsaving s ∧
      (localStoreForm s t b (.stt 0 4 3 2)).isSome :=
  ⟨⟨issuing 0x4614A0C0, _, _, _, _, rfl, rfl, rfl, ⟨rfl, rfl⟩, unsaving_one _ rfl nofun, rfl, by decide +kernel, by decide +kernel⟩,
    ⟨issuingWith (flagged 2 63) 0x4614A0C0, _, _, rfl, rfl, ⟨rfl, rfl⟩, unsaving_one _ rfl nofun, by decide +kernel, by decide +kernel⟩,
    ⟨issuingWith (fun t => t.raiseAll 5 0) 0x4614A0C0, _, _, rfl, rfl, ⟨rfl, rfl⟩, unsaving_one _ rfl nofun, by decide +kernel⟩,
    (issuing 0x4A103040).modBlock 0 fun b => { b with tiles := b.tiles.put 3 ⟨0, 0x00200020, 0, 128, false, true, 1⟩ }, _, _, rfl, rfl,
    ⟨rfl, rfl⟩, unsaving_one _ rfl nofun, by decide +kernel⟩

theorem witness_TileStateTrap : ∃ (s : State) (t : Team) (r : Run) (b : Block), s.team s.cur = some t ∧ t.run = some r ∧
    s.block t.block = some b ∧ ¬ ((b.tile 3).valid ∧ (b.tile 3).state = 2 ∧ (b.tile 3).eng = false) ∧
    ¬ ((b.tile 3).valid ∧ (b.tile 3).state = 1 ∧ (b.tile 3).eng = false) :=
  ⟨issuing 0x4A103040, _, _, _, rfl, rfl, rfl, by decide +kernel, by decide +kernel⟩

/-- A log entry of the context under tag 0 that covers byte 0x3F of chunk 0x81. -/
def anEntry : LogEntry :=
  { pos := 0, ctx := 0, chunk := 0x81, mask := 0x80000000#32, data := 0xAB#256 <<< 248, pub := false, seg := 0, spl := false, rgn := false
    pois := false, tctx := 0, eng := false, cmd := none, keep := 0, det := none, past := [] }

theorem witness_ReaderView : (∃ (s : State) (c ctx tag pa : Nat) (e : LogEntry), (s.core c).tagOf ctx = some tag ∧ e ∈ (s.core c).log ∧ e.ctx = tag ∧
      e.chunk = pa / 32 ∧ e.mask.getLsbD (pa % 32) = true ∧ ∀ x ∈ (s.core c).log, x = e) ∧
    (∃ (s : State) (c ctx tag pa : Nat) (line : List Byte), (s.core c).tagOf ctx = some tag ∧ (s.core c).log = [] ∧
      (s.core c).l1.find (pa / 128) = some line) ∧
    ∃ (s : State) (c ctx tag pa : Nat), (s.core c).tagOf ctx = some tag ∧ (s.core c).log = [] ∧
      (s.core c).l1.find (pa / 128) = none :=
  ⟨⟨(issuing 0).modCore 0 fun c => { c with log := [anEntry] }, 0, 0, 0, 0x103F, anEntry, by decide +kernel, by decide +kernel, rfl, by decide +kernel,
      by decide +kernel, by decide +kernel⟩,
    ⟨(issuing 0).modCore 0 fun c => { c with l1 := [(0x20, List.replicate 128 7)] }, 0, 0, 0, 0x103F, List.replicate 128 7, by decide +kernel, by decide +kernel,
      by decide +kernel⟩,
    issuing 0, 0, 0, 0, 0x103F, by decide +kernel, by decide +kernel, by decide +kernel⟩

/-- `mapped` with a watch of loads at 0x4000, and a destination range of 128 bytes locked at 0x8000. -/
def guarded : State :=
  (mapped (issuing 0)).modCore 0 fun c => { c with
    watches := [(0, ⟨0x4000, 4, 3, 0⟩)]
    locks := [(2, { dst := true, isLocal := false, home := 0, ctx := 0, slot := 0, base := 0x8000, len := 128, cid := 0, time := 0 })] }

theorem witness_AccessChecks : ∃ t : Team, guarded.team 0 = some t ∧ t.behindStore 0x4000 4 = false ∧
    (watchHit guarded 0 (guarded.ctxOf t) 0x4000 4 1).isSome ∧ (watchHit guarded 0 (guarded.ctxOf t) 0x4000 4 2).isSome ∧
    watchHit guarded 0 (guarded.ctxOf t) 0x8000 4 1 = none ∧ watchHit guarded 0 (guarded.ctxOf t) 0x8000 4 2 = none ∧
    lookupTlb guarded 0 (guarded.ctxOf t) 0x40000000 = none ∧ lookupTlb guarded 0 (guarded.ctxOf t) 0x3FFFFFFC = some flatPage ∧
    flatPage.pa + (0x3FFFFFFC - flatPage.base) < hbmTop ∧
    (lockHit guarded 0 (guarded.tagOn 0 (guarded.ctxOf t)) false 0 0x8000 4 false).isSome ∧
    lockHit guarded 0 (guarded.tagOn 0 (guarded.ctxOf t)) false 0 0x3FFFFFFC 4 true = none :=
  ⟨_, rfl, by and_intros <;> decide +kernel⟩

/-- The same where the held translation permits nothing to U, no store, or no store at stage two; and a load behind a parked store. -/
theorem witness_AccessRefused : ∀ ua wr wr2 : Bool,
    let x : TlbEntry := { flatPage with ua := ua, wr := wr, wr2 := wr2 }
    let s := (issuing 0).modCore 0 fun c => { c with tlb := [x] }
    (s.team 0).map (fun t => (t.mode, lookupTlb s 0 (s.ctxOf t) 0x8000)) = some (.u, some x) := by decide +kernel

/-- A parked store of the word at 0x8000. -/
def parkedStore (t : Team) : Team :=
  { t with parked := [{ word := 0x42204040, status := 1, slot := 0, flag := none, depth := 0, pc := 0, lclk := 0, index := 0, op := 0
                        pending := [(0, 0x8000, [7])], faulted := [], forRoom := false, framed := false, mode := .u, sectors := [], stamp := 0
                        mark := 0, again := false, turn := false }] }

theorem witness_LoadBehindStore : ∃ (s : State) (t : Team), s.team 0 = some t ∧ t.behindStore 0x8000 4 = true ∧
    watchHit s 0 (s.ctxOf t) 0x8000 4 1 = none :=
  ⟨issuingWith parkedStore 0, _, rfl, by decide +kernel, by decide +kernel⟩

theorem resolved_of {ls : List Nat} {fate : Nat → Fate}
    (h : (ls.all fun l => match fate l with | .go _ _ _ => true | .trap _ _ _ _ => true | _ => false) = true) : Resolved ls fate := by
  intro l hl
  have := List.all_eq_true.1 h l hl
  cases hf : fate l <;> simp [hf] at this ⊢

theorem witness_GlobalLoad : ∃ (s : State) (t : Team) (r : Run), s.team s.cur = some t ∧ t.run = some r ∧ Clean t ∧ t.parked = [] ∧
    t.flagFull true = false ∧ t.actingLanes ≠ [] ∧
    let addr := fun l => (pair64 (t.readS s.tick 4) (t.readS s.tick 5) + (t.readV s.tick 2 l).setWidth 64).toNat
    let fate := fun l => (checkAccess s s.cur t (Access.load 4) false (addr l)).2
    Resolved t.actingLanes fate ∧ ∀ x ∈ accessPlaces t.actingLanes fate, (readAt s (coreOfTeam s.cur) (s.ctxOf t) x.2 4 true).2 = false :=
  ⟨mapped (issuing 0x40204040), _, _, rfl, rfl, ⟨rfl, rfl⟩, by decide +kernel, by decide +kernel, by decide +kernel,
    resolved_of (by decide +kernel), by decide +kernel⟩

theorem witness_ScalarLoad : (∃ (s : State) (t : Team) (r : Run), s.team s.cur = some t ∧ t.run = some r ∧ (∀ x, t.poisonS x = false) ∧ t.parked = [] ∧
      t.mute = false ∧ t.flagFull true = false ∧
      let va := (pair64 (t.readS s.tick 8) (t.readS s.tick 9) + (16#11).signExtend 64).toNat
      (checkAccess s s.cur t (Access.load 4) false va).2 = .go 16 0 false ∧ (readAt s (coreOfTeam s.cur) (s.ctxOf t) 16 4 true).2 = false) ∧
    ∃ (s : State) (t : Team) (r : Run), s.team s.cur = some t ∧ t.run = some r ∧ (∀ x, t.poisonS x = false) ∧ t.parked = [] ∧
      t.mute = false ∧ t.flagFull true = false ∧
      let va := (pair64 (t.readS s.tick 8) (t.readS s.tick 9) + (17#11).signExtend 64).toNat
      (checkAccess s s.cur t (Access.load 4) false va).2 = .trap 8 4 false false :=
  ⟨⟨mapped (issuing 0x0C210010), _, _, rfl, rfl, fun _ => poisonS_clean ⟨rfl, rfl⟩ _, by and_intros <;> decide +kernel⟩,
    mapped (issuing 0x0C210010), _, _, rfl, rfl, fun _ => poisonS_clean ⟨rfl, rfl⟩ _, by decide +kernel, by decide +kernel, by decide +kernel,
      by decide +kernel⟩

theorem witness_LoadParks (n : Nat) (h : n = 7 ∨ n = 8) : ∃ (s : State) (t : Team) (r : Run), s.team s.cur = some t ∧ t.run = some r ∧ Clean t ∧
    t.flagFull true = false ∧ t.helpers = 0#1024 ∧ t.actingLanes ≠ [] ∧ t.parked.length = n ∧ r.setA = 15 ∧
    let addr := fun l => (t.readPair s.tick 4 + (t.readV s.tick 2 l).setWidth 64).toNat
    ∀ l ∈ t.actingLanes, (checkAccess s s.cur t (Access.load 4) false (addr l)).2 = .park := by
  rcases h with rfl | rfl
  · exact ⟨issuingWith (fun t => { t with parked := ((parkedStore t).parked.map fun p => { p with pending := [] }).flatMap (List.replicate 7) }) 0x40204040, _, _, rfl, rfl,
      ⟨rfl, rfl⟩, by decide +kernel, by decide +kernel, by decide +kernel, by decide +kernel, rfl, by decide +kernel⟩
  · exact ⟨issuingWith (fun t => { t with parked := ((parkedStore t).parked.map fun p => { p with pending := [] }).flatMap (List.replicate 8) }) 0x40204040, _, _, rfl, rfl,
      ⟨rfl, rfl⟩, by decide +kernel, by decide +kernel, by decide +kernel, by decide +kernel, rfl, by decide +kernel⟩

theorem witness_GlobalStore : ∃ (s : State) (t : Team) (r : Run) (tag : Nat), s.team s.cur = some t ∧ t.run = some r ∧ Clean t ∧ t.parked = [] ∧
    t.actingLanes ≠ [] ∧ t.flagFull false = false ∧ s.deterministic t = false ∧ (s.core (coreOfTeam s.cur)).tagOf (s.ctxOf t) = some tag ∧
    (s.core (coreOfTeam s.cur)).ringUsed + t.lanes ≤ ringSize ∧
    let addr := fun l => (t.readPair s.tick 4 + (t.readV s.tick 2 l).setWidth 64).toNat
    let fate := fun l => (checkAccess s s.cur t (Access.store 4) false (addr l)).2
    Resolved t.actingLanes fate ∧ ∀ x ∈ accessPlaces t.actingLanes fate, x.2 < hbmTop ∧ x.2 % 4 = 0 :=
  ⟨mapped (issuing 0x42204040), _, _, 0, rfl, rfl, ⟨rfl, rfl⟩, by decide +kernel, by decide +kernel, by decide +kernel, by decide +kernel,
    by decide +kernel, by decide +kernel, resolved_of (by decide +kernel), by decide +kernel⟩

theorem witness_ScalarStore : ∃ (s : State) (t : Team) (r : Run) (tag : Nat), s.team s.cur = some t ∧ t.run = some r ∧ (∀ x, t.poisonS x = false) ∧
    t.parked = [] ∧ t.mute = false ∧ t.flagFull false = false ∧ 0 < t.words ∧ s.deterministic t = false ∧
    (s.core (coreOfTeam s.cur)).tagOf (s.ctxOf t) = some tag ∧ (s.core (coreOfTeam s.cur)).ringUsed < ringSize ∧
    let va := (t.readPair s.tick 8 + (16#11).signExtend 64).toNat
    (checkAccess s s.cur t (Access.store 4) false va).2 = .go 16 0 false ∧ 16 < hbmTop ∧ 16 % 4 = 0 :=
  ⟨mapped (issuing 0x0E210010), _, _, 0, rfl, rfl, fun _ => poisonS_clean ⟨rfl, rfl⟩ _, by and_intros <;> decide +kernel⟩

theorem witness_LocalTraps : (∃ (s : State) (t : Team) (b : Block) (w : LocalAccess), s.team s.cur = some t ∧ s.block t.block = some b ∧ Clean t ∧
      localLoadForm s t b (.ldl 0 5 10 6 0) = some w ∧ t.actingLanes ≠ [] ∧ t.flagFull true = false ∧
      (t.actingLanes.all fun l => match w.fate l with | .trap _ _ _ => true | _ => false) = true) ∧
    (∃ (s : State) (t : Team) (b : Block) (w : LaneStore), s.team s.cur = some t ∧ s.block t.block = some b ∧ Clean t ∧
      localStoreForm s t b (.stl 0 5 10 6 0) = some w ∧ t.actingLanes ≠ [] ∧ t.flagFull false = false ∧
      (t.actingLanes.all fun l => match w.fate l with | .trap _ _ _ => true | _ => false) = true) ∧
    ∀ full : Bool, ∃ (s : State) (t : Team) (r : Run) (b : Block), s.team s.cur = some t ∧ t.run = some r ∧ s.block t.block = some b ∧
      (b.tile 3).valid = false ∧ lanesOf t.helpers t.lanes ≠ [] ∧ t.flagFull true = full := by
  let far : Team → Team := fun t => { t with regs := { t.regs with s := Sparse.set 0#32 [] 10 0x3FFFFF00 } }
  let half : Team → Team := fun t => { t with run := t.run.map (fun r => { r with helper := true }), regs := { t.regs with k := [(0, 2#1024)] } }
  refine ⟨⟨issuingWith far 0x4414A0C0, _, _, _, rfl, rfl, ⟨rfl, rfl⟩, rfl, ?_⟩,
    ⟨issuingWith far 0x4614A0C0, _, _, _, rfl, rfl, ⟨rfl, rfl⟩, rfl, ?_⟩, fun full => ?_⟩
  · and_intros <;> decide +kernel
  · and_intros <;> decide +kernel
  · cases full
    · exact ⟨issuingWith half 0x49E03040, _, _, _, rfl, rfl, rfl, by and_intros <;> decide +kernel⟩
    · exact ⟨issuingWith (fun t => flagged 2 63 (half t)) 0x49E03040, _, _, _, rfl, rfl, rfl, by and_intros <;> decide +kernel⟩

/-- `mapped` with a page that permits U nothing: every lane of a load traps. -/
theorem witness_LoadsTrap : ∃ (s : State) (t : Team), s.team s.cur = some t ∧ t.run.isSome ∧ Clean t ∧ t.parked = [] ∧ t.flagFull true = false ∧
    t.actingLanes ≠ [] ∧
    let addr := fun l => (pair64 (t.readS s.tick 4) (t.readS s.tick 5) + (t.readV s.tick 2 l).setWidth 64).toNat
    let fate := fun l => (checkAccess s s.cur t (Access.load 4) false (addr l)).2
    Resolved t.actingLanes fate ∧ accessPlaces t.actingLanes fate = [] :=
  ⟨(mapped (issuing 0x40204040)).modCore 0 fun c => { c with tlb := [{ flatPage with ua := false }] }, _, rfl, rfl, ⟨rfl, rfl⟩,
    by decide +kernel, by decide +kernel, by decide +kernel, resolved_of (by decide +kernel), by decide +kernel⟩

/-! ### Hypotheses met: releases, atomics, the ladle and monitors -/

/-- Two entries under tag 0, the first published in segment 0 with stamp 4 at CLUSTER scope. -/
def withLog (s : State) : State :=
  s.modCore 0 fun c => { c with
    log := [{ anEntry with pub := true }, { anEntry with pos := 1 }], segs := [⟨0, 0, 0, 4, 2, [(0, 0)]⟩], nextSeg := 1, ctxLogs := [(0, ⟨0, 2, 1, 0⟩)], counter := 4 }

theorem witness_Release : ∃ (s : State) (c tag m : Nat) (g : CtxLog), (s.core c).ctxLogs.find tag = some g ∧
    (∀ x ∈ (s.core c).segs, x.seg ≠ (s.core c).nextSeg) ∧ (s.core c).log.any (toPublish tag m) = true ∧
    ∃ x ∈ (s.core c).segs, x.ctx = tag ∧ x.scope < 3 ∧ segmentBelow c m x = true :=
  ⟨withLog (issuing 0), 0, 0, 2, _, rfl, by decide +kernel, by decide +kernel, ⟨0, 0, 0, 4, 2, [(0, 0)]⟩, by decide +kernel, by decide +kernel, by decide +kernel,
    by decide +kernel⟩

theorem witness_Acquire : ∃ (s : State) (j : Nat) (x : Segment), x ∈ (s.core j).segs ∧ s.cores.find j = some (s.core j) ∧
    withinScope 3 1 j = true ∧ segCovers x j 1 = true ∧ ∃ e ∈ (s.core j).log, e.pub = true ∧ ((s.core j).segOf e).stamp ≤ 4 :=
  ⟨withLog (issuing 0), 0, ⟨0, 0, 0, 4, 2, [(0, 0)]⟩, by decide +kernel, by decide +kernel, by decide +kernel, by decide +kernel, { anEntry with pub := true },
    by decide +kernel, rfl, by decide +kernel⟩

theorem witness_FoldOrder : (anEntry.chunk = 0x103F / 32 ∧ anEntry.mask.getLsbD (0x103F % 32) = true) ∧
    (∃ s : State, ¬ (5 < (s.home.tag 0x103F).1 ∨ 5 = (s.home.tag 0x103F).1 ∧ 2 < (s.home.tag 0x103F).2) ∧ s.home.tag 0x103F = (5, 2)) ∧
    (∃ s : State, 5 < (s.home.tag 0x103F).1 ∨ 5 = (s.home.tag 0x103F).1 ∧ 2 < (s.home.tag 0x103F).2) ∧
    ∃ (s : State) (e : LogEntry), e.keep = 3 ∧ s.home.l2.find (0x103F / 128) = none ∧ s.home.tag 0x103F = (0, 0) :=
  ⟨by decide +kernel, ⟨State.reset.modHome fun h => { h with fold := [(0x103F, (5, 2))] }, by decide +kernel, by decide +kernel⟩,
    ⟨State.reset.modHome fun h => { h with fold := [(0x103F, (5, 3))] }, by decide +kernel⟩,
    State.reset, { anEntry with keep := 3 }, rfl, rfl, rfl⟩

theorem witness_HomeWrite : ∃ (s : State) (bs : List Byte), (∀ kc ∈ s.cores, kc.2.log = []) ∧ bs ≠ [] :=
  ⟨issuing 0, [1], by decide +kernel, by decide⟩

theorem witness_AtomicResult : ∃ (s : State) (t : Team) (r : Run), s.team s.cur = some t ∧ t.run = some r ∧ Clean t ∧ t.parked = [] ∧
    t.actingLanes ≠ [] ∧ t.flagFull true = false ∧ s.deterministic t = false ∧ NoEntries s ∧ s.home.poison = [] ∧ openRegions s ≤ 65536 ∧
    let addr := fun l => (pair64 (t.readV s.tick 4 l) (t.readV s.tick 5 l)).toNat
    let fate := fun l => (checkAccess s s.cur t ⟨.atomic, 3, 4, 3, true, false⟩ false (addr l)).2
    Resolved t.actingLanes fate ∧ ∀ x ∈ accessPlaces t.actingLanes fate, x.2 + 64 ≤ hbmTop ∧ x.2 % 4 = 0 :=
  ⟨mapped (issuing 0x4C08260C), _, _, rfl, rfl, ⟨rfl, rfl⟩, by decide +kernel, by decide +kernel, by decide +kernel, by decide +kernel,
    by unfold NoEntries; decide +kernel, by decide +kernel, by decide +kernel, resolved_of (by decide +kernel), by decide +kernel⟩

/-- One lane active. -/
def oneLane (t : Team) : Team := { t with regs := { t.regs with k := [(0, 2#1024)] } }

theorem witness_AtomicOrder : ∃ (s : State) (t : Team), s.team s.cur = some t ∧ t.run.isSome ∧ Clean t ∧ t.parked = [] ∧ t.actingLanes = [1] ∧
    t.flagFull true = false ∧ s.deterministic t = false ∧ NoEntries s ∧ openRegions s ≤ 65536 ∧ (s.home.syncTag (0 / 128)).scope = 7 ∧
    (checkAccess s s.cur t ⟨.atomic, 3, 4, 3, true, false⟩ false (t.readVPair s.tick 4 1).toNat).2 = .go 0 0 false ∧ 0 + 64 ≤ hbmTop :=
  ⟨mapped (issuingWith oneLane 0x4C08264C), _, rfl, rfl, ⟨rfl, rfl⟩, by decide +kernel, by decide +kernel, by decide +kernel, by decide +kernel,
    by unfold NoEntries; decide +kernel, by decide +kernel, by decide +kernel, by decide +kernel, by decide⟩

theorem witness_LogInstructions : ∃ (s : State) (t : Team) (r : Run), s.team s.cur = some t ∧ t.run = some r ∧ t.mute = false ∧
    t.awaitsAccess = false ∧ t.flagFull false = false ∧ s.deterministic t = false ∧ (∀ n, t.poisonS n = false) ∧
    255 < (t.readS s.tick 5).toNat :=
  ⟨withLog (issuingWith (fun t => { t with regs := { t.regs with s := [(5, 256)] } }) 0x50180000), _, _, rfl, rfl, by decide +kernel, by decide +kernel,
    by decide +kernel, by decide +kernel, fun _ => poisonS_clean ⟨rfl, rfl⟩ _, by decide +kernel⟩

theorem witness_LogAcquire : ∃ (s : State) (t : Team) (z : Segment), s.team s.cur = some t ∧ t.mute = false ∧ s.deterministic t = false ∧
    (∀ n, t.poisonS n = false) ∧ (t.readS s.tick 6).toNat = 1 ∧ (t.readS s.tick 7).toNat = 1 ∧ (s.core 1).tagOf (s.ctxOf t) = some 0 ∧
    (s.core 1).ctxLogs.find 0 = some ⟨0, 1, 1, 0⟩ ∧
    (∀ kc ∈ s.cores, ∀ e ∈ kc.2.log, e.pub = true ∧ segCovers (kc.2.segOf e) kc.1 (coreOfTeam s.cur) = true) ∧
    z ∈ (s.core 1).segs ∧ z.num = s.ctxOf t ∧ (1, 0) ∈ z.holds ∧ ∀ kc ∈ s.cores, ∀ y ∈ kc.2.segs, y.stamp = 4 :=
  ⟨(issuingWith (fun t => { t with regs := { t.regs with s := [(6, 1), (7, 1)] } }) 0x5298C380).modCore 1 fun c => { c with
      log := [{ anEntry with pub := true }], segs := [⟨0, 0, 0, 4, 3, [(1, 0)]⟩], nextSeg := 1, ctxLogs := [(0, ⟨0, 1, 1, 0⟩)], counter := 4 },
    _, ⟨0, 0, 0, 4, 3, [(1, 0)]⟩, rfl, by decide +kernel, by decide +kernel, fun _ => poisonS_clean ⟨rfl, rfl⟩ _, by decide +kernel,
    by decide +kernel, by decide +kernel, by and_intros <;> decide +kernel⟩

/-- A machine whose launch is deterministic, with the lanes' page shared. -/
def deterministicOn (s : State) : State :=
  ((mapped s).modCore 0 fun c => { c with tlb := [{ flatPage with sh := true }] }).modLaunch 0 fun l => { l with determ := true }

theorem witness_LadleGate : ∃ (s : State) (t : Team) (b : Block) (l : Launch), s.team s.cur = some t ∧ s.block t.block = some b ∧
    s.launch b.launch = some l ∧ l.determ = true ∧ l.ladle ≠ some s.cur ∧ Clean t ∧ t.parked = [] ∧ t.mute = false ∧ t.actingLanes = [1] ∧
    t.flagFull true = false ∧ t.flagFull false = false ∧ openRegions s + 3072 ≤ 65536 ∧ t.lanes ≤ 1024 ∧ (t.readS s.tick 6).toNat < 256 ∧
    checkAccess s s.cur t ⟨.atomic, 3, 4, 3, true, false⟩ true (t.readVPair s.tick 4 1).toNat = (s, .go 0 0 true) ∧
    checkAccess s s.cur t (Access.store 4) true (t.readPair s.tick 4 + (t.readV s.tick 2 1).setWidth 64).toNat = (s, .go 0 0 true) :=
  ⟨deterministicOn (issuingWith oneLane 0x4C08264C), _, _, _, rfl, rfl, rfl, rfl, by decide +kernel, ⟨rfl, rfl⟩, by decide +kernel, by decide +kernel,
    by decide +kernel, by decide +kernel, by decide +kernel, by decide +kernel, by decide +kernel, by decide +kernel, Prod.ext rfl (by decide +kernel),
    Prod.ext rfl (by decide +kernel)⟩

theorem witness_MonitorArm : (∃ (s : State) (t : Team) (r : Run), s.team s.cur = some t ∧ t.run = some r ∧ Clean t ∧ t.parked = [] ∧
      t.actingLanes = []) ∧
    (∃ (s : State) (t : Team) (r : Run), s.team s.cur = some t ∧ t.run = some r ∧ Clean t ∧ t.parked = [] ∧ t.actingLanes.head? = some 1 ∧
      (checkAccess s s.cur t Access.monitor false (t.readVPair s.tick 4 1).toNat).2 = .go 0 0 false ∧
      (viewBytes s (coreOfTeam s.cur) (s.ctxOf t) false 0 4).2 = false) ∧
    ∃ (s : State) (t : Team) (r : Run), s.team s.cur = some t ∧ t.run = some r ∧ Clean t ∧ t.parked = [] ∧ t.actingLanes.head? = some 1 ∧
      t.k0 ≠ 0#1024 ∧ (checkAccess s s.cur t Access.monitor false (t.readVPair s.tick 4 1).toNat).2 = .trap 8 4 false false :=
  ⟨⟨issuingWith (fun t => t.raiseAll 5 0) 0x4E010500, _, _, rfl, rfl, ⟨rfl, rfl⟩, by decide +kernel, by decide +kernel⟩,
    ⟨mapped (issuingWith oneLane 0x4E010500), _, _, rfl, rfl, ⟨rfl, rfl⟩, by decide +kernel, by decide +kernel, by decide +kernel, by decide +kernel⟩,
    mapped (issuingWith (fun t => { oneLane t with regs := { (oneLane t).regs with v := [(vKey .u 4 1, 2)] } }) 0x4E010500), _, _, rfl, rfl, ⟨rfl, rfl⟩,
    by decide +kernel, by decide +kernel, by decide +kernel, by decide +kernel⟩

/-- A team at `WAITM` with its monitor so; the address of its lane 1 is 0. -/
def MonitorCase (m : Monitor) : Prop :=
  ∃ (s : State) (t : Team) (r : Run), s.team s.cur = some t ∧ t.run = some r ∧ Clean t ∧ t.actingLanes.head? = some 1 ∧
    checkAccess s s.cur t (Access.load 4) true (t.readVPair s.tick 4 1).toNat = (s, .go 0 0 false) ∧ t.monitor = m ∧
    (viewBytes s (coreOfTeam s.cur) (s.ctxOf t) false 0 4).2 = false

theorem witness_MonitorWait : MonitorCase Monitor.clear ∧ MonitorCase ⟨true, false, 1, 0, 0, false⟩ ∧ MonitorCase ⟨true, false, 0, 0, 0, true⟩ ∧
    MonitorCase ⟨true, false, 0, 0, 0, false⟩ :=
  ⟨⟨mapped (issuingWith (fun t => { oneLane t with monitor := Monitor.clear }) 0x4E210500), _, _, rfl, rfl, ⟨rfl, rfl⟩, by decide +kernel,
      Prod.ext rfl (by decide +kernel), rfl, by decide +kernel⟩,
    ⟨mapped (issuingWith (fun t => { oneLane t with monitor := ⟨true, false, 1, 0, 0, false⟩ }) 0x4E210500), _, _, rfl, rfl, ⟨rfl, rfl⟩,
      by decide +kernel, Prod.ext rfl (by decide +kernel), rfl, by decide +kernel⟩,
    ⟨mapped (issuingWith (fun t => { oneLane t with monitor := ⟨true, false, 0, 0, 0, true⟩ }) 0x4E210500), _, _, rfl, rfl, ⟨rfl, rfl⟩,
      by decide +kernel, Prod.ext rfl (by decide +kernel), rfl, by decide +kernel⟩,
    mapped (issuingWith (fun t => { oneLane t with monitor := ⟨true, false, 0, 0, 0, false⟩ }) 0x4E210500), _, _, rfl, rfl, ⟨rfl, rfl⟩,
    by decide +kernel, Prod.ext rfl (by decide +kernel), rfl, by decide +kernel⟩

theorem witness_AtomTraps : ∃ (s : State) (t : Team), s.team s.cur = some t ∧ t.run.isSome ∧ Clean t ∧ t.parked = [] ∧ t.flagFull true = false ∧
    s.deterministic t = false ∧ NoEntries s ∧ s.home.poison = [] ∧ openRegions s ≤ 65536 ∧
    let addr := fun l => (pair64 (t.readV s.tick 4 l) (t.readV s.tick 5 l)).toNat
    let fate := fun l => (checkAccess s s.cur t ⟨.atomic, 3, 4, 3, true, false⟩ false (addr l)).2
    Resolved t.actingLanes fate ∧ accessPlaces t.actingLanes fate = [] :=
  ⟨(mapped (issuing 0x4C08260C)).modCore 0 fun c => { c with tlb := [{ flatPage with wr := false }] }, _, rfl, rfl, ⟨rfl, rfl⟩,
    by decide +kernel, by decide +kernel, by decide +kernel, by unfold NoEntries; decide +kernel, by decide +kernel, by decide +kernel,
    resolved_of (by decide +kernel), by decide +kernel⟩

/-! ### Hypotheses met: barriers, block-wide points and tiles -/

/-- Barrier 1 changed, and `s21` holding a value. -/
def atBarrier (f : Barrier → Barrier) (v : Word) : State :=
  (issuingWith (fun t => { t with regs := { t.regs with s := Sparse.set 0#32 [] 21 v } }) 0x54255000).modBlock 0 fun b =>
    b.setBarrier 1 (f (b.barrier 1))

/-- A team able to use barrier 1. -/
def BarrierCase (f : Barrier → Barrier) (v : Word) (p : Team → Block → Barrier → Prop) : Prop :=
  ∃ (t : Team) (r : Run) (b : Block), (atBarrier f v).team (atBarrier f v).cur = some t ∧ t.run = some r ∧
    (atBarrier f v).block t.block = some b ∧ t.mute = false ∧ (∀ x, t.poisonS x = false) ∧ (atBarrier f v).deterministic t = false ∧ t.ops = [] ∧
    (t.readS (atBarrier f v).tick 21) = v ∧ p t b (b.barrier 1)

theorem witness_Barriers :
    BarrierCase id 1 (fun _ b x => x.arrt = 0#16 ∧ x.pend = 0 ∧ x.ext = 0 ∧ 1 ≤ b.nteams ∧ x.ext + 1 ≤ 32767 ∧ (owes x (x.phase - 1#8)).1 < 2) ∧
    BarrierCase (fun x => { x with ext := 32767 }) 2 (fun _ b _ => ¬ 2 ≤ b.nteams) ∧
    BarrierCase id 0 (fun t b x => ¬ arrivalAllowed b x t ∧ BitVec.ofNat 8 0 = x.phase) ∧
    BarrierCase (fun x => { x with teams := 2, phase := 255 }) 3 (fun t b x => arrivalAllowed b x t ∧ ¬ phaseDone (withArrival x t) ∧
      BitVec.ofNat 8 3 ≠ x.phase ∧ (owes x 3#8).1 < 2) ∧
    BarrierCase (fun x => { x with teams := 1, phase := 255 }) 3 (fun t b x => arrivalAllowed b x t ∧ phaseDone (withArrival x t) ∧ t.wait = none) ∧
    BarrierCase (fun x => { x with ext := -1, phase := 1, acqs := [(0, (3, 5))] }) 1 (fun _ _ x => x.ext < 0 ∧ x.ext + 1 ≤ 32767 ∧
      (owes x (x.phase - 1#8)).1 = 3 ∧ BitVec.ofNat 8 1 = x.phase) ∧
    BarrierCase (fun x => { x with phase := 1, acqs := [(0, (2, 5))] }) 0 (fun _ _ x => BitVec.ofNat 8 0 ≠ x.phase ∧ (owes x 0#8).1 = 2) := by
  refine ⟨⟨_, _, _, rfl, rfl, rfl, ?_, fun _ => poisonS_clean ⟨rfl, rfl⟩ _, ?_, rfl, ?_, ?_⟩, ⟨_, _, _, rfl, rfl, rfl, ?_, fun _ => poisonS_clean ⟨rfl, rfl⟩ _, ?_, rfl, ?_, ?_⟩,
    ⟨_, _, _, rfl, rfl, rfl, ?_, fun _ => poisonS_clean ⟨rfl, rfl⟩ _, ?_, rfl, ?_, ?_⟩, ⟨_, _, _, rfl, rfl, rfl, ?_, fun _ => poisonS_clean ⟨rfl, rfl⟩ _, ?_, rfl, ?_, ?_⟩,
    ⟨_, _, _, rfl, rfl, rfl, ?_, fun _ => poisonS_clean ⟨rfl, rfl⟩ _, ?_, rfl, ?_, ?_⟩, ⟨_, _, _, rfl, rfl, rfl, ?_, fun _ => poisonS_clean ⟨rfl, rfl⟩ _, ?_, rfl, ?_, ?_⟩,
    _, _, _, rfl, rfl, rfl, ?_, fun _ => poisonS_clean ⟨rfl, rfl⟩ _, ?_, rfl, ?_, ?_⟩
  all_goals first
    | decide +kernel
    | (unfold arrivalAllowed phaseDone; decide +kernel)
    | (unfold arrivalAllowed; decide +kernel)

theorem witness_BlockPoints : (∃ (s : State) (t : Team) (r : Run) (n : Nat) (b : Block) (l : Launch), Placed s t n b l ∧ t.run = some r ∧ Clean t ∧
      t.mute = false ∧ l.cores = true ∧ b.regrouped = false ∧ t.depth = 0 ∧ s.deterministic t = false ∧ gridOpen s l) ∧
    (∃ (s : State) (t : Team) (r : Run) (n : Nat) (b : Block) (l : Launch), Placed s t n b l ∧ t.run = some r ∧ Clean t ∧ t.mute = false ∧
      l.cores = false ∧ b.regrouped = true ∧ t.depth ≠ 0) ∧
    (∃ (s : State) (t : Team) (r : Run) (n : Nat) (b : Block) (l : Launch), Placed s t n b l ∧ t.run = some r ∧ Clean t ∧ b.regrouped = false ∧
      t.stack = [] ∧ packetAt r (3#18).toInt 36 ∧ t.lanes ≤ 1024 ∧
      ∀ j ∈ lanesOf t.k0 t.lanes, (t.readV s.tick (8 * (1#4).toNat + 6) j).toNat < 4) ∧
    ∃ (s : State) (t : Team) (r : Run) (n : Nat) (b : Block) (l : Launch), Placed s t n b l ∧ t.run = some r ∧ Clean t ∧
      (dictOf s t).length = 2 ∧ windowBreaks (vectorLows ((dictOf s t).getD 1 0 % 2147483648)) 1 ((dictOf s t).getD 1 0 % 2147483648) = false :=
  ⟨⟨((issuing 0x02800000).modHome fun h => { h with mem := Sparse.set 0#8 h.mem 0x100C 1 }).modLaunch 0 fun l => { l with cores := true, nblocks := 3 }, _, _, 0, _, _, ⟨rfl, rfl, rfl, rfl⟩, rfl, ⟨rfl, rfl⟩,
      by decide +kernel, rfl, by decide +kernel, by decide +kernel, by decide +kernel, by unfold gridOpen; decide +kernel⟩,
    ⟨(issuingWith (fun t => { t with depth := 1 }) 0x02800000).modBlock 0 fun b => { b with regrouped := true }, _, _, 0, _, _, ⟨rfl, rfl, rfl, rfl⟩, rfl,
      ⟨rfl, rfl⟩, by decide +kernel, by decide +kernel, by decide +kernel, by decide +kernel⟩,
    ⟨issuing 0x38380003, _, _, 0, _, _, ⟨rfl, rfl, rfl, rfl⟩, rfl, ⟨rfl, rfl⟩, by decide +kernel, by decide +kernel, by unfold packetAt; decide +kernel,
      by decide +kernel, by decide +kernel⟩,
    issuing 0x7E000001, _, _, 0, _, _, ⟨rfl, rfl, rfl, rfl⟩, rfl, ⟨rfl, rfl⟩, by decide +kernel, by decide +kernel⟩

/-- A dictionary of two entries, the second naming `v112`. -/
def dictionary : State := (issuing 0x7E000001).modBlock 0 fun b => { b with dict := [0x100C0820, 0x11C00820] }

theorem witness_BlockPointsTrap (regrouped ends full : Bool) : (∃ (s : State) (t : Team) (r : Run) (n : Nat) (b : Block) (l : Launch),
      Placed s t n b l ∧ t.run = some r ∧ Clean t ∧ b.regrouped = regrouped ∧ t.ends = ends ∧ (t.stack = [] ↔ full = false) ∧
      packetAt r (3#18).toInt 36) ∧
    ∃ (s : State) (t : Team) (r : Run) (n : Nat) (b : Block) (l : Launch), Placed s t n b l ∧ t.run = some r ∧ Clean t ∧
      (dictOf s t).length = 2 ∧ windowBreaks (vectorLows ((dictOf s t).getD 1 0 % 2147483648)) 1 ((dictOf s t).getD 1 0 % 2147483648) = true ∧
      windowBreaks (vectorLows ((dictOf s t).getD 0 0 % 2147483648)) 3 ((dictOf s t).getD 0 0 % 2147483648) = false ∧
      (dictOf s t)[1]? = some 0x11C00820 ∧ (dictOf s t)[2]? = none := by
  refine ⟨⟨(issuingWith (fun t => { t with ends := ends, stack := if full then (stacked .ifArm t).stack else [] }) 0x38380003).modBlock 0 fun b =>
      { b with regrouped := regrouped }, _, _, 0, _, _, ⟨rfl, rfl, rfl, rfl⟩, rfl, ⟨rfl, rfl⟩, rfl, rfl, ?_, ?_⟩,
    dictionary, _, _, 0, _, _, ⟨rfl, rfl, rfl, rfl⟩, rfl, ⟨rfl, rfl⟩, by and_intros <;> decide +kernel⟩
  · cases full <;> cases ends <;> decide +kernel
  · unfold packetAt; decide +kernel

/-- Tile 4 as `x`, and `s8` to `s11` a descriptor of a 32 by 32 FP32 tile with its pitch. -/
def withTile (x : Tile) (pitch : Word) : State :=
  (issuingWith (fun t => { t with regs := { t.regs with s := [(8, 0x80#32), (9, 0x00200020#32), (10, 0#32), (11, pitch)] } }) 0x56202000).modBlock 0 fun b =>
    b.setTile 4 x

/-- A team able to act on tile 4. -/
def TileCase (x : Tile) (pitch : Word) (p : Team → Block → Prop) : Prop :=
  ∃ (t : Team) (r : Run) (b : Block), (withTile x pitch).team (withTile x pitch).cur = some t ∧ t.run = some r ∧ (withTile x pitch).block t.block = some b ∧
    t.mute = false ∧ (∀ n, t.poisonS n = false) ∧ t.ops = [] ∧ b.tile 4 = x ∧ p t b

/-- The descriptor that `s8` to `s11` hold. -/
def newTile (s : State) (t : Team) : Tile :=
  ⟨t.readS s.tick 8, t.readS s.tick 9, t.readS s.tick 10, t.readS s.tick 11, false, true, 0#2⟩

theorem witness_TileActions :
    TileCase ⟨0, 0, 0, 0, false, false, 0⟩ 128 (fun t b => descriptorGood (withTile ⟨0, 0, 0, 0, false, false, 0⟩ 128) b
      (newTile (withTile ⟨0, 0, 0, 0, false, false, 0⟩ 128) t)) ∧
    TileCase ⟨0, 0, 0, 0, false, false, 0⟩ 124 (fun t b => ¬ descriptorGood (withTile ⟨0, 0, 0, 0, false, false, 0⟩ 124) b
      (newTile (withTile ⟨0, 0, 0, 0, false, false, 0⟩ 124) t)) ∧
    TileCase ⟨0, 0, 0, 0, false, true, 0⟩ 0 (fun _ _ => True) ∧ TileCase ⟨0, 0, 0, 0, false, true, 1⟩ 0 (fun _ _ => True) ∧
    TileCase ⟨0, 0, 0, 0, false, true, 2⟩ 0 (fun _ _ => True) ∧ TileCase ⟨0, 0, 0, 0, true, true, 1⟩ 0 (fun _ _ => True) := by
  refine ⟨⟨_, _, _, rfl, rfl, rfl, ?_, fun _ => poisonS_clean ⟨rfl, rfl⟩ _, rfl, ?_, ?_⟩, ⟨_, _, _, rfl, rfl, rfl, ?_, fun _ => poisonS_clean ⟨rfl, rfl⟩ _, rfl, ?_, ?_⟩,
    ⟨_, _, _, rfl, rfl, rfl, ?_, fun _ => poisonS_clean ⟨rfl, rfl⟩ _, rfl, ?_, trivial⟩, ⟨_, _, _, rfl, rfl, rfl, ?_, fun _ => poisonS_clean ⟨rfl, rfl⟩ _, rfl, ?_, trivial⟩,
    ⟨_, _, _, rfl, rfl, rfl, ?_, fun _ => poisonS_clean ⟨rfl, rfl⟩ _, rfl, ?_, trivial⟩, _, _, _, rfl, rfl, rfl, ?_, fun _ => poisonS_clean ⟨rfl, rfl⟩ _, rfl, ?_, trivial⟩
  all_goals first
    | decide +kernel
    | (unfold descriptorGood; decide +kernel)

/-- Tile 4 ready, `s12:s13` naming it or holding a handle, and a hold slot taken. -/
def handing (m : BitVec 64) (holds : Table HoldSlot) : State :=
  ((issuingWith (fun t => { t with regs := { t.regs with s := [(12, m.setWidth 32), (13, (m >>> 32).setWidth 32)] } }) 0x56053000).modBlock 0 fun b =>
    b.setTile 4 ⟨0x80, 0x00200020, 0, 128, false, true, 2⟩).modCore 0 fun c => { c with holds := holds }

/-- A hold slot that names a tile 5. -/
def heldTile : HoldSlot :=
  { serial := 7, extent := 6144, tiles := [(5, [0x80, 0x00200020, 0, 128])], base := 0, block := 0, launch := 0, exitAt := none }

theorem witness_TileHandles : (∃ (t : Team) (r : Run) (b : Block), (handing 16 [(0, heldTile)]).team (handing 16 [(0, heldTile)]).cur = some t ∧ t.run = some r ∧
      (handing 16 [(0, heldTile)]).block t.block = some b ∧ t.mute = false ∧ (∀ x, t.poisonS x = false) ∧ t.ops = [] ∧
      (t.readPair (handing 16 [(0, heldTile)]).tick 12) = 16#64 ∧ (b.tile 4).valid = true ∧ (b.tile 4).state = 2#2 ∧ (b.tile 4).eng = false ∧
      (b.tile 4).d0.toNat < 0x4000000 ∧
      (List.range 16).find? (fun i => (((handing 16 [(0, heldTile)]).core 0).holds.find i).isNone) = some 1) ∧
    ∃ (t : Team) (r : Run) (b : Block) (m : BitVec 64), (handing m [(3, heldTile)]).team (handing m [(3, heldTile)]).cur = some t ∧ t.run = some r ∧
      (handing m [(3, heldTile)]).block t.block = some b ∧ t.mute = false ∧ (∀ x, t.poisonS x = false) ∧ t.ops = [] ∧
      (t.readPair (handing m [(3, heldTile)]).tick 12).toNat = handleBits 0 3 heldTile.serial ∧ heldTile.serial < 2 ^ 48 ∧
      ((handing m [(3, heldTile)]).core 0).holds.find 3 = some heldTile ∧ (∀ x ∈ heldTile.tiles, (b.tile x.1).valid = true → (b.tile x.1).state = 0#2) ∧
      (heldTile.tiles.map (·.1)).Nodup :=
  ⟨⟨_, _, _, rfl, rfl, rfl, by decide +kernel, fun _ => poisonS_clean ⟨rfl, rfl⟩ _, rfl, by and_intros <;> decide +kernel⟩,
    _, _, _, BitVec.ofNat 64 (2 ^ 62 + 3 * 2 ^ 48 + 7), rfl, rfl, rfl, by decide +kernel, fun _ => poisonS_clean ⟨rfl, rfl⟩ _, rfl, by and_intros <;> decide +kernel⟩

/-! ### Hypotheses met: engine commands -/

/-- A team with some scalar registers, tile 3 of 32 by 32 FP32 in a state and everything mapped. -/
def asking (regs : List (Nat × Word)) (st : BitVec 2) : State :=
  (mapped (issuingWith (fun t => { t with regs := { t.regs with s := regs } }) 0)).modBlock 0 fun b =>
    b.setTile 3 ⟨0x1000, 0x00200020, 0, 128, false, true, st⟩

/-- What `CopyCommands` supposes of one command. -/
def CopyCase (s : State) (i : Instr) : Prop :=
  ∃ (t : Team) (r : Run) (b : Block) (a : CopyAsk), MayIssue s t r b 0 ∧ copyAsk s t b i 0 a ∧
    (let rd := spanOf (s.setTeam s.cur (advancing t r)) t .load a.reads
     let wr := spanOf rd.1 t .store a.writes
     (∀ x ∈ rd.2 ++ wr.2, x.1 + x.2 ≤ hbmTop) ∧ (a.reduce ∈ [1, 3, 6, 7] → ∀ g ∈ regionsOf wr.2, regionOpen wr.1 g = false) ∧
     a.ranges.length + rd.2.length + wr.2.length ≤ ((List.range 64).filter fun e => ((s.core (coreOfTeam s.cur)).locks.find e).isNone).length)

theorem witness_CopyCommands :
    CopyCase (asking [(10, 0x20000#32), (14, 128#32)] 0) (.cpyG2t 0 3 10 14 0) ∧
    CopyCase (asking [(10, 0x20000#32), (14, 128#32)] 2) (.cpyT2g 0 10 3 14 0) ∧
    CopyCase (asking [(10, 0x2000#32), (12, 0x3000#32), (14, 256#32)] 0) (.cpyL2l 0 10 12 14 0) ∧
    CopyCase (asking [(10, 0x20000#32), (12, 0x30000#32), (14, 256#32)] 0) (.cpyG2g 0 10 12 14 0) ∧
    CopyCase (asking [(10, 0x2000#32), (12, 0x30000#32), (14, 256#32)] 0) (.cpyG2l 0 10 12 14 0) ∧
    CopyCase (asking [(10, 0x20000#32), (12, 0x3000#32), (14, 256#32)] 0) (.cpyL2g 0 10 12 14 0) ∧
    CopyCase (asking [(10, 0x20000#32), (14, 0x8000#32)] 0) (.gather 0 3 10 14 0) := by
  refine ⟨⟨_, _, _, _, ⟨rfl, rfl, rfl, ?_, fun _ => poisonS_clean ⟨rfl, rfl⟩ _, ?_, ?_, ?_⟩, ⟨rfl, ?_, ?_, ?_, ?_, ?_, 0, 0x1000, ?_, rfl⟩, ?_⟩,
    ⟨_, _, _, _, ⟨rfl, rfl, rfl, ?_, fun _ => poisonS_clean ⟨rfl, rfl⟩ _, ?_, ?_, ?_⟩, ⟨rfl, ?_, ?_, ?_, ?_, ?_, ?_, ?_, 0, 0x1000, ?_, rfl⟩, ?_⟩,
    ⟨_, _, _, _, ⟨rfl, rfl, rfl, ?_, fun _ => poisonS_clean ⟨rfl, rfl⟩ _, ?_, ?_, ?_⟩, ⟨rfl, ?_, ?_, ?_, ?_, 0, 0x2000, 0, 0x3000, ?_, ?_, rfl⟩, ?_⟩,
    ⟨_, _, _, _, ⟨rfl, rfl, rfl, ?_, fun _ => poisonS_clean ⟨rfl, rfl⟩ _, ?_, ?_, ?_⟩, ⟨rfl, ?_, ?_, ?_, ?_, ?_, ?_, ?_, rfl⟩, ?_⟩,
    ⟨_, _, _, _, ⟨rfl, rfl, rfl, ?_, fun _ => poisonS_clean ⟨rfl, rfl⟩ _, ?_, ?_, ?_⟩, ⟨rfl, ?_, ?_, ?_, ?_, ?_, 0, 0x2000, ?_, rfl⟩, ?_⟩,
    ⟨_, _, _, _, ⟨rfl, rfl, rfl, ?_, fun _ => poisonS_clean ⟨rfl, rfl⟩ _, ?_, ?_, ?_⟩, ⟨rfl, ?_, ?_, ?_, ?_, ?_, ?_, 0, 0x3000, ?_, rfl⟩, ?_⟩,
    ⟨_, _, _, _, ⟨rfl, rfl, rfl, ?_, fun _ => poisonS_clean ⟨rfl, rfl⟩ _, ?_, ?_, ?_⟩, ⟨rfl, ?_, ?_, ?_, ?_, ?_, ?_, 0, 0x1000, 0, 0x8000, ?_, ?_, rfl⟩, ?_⟩⟩
  all_goals first
    | decide +kernel
    | (unfold scopeGood; decide +kernel)
    | (unfold reduces; decide +kernel)


theorem witness_CopyChecks : ∃ (s : State) (t : Team) (r : Run) (b : Block), MayIssue s t r b 0 ∧
    ¬ ((b.tile 3).valid = true ∧ (b.tile 3).state = 0#2 ∧ (b.tile 3).eng = false) ∧
    ¬ ((b.tile 3).valid = true ∧ (b.tile 3).state = 2#2 ∧ (b.tile 3).eng = false) ∧
    ((t.readS s.tick 10).toNat % 128 ≠ 0) ∧ ¬ scopeGood (t.readS s.tick 16).toNat ∧
    (t.readS s.tick 14).toNat % 128 = 0 ∧ (t.readS s.tick 14).toNat / 128 ≠ 0 ∧ (t.readS s.tick 12).toNat % 128 = 0 :=
  ⟨asking [(10, 0x2001#32), (12, 0x3000#32), (14, 128#32), (16, 0xF0#32)] 1, _, _, _,
    ⟨rfl, rfl, rfl, by decide +kernel, fun _ => poisonS_clean ⟨rfl, rfl⟩ _, by decide +kernel, by decide +kernel, by decide +kernel⟩,
    by decide +kernel, by decide +kernel, by decide +kernel, by unfold scopeGood; decide +kernel, by decide +kernel, by decide +kernel, by decide +kernel⟩

/-- Where no log holds an entry nothing is folded. -/
theorem syncDevice_idle (s : State) (h : ∀ kc ∈ s.cores, kc.2.log = []) : syncDevice s = s := by
  have go : ∀ l : Table Core, (∀ kc ∈ l, kc.2.log = []) → l.foldl (fun s kc => if kc.2.log.isEmpty then s
      else foldSome s kc.1 (fun e => decide (3 ≤ (kc.2.segOf e).scope))) s = s := by
    intro l
    induction l with
    | nil => intro _; rfl
    | cons a l ih =>
      intro h
      rw [List.foldl_cons, h a (List.mem_cons_self ..)]
      exact ih fun kc hk => h kc (List.mem_cons_of_mem _ hk)
  exact go _ h

/-- `asking` with a key entry at 0x8000 for a window of device 1, and a route to that device. -/
def keyed (regs : List (Nat × Word)) : State :=
  let s := (asking regs 0).modContext 0 fun x => { x with fktbase := 0x8000 }
  let s := s.modHub fun h => { h with routes := [(1, ⟨2, []⟩)] }
  s.modHome fun h => { h with mem := Sparse.set 0#8 (Sparse.set 0#8 (Sparse.set 0#8 h.mem 0x8000 1) 0x8003 0x8F) 0x800A 16 }

/-- What `FabricCommands` supposes of a command that is permitted. -/
def FabricCase (s : State) (i : Instr) : Prop :=
  ∃ (t : Team) (r : Run) (b : Block) (a : FabricAsk) (e : List Byte), MayIssue s t r b 0 ∧ fabricAsk s t r b i 0 a ∧
    (let s0 := s.setTeam s.cur (advancing t r)
     let rd := spanOf s0 t .load a.reads
     let wr := spanOf rd.1 t .store a.writes
     syncDevice s0 = s0 ∧ KeyHolds s t a.kix a.perms (a.offset + a.bytes) e ∧ (∀ x ∈ rd.2 ++ wr.2, x.1 + x.2 ≤ hbmTop) ∧
     a.ranges.length + rd.2.length + wr.2.length ≤ ((List.range 64).filter fun e => ((s.core (coreOfTeam s.cur)).locks.find e).isNone).length ∧
     PortRoom wr.1 (numberOf (e.take 2)))

theorem witness_FabricCommands :
    FabricCase (keyed [(10, 0x100#32), (12, 0x2000#32), (13, 0x80000000#32), (14, 128#32)]) (.put 0 10 12 14 0) ∧
    FabricCase (keyed [(10, 0x100#32), (12, 0x20000#32), (14, 160#32), (15, 5#32)]) (.puts 0 10 12 14 0) ∧
    FabricCase (keyed [(10, 0x20000#32), (12, 0x100#32), (14, 132#32)]) (.get 0 10 12 14 0) ∧
    FabricCase (keyed [(12, 5#32)]) (.rsig 0 10 12 14 0) := by
  refine ⟨⟨_, _, _, _, _, ⟨rfl, rfl, rfl, ?_, fun _ => poisonS_clean ⟨rfl, rfl⟩ _, ?_, ?_, ?_⟩,
      ⟨rfl, ?_, ?_, ?_, ?_, ?_, .scratch 0 0x2000, [(false, 0, 0x2000, 128)], [], ?_, rfl⟩, ?_, ⟨?_, rfl, ?_, ?_, ?_⟩, ?_, ?_, ?_⟩,
    ⟨_, _, _, _, _, ⟨rfl, rfl, rfl, ?_, fun _ => poisonS_clean ⟨rfl, rfl⟩ _, ?_, ?_, ?_⟩,
      ⟨?_, ?_, rfl, ?_, ?_, ?_, ?_, ?_, .global 0x20000, [], [(0x20000, 128)], ?_, rfl⟩, ?_, ⟨?_, rfl, ?_, ?_, ?_⟩, ?_, ?_, ?_⟩,
    ⟨_, _, _, _, _, ⟨rfl, rfl, rfl, ?_, fun _ => poisonS_clean ⟨rfl, rfl⟩ _, ?_, ?_, ?_⟩,
      ⟨rfl, ?_, ?_, ?_, ?_, ?_, .global 0x20000, [], [(0x20000, 128)], ?_, rfl⟩, ?_, ⟨?_, rfl, ?_, ?_, ?_⟩, ?_, ?_, ?_⟩,
    ⟨_, _, _, _, _, ⟨rfl, rfl, rfl, ?_, fun _ => poisonS_clean ⟨rfl, rfl⟩ _, ?_, ?_, ?_⟩,
      ⟨rfl, ?_, ?_, ?_, ?_, rfl⟩, ?_, ⟨?_, rfl, ?_, ?_, ?_⟩, ?_, ?_, ?_⟩⟩
  all_goals first
    | decide +kernel
    | exact syncDevice_idle _ (by decide +kernel)
    | (unfold PortRoom; intro p h; cases h; decide +kernel)
    | (unfold bufferOf; exact ⟨by decide +kernel, by decide +kernel, 0, 0x2000, by decide +kernel, rfl, rfl, rfl⟩)
    | (unfold bufferOf; exact ⟨by decide +kernel, by decide +kernel, rfl, rfl, rfl⟩)

/-- `keyed` with a descriptor of one element at 0x2000 and its payload at 0x3000. -/
def sending : State :=
  (keyed [(10, 0x2000#32), (12, 0x3000#32), (14, 7#32)]).modCore 0 fun c => { c with scratch := [(0x2008, 1#8), (0x200A, 1#8), (0x3000, 9#8)] }

theorem witness_CollectiveSend : ∃ (s : State) (t : Team) (r : Run) (b : Block) (dq pq : Nat × Nat) (d e body : List Byte), MayIssue s t r b 0 ∧
    (let s0 := s.setTeam s.cur (advancing t r)
     let f := fieldAt d
     let len := f 8 2 * [4, 2, 2, 4, 0, 4, 8].getD (f 6 1) 0
     (t.readS s.tick 14).toNat < 65536 ∧ (t.readS s.tick 10).toNat % 64 = 0 ∧ (t.readS s.tick 12).toNat % 4 = 0 ∧
     localRange s b (t.readS s.tick 10).toNat 64 = some dq ∧ scratchBytes s dq.1 dq.2 64 = (d, false) ∧ f 6 1 ≠ 4 ∧ descriptorOk d = true ∧
     nelemOk d len = true ∧ localRange s b (t.readS s.tick 12).toNat len = some pq ∧ scratchBytes s pq.1 pq.2 len = (body, false) ∧
     syncDevice s0 = s0 ∧ KeyHolds s t (f 11 1) 8#8 0 e ∧
     2 ≤ ((List.range 64).filter fun e => ((s.core (coreOfTeam s.cur)).locks.find e).isNone).length ∧
     storeUsed s (f 16 2 / 256 % 16) + 4224 ≤ 4194304) := by
  refine ⟨sending, _, _, _, (0, 0x2000), (0, 0x3000), (scratchBytes sending 0 0x2000 64).1, _, (scratchBytes sending 0 0x3000 4).1,
    ⟨rfl, rfl, rfl, ?_, fun _ => poisonS_clean ⟨rfl, rfl⟩ _, ?_, ?_, ?_⟩, ?_, ?_, ?_, ?_, ?_, ?_, ?_, ?_, ?_, ?_, ?_, ⟨?_, rfl, ?_, ?_, ?_⟩, ?_, ?_⟩
  all_goals first
    | decide +kernel
    | exact syncDevice_idle _ (by decide +kernel)

/-- `asking` for a launch of a graph of two nodes at 0x9000, node 0 with node 1 for successor, and spawned-launch fields at 0x2000. -/
def spawning (regs : List (Nat × Word)) : State :=
  let s := (asking regs 0).modHub fun h => { h with images := h.images.put 2 { kind := 2, dpa := 0x9000, size := 4096, ctx := 0, datava := 0 } }
  let s := s.modLaunch 0 fun l => { l with graph := 2 }
  s.modHome fun h => { h with mem := Sparse.set 0#8 (Sparse.set 0#8 (Sparse.set 0#8 h.mem 0x9004 2) 0x9054 1) 0x90C0 1 }

theorem witness_WalkerCommands :
    (∃ (s : State) (t : Team) (r : Run) (b : Block) (l : Launch) (p : Nat × Nat) (bs : List Byte), MayIssue s t r b 0 ∧ s.launch b.launch = some l ∧
      (t.readS s.tick 12).toNat < graphSize s t ∧ (t.readS s.tick 14).toNat ≠ 0 ∧ (t.readS s.tick 10).toNat % 32 = 0 ∧
      localRange s b (t.readS s.tick 10).toNat 32 = some p ∧ scratchBytes s p.1 p.2 32 = (bs, false) ∧ fieldAt bs 8 8 % 64 = 0 ∧
      fieldAt bs 24 8 = 0 ∧ fieldAt bs 16 8 = 0 ∧
      (s.queue (nodeQueue s (graphOf s t) 1 (nodeField s (graphOf s t) 1 0 4))).size ≤
        queueTaken s (nodeQueue s (graphOf s t) 1 (nodeField s (graphOf s t) 1 0 4))) ∧
    (∃ (s : State) (t : Team) (r : Run) (b : Block) (l : Launch), MayIssue s t r b 0 ∧ s.launch b.launch = some l ∧
      (t.readS s.tick 12).toNat < graphSize s t ∧ (t.readPair s.tick 10).toNat / 2 ^ 62 = 2 ∧
      (nodeSuccs s (graphOf s t) l.node).contains (t.readS s.tick 12).toNat = true) ∧
    ∃ (s : State) (t : Team), s.team s.cur = some t ∧ queueTaken s (nodeQueue s (graphOf s t) 1 (nodeField s (graphOf s t) 1 0 4)) <
      (s.queue (nodeQueue s (graphOf s t) 1 (nodeField s (graphOf s t) 1 0 4))).size := by
  refine ⟨⟨(spawning [(10, 0x2000#32), (12, 1#32), (14, 4#32)]).modHub fun h => { h with queues := h.queues.put 0 { (spawning []).queue 0 with size := 0 } }, _, _, _, _, (0, 0x2000), (scratchBytes (asking [] 0) 0 0x2000 32).1,
      ⟨rfl, rfl, rfl, ?_, fun _ => poisonS_clean ⟨rfl, rfl⟩ _, ?_, ?_, ?_⟩, rfl, ?_, ?_, ?_, ?_, ?_, ?_, ?_, ?_, ?_⟩,
    ⟨spawning [(11, 0x80000000#32), (12, 1#32)], _, _, _, _, ⟨rfl, rfl, rfl, ?_, fun _ => poisonS_clean ⟨rfl, rfl⟩ _, ?_, ?_, ?_⟩, rfl, ?_, ?_, ?_⟩,
    ⟨spawning [], _, rfl, ?_⟩⟩
  all_goals decide +kernel

/-! ### Hypotheses met: the matrix engine -/

/-- A reservation of block 0, not granted. -/
def aReservation : Reservation :=
  { word := 0x56C00000, core := 0, block := 0, team := 0, number := 0, cls := 0, issued := 0, tick := 0, order := 3, cid := 7, flag := none, depth := 0, op := none
    opA := 0, opB := 8, handle := 0, mask := 0, desc := [], data := [], vd := 0, promoted := false, granted := false, pc := 0x1100, mode := .u, seen := [] }

/-- 512 accumulator rows for the block, tile 3 a ready BF16 tile of 128 by 128, some scalar registers. -/
def computing (regs : List (Nat × Word)) : State :=
  ((issuingWith (fun t => { t with regs := { t.regs with s := regs } }) 0).modBlock 0 fun b =>
    { b.setTile 3 ⟨0x1000, 0x00800080, 1, 256, false, true, 2⟩ with accRows := 512 })

/-- What `MatrixReservations` supposes of one instruction. -/
def EngineCase (i : Instr) : Prop :=
  let s := computing [(10, 0x21#32)]
  ∃ (t : Team) (r : Run) (b : Block) (a : EngineAsk), s.team s.cur = some t ∧ t.run = some r ∧ s.block t.block = some b ∧ t.mute = false ∧
    Clean t ∧ engineAsk s t b i a ∧ t.flagFull a.classA = false ∧ lowestFree s (ownCluster s) 0

theorem witness_MatrixReservations : EngineCase (.mldwTile 0 3 0) ∧ EngineCase (.mldwHandle 0 10 1) ∧ EngineCase (.mma 0 3 0 12 0 1) ∧
    EngineCase (.mz 0 12 10) ∧ EngineCase (.accrd 0 8 12 14) ∧ EngineCase (.accrdF 0 8 12 14) ∧ EngineCase (.accwr 0 8 12 14) ∧
    EngineCase (.accwrF 0 8 12 14) ∧ ∃ (s : State), ∀ e, e < 16 → (s.cluster 0).table.find e ≠ none := by
  refine ⟨⟨_, _, _, _, rfl, rfl, rfl, ?_, ⟨rfl, rfl⟩, ⟨?_, ?_, rfl⟩, ?_, ?_⟩, ⟨_, _, _, _, rfl, rfl, rfl, ?_, ⟨rfl, rfl⟩, ⟨?_, ?_, ?_, ?_, ?_, rfl⟩, ?_, ?_⟩,
    ⟨_, _, _, _, rfl, rfl, rfl, ?_, ⟨rfl, rfl⟩, ⟨?_, ?_, ?_, ?_, rfl⟩, ?_, ?_⟩, ⟨_, _, _, _, rfl, rfl, rfl, ?_, ⟨rfl, rfl⟩, ⟨?_, ?_, rfl⟩, ?_, ?_⟩,
    ⟨_, _, _, _, rfl, rfl, rfl, ?_, ⟨rfl, rfl⟩, ⟨?_, rfl⟩, ?_, ?_⟩, ⟨_, _, _, _, rfl, rfl, rfl, ?_, ⟨rfl, rfl⟩, ⟨?_, rfl⟩, ?_, ?_⟩,
    ⟨_, _, _, _, rfl, rfl, rfl, ?_, ⟨rfl, rfl⟩, ⟨?_, rfl⟩, ?_, ?_⟩, ⟨_, _, _, _, rfl, rfl, rfl, ?_, ⟨rfl, rfl⟩, ⟨?_, rfl⟩, ?_, ?_⟩,
    (computing []).modCluster 0 fun c => { c with table := (List.range 16).map fun e => (e, aReservation) }, ?_⟩
  all_goals first
    | decide +kernel
    | (unfold multiplies; decide +kernel)
    | (unfold lowestFree; decide +kernel)

/-- One byte of a list made by a function. -/
theorem fieldAt_byte (g : Nat → Byte) (n j : Nat) (h : j < n) : fieldAt ((List.range n).map g) j 1 = (g j).toNat := by
  have hl : j < ((List.range n).map g).length := by simpa using h
  simp [fieldAt, bytesAt, leNat, List.drop_eq_getElem_cons hl, zeroBytes]

/-- An area at 0x2000 with MAGIC and nothing saved, one ungranted reservation or none, and both slots empty or full. -/
def restoring (own : Bool) (w : Table Weights) (magic : List (Nat × Byte)) : State :=
  ((computing [(10, 0x2000#32), (12, 0x2001#32)]).modCore 0 fun c => { c with scratch := magic }).modCluster 0 fun c =>
    { c with table := if own then [(0, aReservation)] else [], slots := w }

/-- A byte of the scratchpad. -/
theorem fieldAt_scratch (s : State) (c o n j : Nat) (h : j < n) :
    fieldAt (scratchBytes s c o n).1 j 1 = (Sparse.get 0#8 (s.core c).scratch (o + j)).toNat := fieldAt_byte _ _ _ h

/-- A byte of an area with MAGIC. -/
theorem goodArea_byte (j : Nat) (h : j < 68672) :
    fieldAt (scratchBytes (restoring false [] [(0x2000, 1), (0x2002, 0x45), (0x2003, 0x4D)]) 0 0x2000 68672).1 j 1 =
      (Sparse.get 0#8 [(0x2000, 1#8), (0x2002, 0x45#8), (0x2003, 0x4D#8)] (0x2000 + j)).toNat := by
  rw [fieldAt_scratch _ _ _ _ _ h]
  have : ((restoring false [] [(0x2000, 1), (0x2002, 0x45), (0x2003, 0x4D)]).core 0).scratch =
      [(0x2000, 1#8), (0x2002, 0x45#8), (0x2003, 0x4D#8)] := by decide +kernel
  rw [this]

theorem witness_EngineState :
    (∃ (s : State) (t : Team) (r : Run) (b : Block) (p : Nat × Nat), s.team s.cur = some t ∧ t.run = some r ∧ s.block t.block = some b ∧
      t.mute = false ∧ (∀ x, t.poisonS x = false) ∧ t.flagFull false = false ∧ reserved s (ownCluster s) t.block = [] ∧
      (s.cluster (ownCluster s)).slots.find (2 * t.block) = none ∧ (s.cluster (ownCluster s)).slots.find (2 * t.block + 1) = none ∧
      (t.readS s.tick 12).toNat % 128 ≠ 0 ∧ (t.readS s.tick 10).toNat % 128 = 0 ∧ localRange s b (t.readS s.tick 10).toNat 68672 = some p ∧
      let bytes := (scratchBytes s p.1 p.2 68672).1
      fieldAt bytes 0 4 = 0x4D450001 ∧ fieldAt bytes 4 1 < 4 ∧
      (∀ j, 5 ≤ j → j < 64 → fieldAt bytes j 1 = if j = 6 ∧ fieldAt bytes 4 1 % 2 = 1 ∨ j = 7 ∧ 2 ≤ fieldAt bytes 4 1 then 1 else 0) ∧
      (∀ j, 67648 ≤ j → j < 68672 → fieldAt bytes j 1 = 0) ∧ (s.cluster (ownCluster s)).table.length ≤ 16 ∧ lowestFree s (ownCluster s) 0) ∧
    (∃ (s : State) (t : Team) (r : Run) (b : Block) (p : Nat × Nat), s.team s.cur = some t ∧ t.run = some r ∧ s.block t.block = some b ∧
      t.mute = false ∧ (∀ x, t.poisonS x = false) ∧ t.flagFull false = false ∧ reserved s (ownCluster s) t.block = [] ∧
      (s.cluster (ownCluster s)).slots.find (2 * t.block) = none ∧ (s.cluster (ownCluster s)).slots.find (2 * t.block + 1) = none ∧
      (t.readS s.tick 10).toNat % 128 = 0 ∧ localRange s b (t.readS s.tick 10).toNat 68672 = some p ∧
      fieldAt (scratchBytes s p.1 p.2 68672).1 0 4 ≠ 0x4D450001 ∧ lowestFree s (ownCluster s) 0) ∧
    (∃ (s : State) (t : Team) (r : Run) (b : Block) (p : Nat × Nat), s.team s.cur = some t ∧ t.run = some r ∧ s.block t.block = some b ∧
      t.mute = false ∧ (∀ x, t.poisonS x = false) ∧ t.flagFull false = false ∧
      (t.readS s.tick 10).toNat % 128 = 0 ∧ localRange s b (t.readS s.tick 10).toNat 68672 = some p ∧
      let own := reserved s (ownCluster s) t.block
      own ≠ [] ∧ (∀ x ∈ own, x.2.granted = false ∧ x.2.kind.port = false) ∧ own.length ≤ 16 ∧ (own.map (·.2.order)).Nodup ∧ (own.map (·.1)).Nodup ∧
      (s.cluster (ownCluster s)).slots = [(0, ⟨1, [], false⟩), (1, ⟨2, [], false⟩)] ∧ lowestFree s (ownCluster s) 1) ∧
    ∃ (s : State) (t : Team) (r : Run) (b : Block) (p : Nat × Nat), s.team s.cur = some t ∧ t.run = some r ∧ s.block t.block = some b ∧
      t.mute = false ∧ (∀ x, t.poisonS x = false) ∧ t.flagFull false = false ∧ (t.readS s.tick 10).toNat % 128 = 0 ∧
      localRange s b (t.readS s.tick 10).toNat 68672 = some p ∧ (∀ e, e < 16 → (s.cluster (ownCluster s)).table.find e ≠ none) ∧
      reserved s (ownCluster s) t.block = [] ∧ (s.cluster (ownCluster s)).slots = [] := by
  refine ⟨⟨restoring false [] [(0x2000, 1), (0x2002, 0x45), (0x2003, 0x4D)], _, _, _, (0, 0x2000), rfl, rfl, rfl, ?_, fun _ => poisonS_clean ⟨rfl, rfl⟩ _, ?_, ?_, ?_, ?_, ?_, ?_, ?_, ?_, ?_, ?_, ?_, ?_, ?_⟩,
    ⟨restoring false [] [], _, _, _, (0, 0x2000), rfl, rfl, rfl, ?_, fun _ => poisonS_clean ⟨rfl, rfl⟩ _, ?_, ?_, ?_, ?_, ?_, ?_, ?_, ?_⟩,
    ⟨restoring true [(0, ⟨1, [], false⟩), (1, ⟨2, [], false⟩)] [], _, _, _, (0, 0x2000), rfl, rfl, rfl, ?_, fun _ => poisonS_clean ⟨rfl, rfl⟩ _, ?_, ?_, ?_, ?_, ?_, ?_, ?_, ?_, ?_, ?_⟩,
    ⟨(restoring false [] []).modCluster 0 fun c => { c with table := (List.range 16).map fun e => (e, { aReservation with block := 9 }) }, _, _, _, (0, 0x2000), rfl, rfl, rfl,
      ?_, fun _ => poisonS_clean ⟨rfl, rfl⟩ _, ?_, ?_, ?_, ?_, ?_, ?_⟩⟩
  case refine_11 =>
    intro j h5 h64
    dsimp only
    rw [goodArea_byte 4 (by decide), goodArea_byte j (by omega)]
    revert h5
    revert h64
    revert j
    decide +kernel
  case refine_12 =>
    intro j h h'
    dsimp only
    rw [goodArea_byte j (by omega)]
    have h0 : ∀ x, x > 0x2003 → Sparse.get (0#8) [(0x2000, 1#8), (0x2002, 0x45#8), (0x2003, 0x4D#8)] x = 0#8 := by
      intro x hx
      simp only [Sparse.get]; repeat' split
      all_goals first
        | rfl
        | omega
    rw [h0 (0x2000 + j) (by omega)]
    rfl
  all_goals first
    | decide +kernel
    | (unfold lowestFree; decide +kernel)

/-! ### Hypotheses met: what comes about between runs -/

/-- Team 0, between runs, changed. -/
def resting (f : Team → Team) : State :=
  ((State.reset.withFetchWord 32 0x02000000).modTeam 0 fun t => f { t with run := none }).modCore 0 fun c => { c with slotA := none }

/-- A second team of the block. -/
def withSecond (s : State) (f : Team → Team) : State := s.setTeam 1 (f ((s.team 0).getD (Team.fresh 0 0 1 0 0)))

theorem fetch_ok {e : Except FetchFail Fetched} (h : (match e with | .ok _ => true | .error _ => false) = true) : ∃ f, e = .ok f := by
  cases e with
  | ok f => exact ⟨f, rfl⟩
  | error f => cases h

theorem fetch_error {e : Except FetchFail Fetched} (h : (match e with | .ok _ => false | .error _ => true) = true) : ∃ f, e = .error f := by
  cases e with
  | ok f => cases h
  | error f => exact ⟨f, rfl⟩

/-- What `RunStart` supposes of the team that issue slot 0 of core 0 starts. -/
def StartCase (s : State) (p : Team → Prop) : Prop :=
  ∃ (t : Team) (b : Block), (s.core 0).slotA = none ∧ s.module.tripped = false ∧ syncDevice s = s ∧ (0, t) ∈ eligibleTeams s 0 ∧ s.team 0 = some t ∧
    t.yielded = [] ∧ (∀ x ∈ eligibleTeams s 0, x.2.yielded = [] → x ≠ (0, t) → Goes s (0, t) x) ∧ s.block t.block = some b ∧ b.firstAcq = none ∧
    s.deterministic t = false ∧ t.mode = .u ∧ p t

theorem witness_RunStart :
    (let s := withSecond (resting id) (fun t => { t with lastIssue := 5 })
     StartCase s (fun t => (¬ (t.depth = 0 ∧ Spent s t)) ∧ (∃ f, fetchRun s t = .ok f) ∧ (eligibleTeams s 0).length = 2)) ∧
    (let s := resting fun t => { t with pc := 24 }
     StartCase s (fun t => (¬ (t.depth = 0 ∧ Spent s t)) ∧ ∃ e, fetchRun s t = .error e)) ∧
    (let s := (resting id).modLaunch 0 fun l => { l with budget := 0 }
     StartCase s (fun t => t.depth = 0 ∧ Spent s t)) ∧ ∃ t, (resting id).team 0 = some t := by
  refine ⟨⟨_, _, ?_, ?_, syncDevice_idle _ (by decide +kernel), ?_, rfl, rfl, ?_, rfl, rfl, ?_, rfl, ?_, fetch_ok (by decide +kernel), ?_⟩,
    ⟨_, _, ?_, ?_, syncDevice_idle _ (by decide +kernel), ?_, rfl, rfl, ?_, rfl, rfl, ?_, rfl, ?_, fetch_error (by decide +kernel)⟩,
    ⟨_, _, ?_, ?_, syncDevice_idle _ (by decide +kernel), ?_, rfl, rfl, ?_, rfl, rfl, ?_, rfl, ?_, ⟨_, rfl, ?_⟩⟩, ⟨_, rfl⟩⟩
  all_goals first
    | decide +kernel
    | (intro x; unfold Goes; revert x; decide +kernel)
    | (intro ⟨_, l, h, hb⟩; cases h; revert hb; decide +kernel)

/-- An operation of team 0 with a known effect on `v3` and `s5`, counted on flag 2. -/
def anOp : Op :=
  { num := 0, classA := true, flag := some 2, depth := 0, vDest := [(3072, 7#32, false)], sDest := [(5, 9#32, false)], fflags := 1, dirty := []
    waits := false, till := none, index := 1, pc := 0, past := false, area := none }

/-- Lane 3 of a parked `LD v4, …` at 0x4000. -/
def aPark (w : Nat) : Parked :=
  { word := w, status := 0, slot := 0, flag := some 2, depth := 0, pc := 0, lclk := 0, index := 1, op := 0, pending := [(3, 0x4000, [])], faulted := []
    forRoom := false, framed := false, mode := .u, sectors := [], stamp := 0, mark := 0, again := false, turn := false }

/-- Team 0 with that access parked and the page now mapped. -/
def parking : State := mapped (resting fun t => { t with parked := [aPark 0x40104000], ops := [{ anOp with vDest := [], sDest := [], waits := true }] })

theorem witness_Completions :
    (∃ (s : State) (t : Team) (o : Op), s.team 0 = some t ∧ Idle t ∧ t.ops.find? (fun x => x.num == 0) = some o ∧ o.waits = false ∧ o.dirty = [] ∧
      o.past = false ∧ (∀ d ∈ o.vDest ++ o.sDest, d.2.2 = false) ∧ ((o.vDest.map (·.1)).Nodup ∧ (o.sDest.map (·.1)).Nodup) ∧
      t.regs.vPoison = [] ∧ t.regs.sPoison = [] ∧ o.vDest ≠ [] ∧ o.sDest ≠ []) ∧
    (∀ kt ∈ (resting id).teams, ∀ p ∈ kt.2.parked, ∀ x ∈ p.pending, x.2.1 / 65536 ≠ 0) ∧
    ∃ (s s1 : State) (pa attr : Nat) (sh : Bool) (t : Team) (p : Parked) (o : Op) (c : BitVec 1) (d : BitVec 7) (b : BitVec 6)
      (i : BitVec 7) (z : BitVec 2) (pol : BitVec 3), s.team 0 = some t ∧ t.due = [] ∧ t.rolling = [] ∧ t.opening = none ∧ t.parked = [p] ∧
      p.turn = false ∧ p.pending = [(3, 0x4000, [])] ∧ p.faulted = [] ∧ p.framed = false ∧ (s.teams.filter fun kt => kt.1 == 0 || !kt.2.parked.isEmpty) = [(0, t)] ∧
      decodeWord (p.word % 2 ^ 31) = .ok (.ldVector c d b i z pol) ∧ d.toNat < 112 ∧ t.ops = [o] ∧ o.num = p.op ∧ o.vDest = [] ∧ o.sDest = [] ∧
      o.dirty = [] ∧ t.regs.vPoison = [] ∧ t.regs.sPoison = [] ∧
      resolve s 0 t p.mode (Access.load (accessBytes z)) true 0x4000 = (s1, .go pa attr sh) ∧
      (readAt s1 (coreOfTeam 0) (s.ctxOf t) pa (accessBytes z) true).2 = false := by
  refine ⟨⟨resting fun t => { t with ops := [anOp] }, _, _, rfl, ⟨rfl, rfl, rfl, rfl⟩, rfl, rfl, rfl, rfl, ?_, ?_, rfl, rfl, ?_, ?_⟩, ?_,
    ⟨parking, _, _, _, _, _, _, _, _, _, _, _, _, _, rfl, rfl, rfl, rfl, rfl, rfl, rfl, rfl, rfl, ?_, rfl, ?_, rfl, rfl, rfl, rfl, rfl, rfl, rfl, rfl, ?_⟩⟩
  all_goals decide +kernel


/-- A trap owed by lane 3: an illegal operation. -/
def owedTrap : LaneTrap := ⟨8#1024, 5, 0#32, 0, 1, false, false, false, 0⟩

/-- A recovery region opened at 0. -/
def aRegion : Region :=
  { id := 1, mark := 0, restart := 0, k0 := BitVec.allOnes 1024, stack := [], s := [], sg := 5, ldclk := 2, rolled := false, leaked := false }

/-- Two teams of 1,024 lanes run in S: their banks fill the buffer. -/
def banksInUse (s : State) : State :=
  let big := fun (t : Team) => { t with words := 32, mode := .s, ops := [anOp] }
  ((withSecond s big).setTeam 2 (big ((s.team 0).getD (Team.fresh 0 0 1 0 0)))).modCore 0 fun c => { c with banks := [(1, false), (2, false)] }

theorem witness_TurnsBetweenRuns :
    let ready := fun (t : Team) => t.run = none ∧ t.wait = none ∧ t.ended = false ∧ t.ops = [] ∧ t.parked = [] ∧ t.opening = none ∧ t.gone = false
    (∀ full : Bool, ∃ (s : State) (t : Team), s.team 0 = some t ∧ ready t ∧ t.rolling = [] ∧ t.due ≠ [] ∧ bankWaits s 0 (entryMode t t.due) = full) ∧
    (∃ (s : State) (t : Team), s.team 0 = some t ∧ ready t ∧ t.due = []) ∧
    (∃ (s : State) (t : Team) (r : Region), s.team 0 = some t ∧ ready t ∧ t.rolling ≠ [] ∧ t.due = [] ∧ t.depth = 0 ∧ t.region = some r ∧
      r.leaked = false ∧ r.rolled = false) ∧
    ∃ (s : State) (t : Team), s.team 0 = some t ∧ ready t ∧ t.rolling ≠ [] ∧ t.due = [] ∧ t.region = none ∧
      bankWaits s 0 (entryMode t t.rolling) = false := by
  refine ⟨fun full => ?_, ⟨resting id, _, rfl, ?_, rfl⟩,
    ⟨resting fun t => { t with rolling := [owedTrap], region := some aRegion }, _, aRegion, rfl, ?_, nofun, rfl, rfl, rfl, rfl, rfl⟩,
    resting fun t => { t with rolling := [owedTrap] }, _, rfl, ?_, nofun, rfl, rfl, ?_⟩
  · cases full
    · exact ⟨resting fun t => { t with due := [owedTrap] }, _, rfl, by decide +kernel, rfl, nofun, by decide +kernel⟩
    · exact ⟨banksInUse (resting fun t => { t with due := [owedTrap] }), _, rfl, by decide +kernel, rfl, nofun, by decide +kernel⟩
  all_goals decide +kernel

/-- Two teams of a deterministic launch, team 0 stalled at a gated instruction and wanting the ladle, team 1 one clock behind it. -/
def gatedPair (w : Bool) : State :=
  (withSecond ((issuing 0x02000000).modLaunch 0 fun l => { l with determ := true }) fun t => { t with number := 1, ldclk := 1, run := none }).modTeam 0 fun t =>
    { t with wants := w, run := t.run.map fun r => { r with hold := some .retry } }

theorem witness_LadleGranted :
    let base := fun (s : State) (t : Team) (b : Block) (l : Launch) => s.launch 0 = some l ∧ l.determ = true ∧ l.ended = false ∧ l.ladle = none ∧
      (∀ ke ∈ s.hub.evicted, ke.2.launch ≠ 0) ∧ s.team 0 = some t ∧ (0, t) ∈ s.teams ∧ t.ended = false ∧ s.block t.block = some b ∧
      b.launch = 0 ∧ (t.run.bind Run.hold) = some .retry
    let less := fun (x y : Nat × Nat × Nat) => x.1 < y.1 ∨ x.1 = y.1 ∧ (x.2.1 < y.2.1 ∨ x.2.1 = y.2.1 ∧ x.2.2 < y.2.2)
    (∃ (s : State) (t : Team) (b : Block) (l : Launch), base s t b l ∧ t.wants = true ∧
      let index := fun (u : Team) => ((s.block u.block).map (·.index)).getD 0
      let rivals := s.teams.filter fun kt => !kt.2.ended && s.launchNo kt.2 == some 0 && kt != (0, t)
      rivals.length = 1 ∧ (∀ y ∈ rivals, y.1 ≠ 0) ∧ ∀ y ∈ rivals, less (t.ldclk, b.index, t.number) (effectiveClock s 0 l y.2, index y.2, y.2.number) ∧
        (y.2.wants = true → less (t.ldclk, b.index, t.number) (y.2.ldclk, index y.2, y.2.number))) ∧
    ∃ (s : State) (t : Team) (b : Block) (l : Launch), base s t b l ∧ ∀ kt ∈ s.teams, kt.2.wants = false := by
  refine ⟨⟨gatedPair true, _, _, _, ⟨rfl, rfl, rfl, rfl, ?_, rfl, ?_, ?_, rfl, rfl, ?_⟩, ?_, ?_, ?_, ?_⟩,
    ⟨gatedPair false, _, _, _, ⟨rfl, rfl, rfl, rfl, ?_, rfl, ?_, ?_, rfl, rfl, ?_⟩, ?_⟩⟩
  all_goals decide +kernel

/-- Team 0 waiting, with barrier 1 of its block still in phase 0. -/
def waiting (w : Wait) (f : Team → Team) : State := resting fun t => f { t with wait := some w, waitSince := 1 }

/-- A command of team 0 on barrier 1: two units of 128 bytes from 0x2000 to 0x3000 of the scratchpad. -/
def aCmd (k : CmdKind) : Cmd :=
  { kind := k, word := 0, team := 0, block := 0, launch := 0, ctx := 0, mode := .u, op := some 0, barrier := some 1, phase := 0, cid := 9
    src := .scratch 0 0x2000, dst := .scratch 0 0x3000, srcPitch := 0, dstPitch := 0, lineUnits := 2, units := 2, done := [], reduce := 0
    scope := 0, index := [], tiles := [], fill := false, locks := [], fault := none, poison := false, stamp := none, seq := none, dev := 0, win := 0
    key := 0, kix := 0, offset := 0, cls := 0, vc := 0, signal := 0, wait := false, oseq := 0, payload := [], header := [], unacked := 0
    atIssue := 0, releasedReduce := true, pc := 0, bytes := 0, localDone := false, signalled := false, sigOseq := 0 }

/-- What `TeamWakes` supposes of team 0. -/
def WakeCase (s : State) (p : Team → Block → Launch → Prop) : Prop :=
  ∃ (t : Team) (b : Block) (l : Launch), s.team 0 = some t ∧ s.block t.block = some b ∧ s.launch b.launch = some l ∧
    t.run = none ∧ Idle t ∧ l.determ = false ∧ ¬ (t.depth = 0 ∧ l.budget = 0) ∧ p t b l

theorem witness_TeamWakes :
    WakeCase (waiting (.barrier 1 0 (some (2, 4))) id) (fun t _ _ => t.wait = some (.barrier 1 0 (some (2, 4)))) ∧
    WakeCase (waiting (.barrier 1 0 none) id) (fun t b _ => t.wait = some (.barrier 1 0 none) ∧ (b.barrier 1).phase = 0) ∧
    WakeCase (waiting .grid id) (fun t b l => t.wait = some .grid ∧ ∀ x ∈ l.gridArr, x.1 ≠ 32 * b.index + t.number) ∧
    WakeCase ((waiting .grid id).modLaunch 0 fun l => { l with gridArr := [(0, 0, 0)] }) (fun t b l => t.wait = some .grid ∧ ∃ x ∈ l.gridArr, x.1 = 32 * b.index + t.number) ∧
    WakeCase (waiting (.monitor 0x4000 0x4000 7) id) (fun t _ _ => t.wait = some (.monitor 0x4000 0x4000 7) ∧ t.monitor.written = false) ∧
    (let s := waiting (.monitor 0x4000 0x4000 7) fun t => { t with monitor := { t.monitor with written := true } }
     WakeCase s (fun t _ _ => t.wait = some (.monitor 0x4000 0x4000 7) ∧ t.monitor.written = true ∧
       (viewBytes s (coreOfTeam 0) (s.ctxOf t) false 0x4000 4).2 = false ∧ t.ops = [] ∧ t.snap = none)) ∧
    (let s := waiting (.spawn 3) id
     WakeCase s (fun t _ _ => t.wait = some (.spawn 3) ∧ (s.queue 3).waiters = [])) ∧
    (let s := waiting (.get 0) id
     WakeCase s (fun t _ _ => t.wait = some (.get 0) ∧ s.cmd 0 = none)) ∧
    (let s := { waiting (.get 0) id with cmds := [(0, aCmd .get)] }
     WakeCase s (fun t _ _ => t.wait = some (.get 0) ∧ ∃ x, s.cmd 0 = some x ∧ x.team = 0 ∧ x.block = t.block)) := by
  refine ⟨⟨_, _, _, rfl, rfl, rfl, rfl, ⟨rfl, rfl, rfl, rfl⟩, rfl, ?_, rfl⟩, ⟨_, _, _, rfl, rfl, rfl, rfl, ⟨rfl, rfl, rfl, rfl⟩, rfl, ?_, rfl, ?_⟩,
    ⟨_, _, _, rfl, rfl, rfl, rfl, ⟨rfl, rfl, rfl, rfl⟩, rfl, ?_, rfl, ?_⟩, ⟨_, _, _, rfl, rfl, rfl, rfl, ⟨rfl, rfl, rfl, rfl⟩, rfl, ?_, rfl, ?_⟩,
    ⟨_, _, _, rfl, rfl, rfl, rfl, ⟨rfl, rfl, rfl, rfl⟩, rfl, ?_, rfl, ?_⟩, ⟨_, _, _, rfl, rfl, rfl, rfl, ⟨rfl, rfl, rfl, rfl⟩, rfl, ?_, rfl, ?_, ?_, ?_, ?_⟩,
    ⟨_, _, _, rfl, rfl, rfl, rfl, ⟨rfl, rfl, rfl, rfl⟩, rfl, ?_, rfl, ?_⟩, ⟨_, _, _, rfl, rfl, rfl, rfl, ⟨rfl, rfl, rfl, rfl⟩, rfl, ?_, rfl, ?_⟩,
    ⟨_, _, _, rfl, rfl, rfl, rfl, ⟨rfl, rfl, rfl, rfl⟩, rfl, ?_, rfl, _, rfl, ?_, ?_⟩⟩
  all_goals decide +kernel

/-- Every lane of team 0 has exited; the block's launch has a block still to place. -/
def leavingTeam (ended : Bool) : State :=
  (resting fun t => { t with exited := laneMask 32, ended := ended, regs := { t.regs with k := [] } }).modLaunch 0 fun l => { l with nblocks := 2 }

theorem witness_TeamsEnd :
    (∃ (s : State) (t : Team) (b : Block) (l : Launch), s.team 0 = some t ∧ s.block t.block = some b ∧ s.launch b.launch = some l ∧
      l.determ = false ∧ t.ended = false ∧ t.gone = true ∧ t.run = none ∧ t.wait = none ∧ t.ops = [] ∧ t.homes = [] ∧ t.depth = 0 ∧
      (s.core (coreOfTeam 0)).tagOf (s.ctxOf t) = some 0 ∧ b.barriers = [] ∧ t.number < 16 ∧
      ∀ e ∈ (s.core (coreOfTeam 0)).log, e.spl = true → e.pub = true) ∧
    (∃ (s : State) (t : Team), s.team 0 = some t ∧ t.gone = false) ∧
    (∃ (s : State) (b : Block) (l : Launch), s.block 0 = some b ∧ b.regrouped = false ∧ s.launch b.launch = some l ∧ l.determ = false ∧
      (∀ kt ∈ s.teams, kt.2.block = 0 → kt.2.ended = true) ∧ (∀ kr ∈ (s.cluster (b.core / 4)).table, kr.2.block ≠ 0) ∧
      (∀ x ∈ b.barriers, x.2.pend = 0) ∧ (∀ kt ∈ s.teams, kt.2.region = none) ∧ l.next < l.nblocks ∧ s.hub.instances = [] ∧
      ∀ e ∈ (s.core b.core).log, e.spl = true → e.pub = true) ∧
    (∃ (s : State) (b : Block), s.block 0 = some b ∧ ∃ kt ∈ s.teams, kt.2.block = 0 ∧ kt.2.ended = false) ∧
    ∃ (s : State) (t : Team), (s.teams.map (·.1)).Nodup ∧ (∀ kt ∈ s.teams, s.launchNo kt.2 = some 0 → kt.2.run ≠ none) ∧ s.team 0 = some t ∧
      s.launchNo t = some 0 ∧ t.depth = 0 ∧ Spent s t ∧ t.ended = false ∧ ∀ x ∈ t.due, x.cause ≠ 14 := by
  refine ⟨⟨leavingTeam false, _, _, _, rfl, rfl, rfl, rfl, rfl, ?_, rfl, rfl, rfl, rfl, rfl, ?_, rfl, ?_, ?_⟩, ⟨resting id, _, rfl, ?_⟩,
    ⟨leavingTeam true, _, _, rfl, rfl, rfl, rfl, ?_, ?_, ?_, ?_, ?_, rfl, ?_⟩, ⟨leavingTeam false, _, rfl, ?_⟩,
    ⟨(issuing 0x02000000).modLaunch 0 fun l => { l with budget := 0 }, _, ?_, ?_, rfl, ?_, ?_, ⟨_, rfl, rfl⟩, ?_, ?_⟩⟩
  all_goals decide +kernel

/-- Team 0 at `REGRP` with lane 0 for target 0 and lane 1 for target 1, in a text of zeros. -/
def regrouping (w : Wait) : State :=
  (waiting w id).modHome fun h => { h with mem := h.mem.filter fun x => decide (x.1 < 0x1100) }

/-- A regrouped block: one new team whose lanes 0 and 1 are lanes 5 and 9 of its home team. -/
def regrouped (w : Option Wait) : State :=
  (resting fun t => { t with wait := w, homes := [(0, (0, 5)), (1, (0, 9))] }).modBlock 0 fun b =>
    { b with regrouped := true, homes := [(0, Team.fresh 0 0 1 0 0x1100)] }

theorem witness_RegroupEvents :
    (let ok := fun (s : State) (b : Block) (live : List (Nat × Team)) => s.block 0 = some b ∧ b.regrouped = false ∧ s.hub.evicted = [] ∧
      live = s.teams.filter (fun kt => kt.2.block == 0) ∧ live.Pairwise (fun x y => x.2.number < y.2.number) ∧ (s.teams.map (·.1)).Nodup ∧
      (∀ kt ∈ live, s.team kt.1 = some kt.2 ∧ kt.2.ended = false ∧ Idle kt.2 ∧ kt.2.mode = .u ∧ kt.2.depth = 0 ∧ kt.2.words ≤ 32 ∧
        Sparse.wf 0#32 kt.2.regs.v = true ∧ coreOfTeam kt.1 = b.core) ∧ live ≠ [] ∧ syncDevice s = s
     (∃ (s : State) (b : Block) (live : List (Nat × Team)), ok s b live ∧ (∀ kt ∈ live, kt.2.arrivedRegroup false = true) ∧
      (∀ kt ∈ live, ∃ n, textLength s 1 kt.2.textBase = some n ∧ kt.2.regroupTable + 16 ≤ n) ∧
      (newTeams (placings (live.map fun kt => (kt.1, kt.2.words, kt.2.regroupDigits)))).length ≤
        (regroupContexts s b.core ((live.filter fun kt => kt.2.regroupDigits != 0).map (·.1))).length ∧
      (∀ kt ∈ live, kt.2.regroupDigits ≠ 0) ∧ (∀ kt ∈ live, ∀ j ∈ [0, 1, 2, 3], codeAddressCause s kt.2 true
        (homeNat s (kt.2.textBase + kt.2.regroupTable + 4 * j) 4) = none) ∧ (∀ kt ∈ live, kt.2.regroupDigits < 8 ^ kt.2.lanes) ∧
      (∀ kt ∈ live, ∀ i, kt.2.regroupDigits / 8 ^ i % 8 ≤ 4) ∧ columnPlace live 0 1 = some (1, 0)) ∧
     ∃ (s : State) (b : Block) (live : List (Nat × Team)), ok s b live ∧ ∃ kt ∈ live, kt.2.arrivedRegroup false = false) ∧
    (let ok := fun (s : State) (b : Block) => s.block 0 = some b ∧ b.regrouped = true ∧ (s.teams.map (·.1)).Nodup
     (∃ (s : State) (b : Block), ok s b ∧ ∃ kt ∈ s.teams, kt.2.block = 0 ∧ kt.2.homes ≠ [] ∧ kt.2.ended = false ∧ kt.2.arrivedRegroup true = false) ∧
     ∃ (s : State) (b : Block) (t home : Team), ok s b ∧ s.teams.filter (fun kt => kt.2.block == 0 && !kt.2.homes.isEmpty) = [(0, t)] ∧
      t.ended = false ∧ t.wait = some (.regroup true 12 0) ∧ t.arrivedRegroup true = true ∧ Idle t ∧ Idle home ∧ b.homes = [(0, home)] ∧
      (∀ x ∈ t.homes, x.1 < 1024 ∧ x.2.1 = home.number ∧ x.2.2 < home.lanes ∧ home.exited.getLsbD x.2.2 = false) ∧ (t.homes.map (·.1)).Nodup ∧
      (t.homes.map (·.2.2)).Nodup ∧ home.lanes ≤ 1024 ∧ Sparse.wf 0#32 t.regs.v = true ∧ Sparse.wf 0#32 home.regs.v = true ∧ home.mode = .u ∧
      t.mode = .u) := by
  refine ⟨⟨⟨regrouping (.regroup false 0 17), _, _, ⟨rfl, rfl, rfl, rfl, ?_, ?_, ?_, ?_, syncDevice_idle _ (by decide +kernel)⟩, ?_, ?_, ?_, ?_, ?_, ?_, ?_, ?_⟩,
      ⟨resting id, _, _, ⟨rfl, rfl, rfl, rfl, ?_, ?_, ?_, ?_, syncDevice_idle _ (by decide +kernel)⟩, ?_⟩⟩,
    ⟨⟨regrouped none, _, ⟨rfl, rfl, ?_⟩, ?_⟩,
      ⟨regrouped (some (.regroup true 12 0)), _, _, _, ⟨rfl, rfl, ?_⟩, rfl, rfl, rfl, ?_, ⟨rfl, rfl, rfl, rfl⟩, ⟨rfl, rfl, rfl, rfl⟩, rfl, ?_, ?_, ?_, ?_, ?_, ?_, rfl, rfl⟩⟩⟩
  all_goals first
    | decide +kernel
    | (unfold Idle; decide +kernel)
    | (intro kt hk
       have h : kt.2.regroupDigits = 17 := by revert kt; decide +kernel
       rw [h]
       intro i
       match i with
       | 0 => decide
       | 1 => decide
       | n + 2 =>
         have : 17 < 8 ^ (n + 2) := Nat.lt_of_lt_of_le (by decide : 17 < 8 ^ 2) (Nat.pow_le_pow_right (by decide) (by omega))
         simp [Nat.div_eq_of_lt this])

/-! ### Hypotheses met: events of memory and the engines -/

/-- A word that a Bool test finds to decode so. -/
theorem decodes {w : Nat} {j : Instr} (h : (match decodeWord w with | .ok i => decide (i = j) | .error _ => false) = true) : decodeWord w = .ok j := by
  cases e : decodeWord w with
  | ok i => rw [e] at h; rw [of_decide_eq_true h]
  | error x => rw [e] at h; cases h

/-- The machine at rest with log entries, their segment published at stamp 3. -/
def logged (es : List LogEntry) : State :=
  (resting id).modCore 0 fun c => { c with log := es, segs := [⟨0, 0, 0, 3, 3, [(0, 0)]⟩] }

/-- A place that a Bool test finds so. -/
theorem dst_placed {s : State} {r : State × Except UnitFault (Nat × Nat)} {x : Nat × Nat}
    (h : (match r.2 with | .ok y => decide (r.1 = s ∧ y = x) | .error _ => false) = true) : r = (s, .ok x) := by
  obtain ⟨a, b⟩ := r
  cases b with
  | ok y => obtain ⟨h1, h2⟩ := of_decide_eq_true h; exact Prod.ext h1 (congrArg Except.ok h2)
  | error e => cases h

theorem witness_MemoryEvents : (∀ e ∈ ((logged [anEntry]).core 0).log, e.pub = false) ∧
    (∃ (s : State) (e : LogEntry), (s.core 0).log.find? (fun x => x.pub) = some e ∧ (s.core 0).log.filter (fun x => x == e) = [e] ∧
      e.chunk = 0x103F / 32 ∧ e.mask.getLsbD (0x103F % 32) = true ∧ ¬ (((s.core 0).segOf e).stamp < (s.home.tag 0x103F).1 ∨
        ((s.core 0).segOf e).stamp = (s.home.tag 0x103F).1 ∧ 0 < (s.home.tag 0x103F).2)) ∧
    (∀ kc ∈ (resting id).cores, kc.2.counter < 2 ^ 47) ∧
    (∃ s : State, (∃ kc ∈ s.cores, 2 ^ 47 ≤ kc.2.counter) ∧ NoEntries s) ∧
    (∃ s : State, ∃ kc ∈ s.cores, ∃ e ∈ kc.2.log, e.pub = true ∧ e.chunk / 4 = 0x20) ∧
    (∃ s : State, ∀ kc ∈ s.cores, ∀ e ∈ kc.2.log, e.pub = true → e.chunk / 4 ≠ 0x21) ∧
    ∀ d i : Bool, ∃ (s : State) (x : L2Line), (∀ kc ∈ s.cores, kc.2.log = []) ∧ s.home.l2.find 0x21 = some x ∧ x.dirty = d ∧
      s.home.intents = (if i then [0x21] else []) ∧ ∀ y ∈ s.home.l2, y.2.keep = x.keep := by
  refine ⟨?_, ⟨logged [{ anEntry with pub := true }], _, rfl, ?_, ?_, ?_, ?_⟩, ?_, ⟨(resting id).modCore 0 fun c => { c with counter := 2 ^ 47 }, ?_, by unfold NoEntries; decide +kernel⟩,
    ⟨logged [{ anEntry with pub := true }], ?_⟩, ⟨logged [{ anEntry with pub := true }], ?_⟩,
    fun d i => ⟨(resting id).modHome fun h => { h with l2 := [(0x21, ⟨d, 0⟩)], intents := if i then [0x21] else [] }, ⟨d, 0⟩, ?_, rfl, rfl, rfl, ?_⟩⟩
  all_goals first
    | decide +kernel
    | (cases d <;> cases i <;> decide +kernel)

/-- Team 0 with an operation, and command 0 of it as changed, everything mapped. -/
def copying (f : Cmd → Cmd) : State :=
  { mapped (resting fun t => { t with ops := [{ anOp with vDest := [], sDest := [], waits := true }] }) with cmds := [(0, f (aCmd .copy))] }

theorem witness_EngineEvents :
    (∃ (s : State) (t : Team) (r : Run) (it : RunItem) (i : Instr) (s2 : State), s.team 0 = some t ∧ t.run = some r ∧ r.items = [it] ∧
      r.hold = some .retry ∧ decodeWord (it.word % 2 ^ 31 + if it.chain then 2 ^ 31 else 0) = .ok i ∧ engineCommand i = true ∧
      exec i ({ s with cur := 0 }.modTeam 0 Team.begin) = .next s2) ∧
    (∃ (s : State) (t : Team) (r : Run) (it : RunItem), s.team 0 = some t ∧ t.run = some r ∧ r.items = [it] ∧ r.hold ≠ some .retry) ∧
    (∃ (s : State) (c : Cmd), s.cmd 0 = some c ∧ c.kind = .copy ∧ 1 ∈ c.done) ∧
    (∃ (s : State) (c : Cmd), s.cmd 0 = some c ∧ c.kind = .copy ∧ c.fault = none ∧ 1 < c.units ∧ 1 ∉ c.done ∧ c.poison = false ∧
      (unitEnds c 1).1 = .scratch 0 0x2080 ∧ (scratchBytes s 0 0x2080 128).2 = false ∧ c.reduce = 0 ∧ (unitEnds c 1).2 = .scratch 0 0x3080) ∧
    (∃ (s : State) (c : Cmd), s.cmd 0 = some c ∧ c.kind = .copy ∧ c.fault = none ∧ 1 < c.units ∧ 1 ∉ c.done ∧ c.poison = false ∧
      (unitEnds c 1).1 = .scratch 0 0x2080 ∧ (scratchBytes s 0 0x2080 128).2 = false ∧ c.reduce = 0 ∧ (unitEnds c 1).2 = .global 0x8080 ∧
      c.block < noBlock ∧ dstPlace s (coreOfTeam c.team) c.ctx c.mode 0x8080 = (s, .ok (0x8080, 0)) ∧ (s.core (coreOfTeam c.team)).tagOf c.ctx = some 0 ∧
      (s.core (coreOfTeam c.team)).ringUsed + 4 ≤ ringSize) ∧
    (∃ (s : State) (c : Cmd), s.cmd 0 = some c ∧ c.kind = .copy ∧ c.fault = none ∧ 1 < c.units ∧ 1 ∉ c.done ∧ c.poison = false ∧
      (unitEnds c 1).1 = .scratch 0 0x2080 ∧ (scratchBytes s 0 0x2080 128).2 = false ∧ c.reduce ∈ [1, 2, 4, 5, 8, 9] ∧ c.block < noBlock ∧ c.releasedReduce = true ∧
      c.seq = none ∧ NoEntries s ∧ (unitEnds c 1).2 = .global 0x8080 ∧
      (∀ j, j < 32 → dstPlace s (coreOfTeam c.team) c.ctx c.mode (0x8080 + 4 * j) = (s, .ok (0x8080 + 4 * j, 0))) ∧ s.home.poison = []) ∧
    (∃ (s : State) (c : Cmd), s.cmd 0 = some c ∧ c.kind = .copy ∧ c.fault = none ∧ c.done.length < c.units) ∧
    ∃ (s : State) (c : Cmd) (t : Team) (b : Block) (o : Op), s.cmd 0 = some c ∧ c.kind = .copy ∧ c.fault = none ∧ c.units ≤ c.done.length ∧
      s.team c.team = some t ∧ Idle t ∧ t.block = c.block ∧ s.block c.block = some b ∧ c.block < noBlock ∧ c.barrier = some 1 ∧ c.op = some o.num ∧
      t.ops = [o] ∧ o.vDest = [] ∧ o.sDest = [] ∧ o.dirty = [] ∧ (s.core (coreOfTeam c.team)).tagOf c.ctx = some 0 ∧ t.wait = none ∧
      (∃ va, c.dst = .global va) ∧ c.reduce = 0 ∧ c.stamp = none := by
  refine ⟨⟨(asking [(10, 0x2000#32), (12, 0x3000#32), (14, 256#32)] 0).modTeam 0 fun t =>
        { t with run := t.run.map fun r => { r with hold := some .retry, items := [⟨(encodeWord (.cpyL2l 0 10 12 14 0)).getD 0, 0, false⟩] } },
      _, _, _, .cpyL2l 0 10 12 14 0, _, rfl, rfl, rfl, rfl, decodes (by decide +kernel), rfl, rfl⟩,
    ⟨resting fun t => { t with run := some (oneWordRun 0) }, _, _, _, rfl, rfl, rfl, ?_⟩, ⟨copying fun c => { c with done := [1] }, _, rfl, rfl, ?_⟩,
    ⟨copying id, _, rfl, rfl, rfl, ?_, ?_, rfl, rfl, ?_, rfl, rfl⟩,
    ⟨copying fun c => { c with dst := .global 0x8000 }, _, rfl, rfl, rfl, ?_, ?_, rfl, rfl, ?_, rfl, rfl, ?_, dst_placed (by decide +kernel), ?_, ?_⟩,
    ⟨copying fun c => { c with dst := .global 0x8000, reduce := 2 }, _, rfl, rfl, rfl, ?_, ?_, rfl, rfl, ?_, ?_, ?_, rfl, rfl, by unfold NoEntries; decide +kernel, rfl,
      fun j h => dst_placed (by revert j; decide +kernel), rfl⟩,
    ⟨copying id, _, rfl, rfl, rfl, ?_⟩,
    ⟨copying fun c => { c with dst := .global 0x8000, done := [1, 0] }, _, _, _, _, rfl, rfl, rfl, ?_, rfl, ⟨rfl, rfl, rfl, rfl⟩, rfl, rfl, ?_, rfl, rfl,
      rfl, rfl, rfl, rfl, ?_, rfl, ⟨_, rfl⟩, rfl, rfl⟩⟩
  all_goals decide +kernel


/-- Cluster 0 with one reservation of an instruction, both weight slots full of BF16 zeros, block 0 with 512 rows. -/
def reserving (i : Instr) (f : Reservation → Reservation) : State :=
  ((copying id).modBlock 0 fun b => { b with accRows := 512 }).modCluster 0 fun c =>
    { c with
      table := [(0, f { aReservation with word := (encodeWord i).getD 0, op := some 0, desc := [0x1000, 0x00800080, 1, 256] })]
      slots := [(0, ⟨1, [], false⟩), (1, ⟨1, [], false⟩)] }

/-- What `ReservationEvents` supposes of the reservation that is granted next. -/
def GrantCase (i : Instr) (p : State → Team → Block → Reservation → Prop) : Prop :=
  let s := reserving i fun r => { r with opA := 4, mask := 6, data := [(1, 5, 6, false)] }
  ∃ (t : Team) (b : Block) (r : Reservation), NextGrant s 0 0 r ∧ s.team r.team = some t ∧ s.block r.block = some b ∧ (s.core r.core).accOpen = [] ∧ p s t b r

/-- A reservation that kept no bytes of its tile. -/
theorem unstored_none {s : State} {b : Block} {r : Reservation} (h : r.seen = []) : Unstored s b r := by
  intro i x hx
  rw [h] at hx
  cases hx

theorem witness_ReservationEvents :
    (∃ (s : State) (q : Nat × Reservation), (s.cluster 0).table = [q] ∧ ¬ MayGrant s 0 q.2) ∧
    GrantCase (.mz 0 12 10) (fun _ _ _ r => r.kind = .mz) ∧
    GrantCase (.accwr 0 8 12 14) (fun _ _ _ r => r.kind = .accwr ∧ (r.data.map (·.1)).Nodup ∧ r.opB < 128) ∧
    GrantCase (.accwrF 0 8 12 14) (fun _ _ _ r => r.kind = .accwrF ∧ (r.data.map (·.1)).Nodup ∧ r.opB < 128) ∧
    GrantCase (.accrd 0 8 12 14) (fun s t _ r => r.kind = .accrd ∧ r.op = some 0 ∧ (∃ o, t.ops = [o] ∧ o.num = 0) ∧ (s.core r.core).accPoison = [] ∧ r.opB < 128) ∧
    GrantCase (.accrdF 0 8 12 14) (fun s t _ r => r.kind = .accrdF ∧ r.op = some 0 ∧ (∃ o, t.ops = [o] ∧ o.num = 0) ∧ (s.core r.core).accPoison = [] ∧ r.opB < 128) ∧
    GrantCase (.mma 0 3 0 12 1 0) (fun s _ b r => r.kind = .mma ∧ Unstored s b r ∧ r.word / 32 % 2 = 0 ∧ (localRange s b r.tile.laddr r.tile.extent).isSome ∧ r.tile.rows ≤ 128 ∧
      r.tile.layout = 0 ∧ r.tile.fmt = 1 ∧ r.tile.cols = 128 ∧ ∃ w, r.slot = some 1 ∧ (s.cluster 0).slots.find (2 * r.block + 1) = some w ∧ w.fmt = 1 ∧
      Sparse.wf 0#8 w.bytes = true) ∧
    GrantCase (.mldwTile 0 3 1) (fun s _ b r => r.kind = .mldwTile ∧ Unstored s b r ∧ (∀ q ∈ (s.cluster 0).table, q ≠ (0, r) → q.2.image s ≠ r.image s) ∧ r.tile.layout = 0 ∧
      r.tile.rows = 128 ∧ r.tile.cols = 128 ∧ r.tile.fmt = 1 ∧ (localRange s b r.tile.laddr r.tile.extent).isSome ∧ r.slot = some 1) ∧
    (∃ (s : State) (r : Reservation) (t : Team) (o : Op), (s.cluster 0).table.find 0 = some r ∧ r.granted = true ∧ r.op = some o.num ∧ s.team r.team = some t ∧
      t.block = r.block ∧ Idle t ∧ t.ops = [o] ∧ o.dirty = [] ∧ o.past = false ∧ (∀ p, (s.cluster 0).passes.find 0 ≠ some p) ∧ ∀ d ∈ o.vDest ++ o.sDest, d.2.2 = false) ∧
    ∃ (s : State) (r : Reservation) (t : Team), (s.cluster 0).table.find 0 = some r ∧ s.team r.team = some t ∧ r.granted = false := by
  refine ⟨⟨reserving (.mz 0 12 10) fun r => { r with granted := true }, _, rfl, nofun⟩,
    ⟨_, _, _, ⟨rfl, ?_, ?_, ?_, ?_⟩, rfl, rfl, rfl, ?_⟩, ⟨_, _, _, ⟨rfl, ?_, ?_, ?_, ?_⟩, rfl, rfl, rfl, ?_⟩, ⟨_, _, _, ⟨rfl, ?_, ?_, ?_, ?_⟩, rfl, rfl, rfl, ?_⟩,
    ⟨_, _, _, ⟨rfl, ?_, ?_, ?_, ?_⟩, rfl, rfl, rfl, ?_, rfl, ⟨_, rfl, rfl⟩, ?_, ?_⟩, ⟨_, _, _, ⟨rfl, ?_, ?_, ?_, ?_⟩, rfl, rfl, rfl, ?_, rfl, ⟨_, rfl, rfl⟩, ?_, ?_⟩,
    ⟨_, _, _, ⟨rfl, ?_, ?_, ?_, ?_⟩, rfl, rfl, rfl, ?_, unstored_none rfl, ?_, ?_, ?_, ?_, ?_, ?_, _, ?_, rfl, rfl, rfl⟩,
    ⟨_, _, _, ⟨rfl, ?_, ?_, ?_, ?_⟩, rfl, rfl, rfl, ?_, unstored_none rfl, ?_, ?_, ?_, ?_, ?_, ?_, ?_⟩,
    ⟨reserving (.mz 0 12 10) fun r => { r with granted := true }, _, _, _, rfl, rfl, rfl, rfl, rfl, ⟨rfl, rfl, rfl, rfl⟩, rfl, rfl, rfl, nofun, ?_⟩,
    ⟨reserving (.mz 0 12 10) id, _, _, rfl, rfl, rfl⟩⟩
  all_goals first
    | decide +kernel
    | (unfold MayGrant; decide +kernel)
    | (intro q hq; cases List.mem_singleton.1 hq; intro h; exact absurd rfl h)

/-! ### Hypotheses met: events of the fabric -/

/-- This device is 7, with a route to device 1 by port 2, context 0 maps the first GiB to itself, and window 0 is its first 64 KiB. -/
def linked : State :=
  let s := (resting id).modContext 0 fun x => { x with xptb := 0x10000 }
  let s := s.modHub fun h => { h with wtbase := 0x30000, device := 7, routes := [(1, ⟨2, []⟩)], cmtbase := 0x40000 }
  s.modHome fun h => { h with mem := h.mem ++ [(0x10000, 3), (0x10002, 2), (0x20000, 0x71), (0x3000A, 1), (0x30012, 0x8F)] }

/-- A packet of device 1 for this one, UNORDERED, at 0x8000 of window 0. -/
def aPacket (k : Nat) (payload : List Byte) : Packet :=
  { Packet.blank 1 7 1 0 k 77 with offset := 0x8000, payload := payload }

theorem witness_PacketsLeave :
    let base := fun (s : State) (c : Cmd) (row : RouteRow) => s.cmd 0 = some c ∧ c.cls = 0 ∧ s.hub.routes.find c.dev = some row ∧ row.fixed < 16 ∧ (s.link row.fixed).queue = [] ∧ c.fault = none
    (∃ (s : State) (c : Cmd) (row : RouteRow), base s c row ∧ c.localDone = false ∧ c.done.length + 1 < c.units ∧ c.kind = .put ∧ c.src = .scratch 0 0x2000 ∧
      4096 * 1 ≤ c.bytes ∧ (∀ j, j < 128 → (scratchBytes s 0 (0x2000 + 4096 * 0 + 32 * j) 32).2 = false) ∧ storeRoom s row.fixed 8192 = true) ∧
    (∃ (s : State) (c : Cmd) (row : RouteRow), base s c row ∧ c.localDone = false ∧ c.done.length + 1 < c.units ∧ c.kind = .serve ∧
      4096 * 1 ≤ c.bytes ∧ c.payload.length = c.bytes ∧ storeRoom s row.fixed 8192 = true) ∧
    (∃ (s : State) (c : Cmd) (row : RouteRow), base s c row ∧ c.kind = .get ∧ c.signalled = false ∧ storeRoom s row.fixed 8192 = true) ∧
    ∃ (s : State) (r : Replay) (row : RouteRow), s.hub.replay.find 0 = some r ∧ r.port < 16 ∧ r.sent + 50000 ≤ s.time ∧ (Packet.ofBytes r.bytes).kind ≠ 5 ∧
      s.hub.routes.find (Packet.ofBytes r.bytes).dst = some row ∧ r.port = row.fixed ∧ r.tries = 0 ∧
      (∀ kl ∈ s.hub.links, ∀ x ∈ kl.2.queue, x.2 ≠ some 0) ∧ (s.link (row.alts.getD 0 row.fixed)).queue = [] := by
  refine ⟨⟨{ linked with cmds := [(0, { aCmd .put with dev := 1, bytes := 8192 })] }, _, _, ⟨rfl, rfl, rfl, ?_, rfl, rfl⟩, rfl, ?_, rfl, rfl, ?_, ?_, ?_⟩,
    ⟨{ linked with cmds := [(0, { aCmd .serve with dev := 1, bytes := 8192, payload := List.replicate 8192 1 })] }, _, _, ⟨rfl, rfl, rfl, ?_, rfl, rfl⟩, rfl, ?_, rfl,
      ?_, List.length_replicate, ?_⟩,
    ⟨{ linked with cmds := [(0, { aCmd .get with dev := 1 })] }, _, _, ⟨rfl, rfl, rfl, ?_, rfl, rfl⟩, rfl, rfl, ?_⟩,
    ⟨{ linked with time := 60000, hub := { linked.hub with replay := [(0, ⟨2, { aPacket 0 [1] with dst := 1 }.bytes, none, 77, 0, 0, []⟩)] } }, _, _, rfl, ?_, ?_, ?_, rfl, rfl, rfl, nofun, rfl⟩⟩
  all_goals first
    | decide +kernel
    | (unfold NoEntries; decide +kernel)

theorem witness_RetransmitWaits : ∃ (s : State) (r : Replay), s.hub.replay.find 0 = some r ∧ r.port < 16 ∧ r.sent + 50000 ≤ s.time ∧
    ∃ kl ∈ s.hub.links, ∃ x ∈ kl.2.queue, x.2 = some 0 :=
  ⟨{ linked with time := 60000, hub := { linked.hub with
      replay := [(0, ⟨2, { aPacket 0 [1] with dst := 1 }.bytes, none, 77, 0, 0, []⟩)], links := [(2, { linked.link 2 with queue := [([], some 0)] })] } },
    _, rfl, by decide, by decide +kernel, _, List.mem_cons_self .., _, List.mem_cons_self .., rfl⟩

theorem witness_FlitsArrive : ∃ (s : State) (f : List (BitVec 8)), f.length = 64 ∧ crc32 f ≠ 0 ∧ (s.link 2).partials.length = 64 ∧
    (let got := (s.link 2).partials ++ f
     let whole := 128 + (numberOf ((got.drop 6).take 2) + 63) / 64 * 64
     128 ≤ got.length ∧ whole ≤ got.length ∧ PacketEvent 2 (got.take whole) (.signalPacket 2 (got.take whole)) ∧
     got.length = 128 ∧ (s.link 3).bad < 16 ∧ 16 ≤ (s.link 2).bad ∧ (s.link 2).queue = [] ∧ (s.link 2).replayWanted = false) ∧
    ∃ s : State, (s.link 2).replayWanted = true := by
  refine ⟨linked.setLink 2 { linked.link 2 with bad := 16, partials := (aPacket 2 []).bytes.take 64 }, (aPacket 2 []).bytes.drop 64, ?_, ?_, ?_, ⟨?_, ?_, ?_, ?_, ?_, ?_, rfl, rfl⟩,
    linked.setLink 2 { linked.link 2 with replayWanted := true }, ?_⟩
  all_goals first
    | decide +kernel
    | exact .inr (.inr (.inr ⟨by decide +kernel, .inr (.inr (.inl ⟨by decide +kernel, rfl⟩))⟩))

/-- A packet that this device takes. -/
theorem takes (s : State) (port : Nat) (bs : List Byte) (h : (port < 16 ∧ badHeader bs = false ∧ (Packet.ofBytes bs).payload.length ≤ 4096 ∧
    (Packet.ofBytes bs).dst = s.dev ∧ (Packet.ofBytes bs).identity ∉ s.hub.performed)) : TakesPacket s port bs := h

theorem witness_DataPackets :
    let p := aPacket 0 [1, 2, 3, 4]
    DataEvent 2 p.bytes (.putDataPacket 2 p.bytes) ∧ NoEntries linked ∧ TakesPacket linked 2 p.bytes ∧ Packet.ofBytes p.bytes = p ∧ InTurn linked p ∧ p.void = false ∧
    checkWindow linked p.win p.key 1 p.offset p.payload.length .store = .ok [(0x8000, 4)] 0 0 ∧ whereIs 0x8000 = .hbm ∧
    badHeader (List.replicate 128 (255 : Byte)) = true ∧ DataEvent 2 { p with void := true, kind := 1 }.bytes (.putsDataPacket 2 { p with void := true, kind := 1 }.bytes) ∧
    TakesPacket linked 2 { p with void := true, kind := 1 }.bytes ∧
    checkWindow linked p.win 9 1 p.offset p.payload.length .store = .refused false ∧
    (Packet.ofBytes { p with cls := 0, oseq := 3 }.bytes).cls = 0 ∧ aheadBy linked { p with cls := 0, oseq := 3 } = 3 := by
  refine ⟨⟨?_, .inl ⟨?_, rfl⟩⟩, ?_, takes _ _ _ ?_, ?_, .inl rfl, rfl, ?_, ?_, ?_, ⟨?_, .inr ⟨?_, rfl⟩⟩, takes _ _ _ ?_, ?_, ?_, ?_⟩
  all_goals first
    | decide +kernel
    | (unfold NoEntries; decide +kernel)

theorem witness_WindowChecks : linked.hub.wtbase.toNat + 32 * 0 + 32 ≤ hbmTop ∧
    (let field := fun (o k : Nat) => memNumber linked.home.byte (linked.hub.wtbase.toNat + 32 * 0 + o) k
     (field 18 1 / 128 = 1 ∧ field 18 1 / 1 % 2 = 1) ∧ field 16 2 = 0 ∧ 0x8000 + 4 ≤ field 8 8 ∧ ¬ field 16 2 = 9) := by decide +kernel

/-- What `OtherPackets` supposes of a packet of one kind. -/
def PacketCase (s : State) (k : Nat) (p : Packet) : Prop :=
  NoEntries s ∧ TakesPacket s 2 p.bytes ∧ Packet.ofBytes p.bytes = p ∧ p.cls = 1 ∧ p.void = false ∧ p.kind = k

/-- A `GET` of team 0 under way for the device's answer. -/
def getting : State := { linked with cmds := [(0, { aCmd .get with cid := 77, offset := 0x8000, dst := .scratch 0 0x3000 })] }

theorem witness_OtherPackets :
    (PacketCase linked 2 { aPacket 2 [] with key := 9 } ∧ checkWindow linked 0 9 4 0x8000 0 .load = .refused false) ∧
    (let s := linked.modLaunch 0 fun l => { l with id := 5 }
     PacketCase s 2 (aPacket 2 []) ∧ checkWindow s 0 0 4 0x8000 0 .load = .ok [] 0 0 ∧ (∀ kl ∈ s.launches, kl.2.id ≠ 0#64) ∧ s.hub.arrivals.length < 4096) ∧
    (PacketCase linked 2 { aPacket 2 [] with sigblk := 1 } ∧ ∃ l, linked.launches = [(0, l)] ∧ l.id = 0#64 ∧ l.accepted ≠ 0 ∧ l.ended = false ∧ l.nblocks ≤ 1) ∧
    (let s := linked.modBlock 0 fun b => b.setBarrier 1 { b.barrier 1 with ext := 3 }
     PacketCase s 2 { aPacket 2 [] with sigbar := 1 } ∧ ∃ l b, s.launches = [(0, l)] ∧ l.id = 0#64 ∧ l.accepted ≠ 0 ∧ l.ended = false ∧ l.determ = false ∧ 0 < l.nblocks ∧
       s.blocks = [(0, b)] ∧ b.launch = 0 ∧ b.index = 0 ∧ (b.barrier 1).ext ≠ 1 ∧ 0 < (b.barrier 1).ext) ∧
    (PacketCase linked 3 { aPacket 3 [] with nsrc := 1 } ∧ checkWindow linked 0 0 2 0x8000 128 .load = .ok [(0x8000, 128)] 0 0 ∧ linked.home.poison = []) ∧
    (PacketCase getting 4 (aPacket 4 (List.replicate 128 9)) ∧ ∃ c, getting.cmds = [(0, c)] ∧ c.kind = .get ∧ c.cid = 77 ∧ c.dst = .scratch 0 0x3000 ∧
      c.lineUnits = c.units ∧ c.reduce = 0 ∧ c.fault = none ∧ c.done = [] ∧ c.offset = 0x8000 ∧ 1 < c.units) := by
  refine ⟨⟨⟨?_, takes _ _ _ ?_, ?_, rfl, rfl, rfl⟩, ?_⟩, ⟨⟨?_, takes _ _ _ ?_, ?_, rfl, rfl, rfl⟩, ?_, ?_, ?_⟩,
    ⟨⟨?_, takes _ _ _ ?_, ?_, rfl, rfl, rfl⟩, _, rfl, rfl, ?_, rfl, ?_⟩,
    ⟨⟨?_, takes _ _ _ ?_, ?_, rfl, rfl, rfl⟩, _, _, rfl, rfl, ?_, rfl, rfl, ?_, rfl, rfl, rfl, ?_, ?_⟩,
    ⟨⟨?_, takes _ _ _ ?_, ?_, rfl, rfl, rfl⟩, ?_, rfl⟩,
    ⟨⟨?_, takes _ _ _ ?_, ?_, rfl, rfl, rfl⟩, _, rfl, rfl, rfl, rfl, rfl, rfl, rfl, rfl, rfl, ?_⟩⟩
  all_goals first
    | decide +kernel
    | (unfold NoEntries; decide +kernel)

/-- A `PUT` of team 0 with one packet out, in replay entry 3. -/
def outstanding (done : Bool) : State :=
  { linked with
    cmds := [(0, { aCmd .put with dev := 1, cid := 77, unacked := 1, localDone := done })]
    hub := { linked.hub with replay := [(3, ⟨2, { aPacket 0 [1] with src := 7, dst := 1 }.bytes, some 0, 77, 0, 0, []⟩)] } }

theorem witness_Answers :
    (let bs := { aPacket 6 [] with cls := 2 }.bytes
     badHeader bs = false ∧ (Packet.ofBytes bs).payload.length ≤ 4096 ∧ (Packet.ofBytes bs).dst = linked.dev ∧ linked.hub.waiting = [] ∧ NoneHeld linked ∧
       (Packet.ofBytes bs).kind = 6 ∧ ∀ kr ∈ linked.hub.replay, ¬ Names 2 (Packet.ofBytes bs) kr.2) ∧
    (∀ d : Bool, ∀ k : Nat, k = 6 ∨ k = 7 → let bs := { aPacket k [] with cls := 2, nelem := 1 }.bytes
     badHeader bs = false ∧ (Packet.ofBytes bs).payload.length ≤ 4096 ∧ (Packet.ofBytes bs).dst = (outstanding d).dev ∧ (outstanding d).hub.waiting = [] ∧ NoneHeld (outstanding d) ∧
       (Packet.ofBytes bs).kind = k ∧ ∃ r c, (outstanding d).hub.replay = [(3, r)] ∧ Names 2 (Packet.ofBytes bs) r ∧ r.cmd = some 0 ∧
       (outstanding d).cmd 0 = some c ∧ c.kind = .put ∧ c.localDone = d) ∧
    (let bs := { aPacket 3 [] with cls := 2 }.bytes
     badHeader bs = false ∧ (Packet.ofBytes bs).payload.length ≤ 4096 ∧ (Packet.ofBytes bs).dst = linked.dev ∧ (Packet.ofBytes bs).cls = 2 ∧ (Packet.ofBytes bs).kind ≤ 5) := by
  refine ⟨⟨?_, ?_, ?_, rfl, nofun, ?_, nofun⟩, ?_, ?_⟩
  · decide +kernel
  · decide +kernel
  · decide +kernel
  · decide +kernel
  · intro d k hk
    rcases hk with rfl | rfl <;> cases d <;>
      exact ⟨by decide +kernel, by decide +kernel, by decide +kernel, rfl, nofun, by decide +kernel, _, _, rfl, by unfold Names; decide +kernel, rfl, rfl, rfl, rfl⟩
  · decide +kernel

/-- A collective packet of two FP32 elements with a route, and the slot where one input like it waits. -/
def aChunk (route : List Nat) (rank : Nat) : Packet :=
  { aPacket 5 [0, 0, 128, 63, 0, 0, 0, 64] with collid := 4, chunk := 1, nelem := 2, route := route, nsrc := 1, rank := rank }
/-- See `aChunk`. -/
def aSlot : Slot :=
  { collid := 4, chunk := 1, entry := 0x3210, fired := false, mapped := false, tmo := 2000, root := 0xFFFF, ranks := [], opened := 0
    inputs := [(1, (aChunk [0x3210, 0] 2).bytes)], origins := [] }

/-- What `CollectiveEvents` supposes of a packet that arrives. -/
def ChunkCase (s : State) (p : Packet) : Prop :=
  badHeader p.bytes = false ∧ Packet.ofBytes p.bytes = p ∧ p.payload.length ≤ 4096 ∧ s.hub.waiting = [] ∧ p.identity ∉ s.hub.performed ∧ p.kind = 5 ∧ InLinkTurn s 2 p

theorem witness_CollectiveEvents :
    (ChunkCase linked (aChunk [0x9000] 1) ∧ chunkReason (aChunk [0x9000] 1) = some 3) ∧
    (ChunkCase linked (aChunk [0x1200, 0] 1) ∧ chunkReason (aChunk [0x1200, 0] 1) = none ∧
      storeRoom linked 2 (storedSize { aChunk [0x1200, 0] 1 with route := [0] }.bytes) = true) ∧
    (ChunkCase linked (aChunk [0x3210, 0] 1) ∧ chunkReason (aChunk [0x3210, 0] 1) = none ∧ linked.hub.slots = [] ∧ NoEntries linked ∧
      linked.hub.cmtbase.toNat + 16384 ≤ hbmTop) ∧
    (let s := linked.modHub fun h => { h with slots := [(0, aSlot)] }
     ChunkCase s (aChunk [0x3210, 0] 1) ∧ s.hub.slots = [(0, aSlot)] ∧ aSlot.collid.toNat = 4 ∧ aSlot.chunk.toNat = 1 ∧ aSlot.entry.toNat = 0x3210 ∧
       aSlot.inputs.length = 0x3210 / 16 % 16 ∧ aSlot.fired = false ∧ aSlot.origins = [] ∧
       (∀ q ∈ aSlot.inputs.map (fun i => Packet.ofBytes i.2) ++ [aChunk [0x3210, 0] 1], q.nelem = 2 ∧ q.route = [0x3210, 0] ∧ q.cls = 1 ∧ q.kind = 5) ∧
       (aChunk [0x3210, 0] 1).payload.length = 4 * 2 ∧ storeRoom s 2 (storedSize { aChunk [0x3210, 0] 1 with route := [0] }.bytes) = true) ∧
    (aSlot.fired = false ∧ linked.time < aSlot.opened + 1000000 * aSlot.tmo) ∧ aSlot.opened + 1000000 * aSlot.tmo ≤ { linked with time := 2000000000 }.time := by
  refine ⟨⟨⟨?_, ?_, ?_, rfl, ?_, rfl, .inl ⟨rfl, nofun⟩⟩, ?_⟩, ⟨⟨?_, ?_, ?_, rfl, ?_, rfl, .inl ⟨rfl, nofun⟩⟩, ?_, ?_⟩, ⟨⟨?_, ?_, ?_, rfl, ?_, rfl, .inl ⟨rfl, nofun⟩⟩, ?_, rfl, ?_, ?_⟩,
    ⟨⟨?_, ?_, ?_, rfl, ?_, rfl, .inl ⟨rfl, nofun⟩⟩, rfl, ?_, ?_, ?_, ?_, rfl, rfl, ?_, ?_, ?_⟩, ⟨rfl, ?_⟩, ?_⟩
  all_goals first
    | decide +kernel
    | (unfold NoEntries; decide +kernel)

/-! ### Hypotheses met: placement, the walker's clock, eviction -/

/-- A kernel of one team of 32 lanes and 120 registers, an instance of the block's graph with a spill buffer of 4 MiB at 16 MiB, and launch 1 with
two blocks of 2 KiB to place from queue 0. -/
def walking (stopped : Bool) : State :=
  let s := mapped (resting id)
  let s := s.modHome fun h => { h with mem := (Sparse.set 0#8 (Sparse.set 0#8 (Sparse.set 0#8 h.mem 0x100A 32) 0x100C 1) 0x100D 120) }
  let s := { s with launches := s.launches ++ [(1, { (s.launch 0).getD (makeLaunch s ⟨0, 0, 0, 0, 0, [], false, [], true, 0, 0, []⟩ 0 0 0 0 0 0) with
    next := 0, nblocks := 2, alloc := 1, accRows := 32, deadline := 0, classMax := 3, handle := 0 })] }
  s.modHub fun h => { h with
    instances := [(0, ⟨0, 0, 0, 0, 0, [], stopped, [], true, 0x1000000, 4, []⟩)], nextLaunch := 2, queues := [(0, ⟨16, none, 0, 0, 0, [1], 0, []⟩)], offers := [1] }

/-- `OnlyRecord` with the launch of `walking`. -/
theorem walking_record : OnlyRecord (walking false) 1 1 (((walking false).launch 1).getD (makeLaunch (walking false) ⟨0, 0, 0, 0, 0, [], false, [], true, 0, 0, []⟩ 0 0 0 0 0 0)) := by
  refine ⟨?_, ?_, ⟨?_, ?_⟩, rfl, rfl, ?_⟩
  · decide +kernel
  · rfl
  · decide +kernel
  · intro x h
    have : ((walking false).instanceOf (((walking false).launch 1).getD (makeLaunch (walking false) ⟨0, 0, 0, 0, 0, [], false, [], true, 0, 0, []⟩ 0 0 0 0 0 0))).map (·.2.stopped) =
      some false := by decide +kernel
    rw [h] at this
    exact Option.some.inj this
  · unfold NoEntries; decide +kernel

/-- The check that no queue but for these launches holds one that starves. -/
def calm (s : State) (but : List Nat) : Bool :=
  (List.range 64).all fun q => (s.queue q).records.all fun m => but.contains m ||
    match s.launch m with
    | none => true
    | some l => classOf s.time l != 3 || decide (s.time < l.readyAt + 50000)

theorem calm_starving {s : State} (but : List Nat) (h : calm s but = true) (q m : Nat) (hm : m ∉ but) : ¬ Starving s q m := by
  rintro ⟨hq, hr, l, hl, -, hc, ht⟩
  have h1 := List.all_eq_true.1 (List.all_eq_true.1 h q (List.mem_range.2 hq)) m hr
  have hb : but.contains m = false := by simpa using hm
  simp only [hl, hb, hc, Bool.false_or, bne_self_eq_false, decide_eq_true_eq] at h1
  exact absurd h1 (by omega)

theorem witness_Placement :
    (∃ s : State, QuietHub s ∧ ¬ TakesWork s 1 ∧ s.hub.offers.head? = some 1 ∧ ∀ q n, ¬ Starving s q n) ∧ (∃ s : State, QuietHub s ∧ s.hub.offers.head? ≠ some 1) ∧
    (let s := walking false
     ∃ (l : Launch) (p : Spot), OnlyRecord s 1 1 l ∧ TakesWork s 1 ∧ l.cores = false ∧ l.grouping = false ∧ l.queue = (s.cluster (1 / 4)).queue ∧ l.handle = 0 ∧
       (l.shape s).fitsIdle = true ∧ (l.shape s).carve = (s.core 1).carve ∧ holdFor s 1 l = none ∧ spotOn s 1 l.ctx (l.shape s) [] none = some p ∧
       (l.shape s).teams ≤ (freeContexts s 1).length ∧ (l.shape s).teams = 1 ∧ (∀ a ∈ s.hub.arrivals, ¬ (a.launch = l.id ∧ a.block = l.next)) ∧ l.next + 1 < l.nblocks ∧
       s.hub.offers.head? = some 1 ∧ (∀ q m, m ≠ 1 → ¬ Starving s q m) ∧ ∀ kb ∈ s.blocks, kb.2.core ≠ 1) ∧
    (∃ s : State, (s.core 1).newmap = some 3 ∧ ∀ kb ∈ s.blocks, kb.2.core ≠ 1) ∧ ∃ s : State, (s.core 0).newmap = some 3 ∧ ∃ kb ∈ s.blocks, kb.2.core = 0 := by
  refine ⟨⟨((resting id).modCore 1 fun c => { c with newmap := some 3 }).modHub fun h => { h with offers := [1] }, ⟨rfl, rfl, ?_⟩, (fun h => by cases h.2.1), rfl,
      fun q n => calm_starving [] (by decide +kernel) q n (by simp)⟩, ⟨resting id, ⟨rfl, rfl, ?_⟩, by decide⟩,
    ⟨_, ⟨0, 0, 0, 0, [0], []⟩, walking_record, ?_, ?_, ?_, ?_, ?_, ?_, ?_, ?_, ?_, ?_, ?_, ?_, ?_, ?_,
      fun q m hm => calm_starving [1] (by decide +kernel) q m (by simpa using hm), ?_⟩,
    ⟨(resting id).modCore 1 fun c => { c with newmap := some 3 }, rfl, ?_⟩, ⟨(resting id).modCore 0 fun c => { c with newmap := some 3 }, rfl, ?_⟩⟩
  all_goals first
    | decide +kernel
    | (unfold TakesWork; decide +kernel)
    | (unfold NoEntries; decide +kernel)

/-- Queue 0 starved, cluster 5 at an empty queue 3. -/
def starvedState : State :=
  ((resting id).modHub fun h => { h with queues := [(0, ⟨16, none, 0, 1, 0, [1, 2], 0, []⟩)] }).modCluster 5 fun c => { c with queue := 3 }

/-- Launch 1 starves on core 0, which launch 0 without a deadline fills; no other core takes work from its queue. -/
def crowded : State :=
  let s := (walking false).modTeam 0 fun t => { t with wait := some .grid }
  let s : State := { s with time := 60000, clusters := s.clusters.map fun kc => if kc.1 = 0 then kc else (kc.1, { kc.2 with queue := 1 }) }
  { s with cores := s.cores.map fun kc => if 1 ≤ kc.1 ∧ kc.1 < 4 then (kc.1, { kc.2 with newmap := some 0 }) else kc }

/-- A block of launch 0 evicted with an armed monitor and no monitor entry. -/
def anEvicted : Evicted :=
  { launch := 0, index := 0, image := 0x1000000, bytes := 0, core := 0, base := 0, offset := 0, evicted := 0, ctx := 0, barriers := [], ready := true, exited := []
    monitors := [(0, { Monitor.clear with armed := true })], ldclks := [], waits := [], phases := [], dues := [], banks := [], monEntries := [], nextSpur := 64000
    spurious := false, since := none }

theorem placeable_of {s : State} {l : Launch} (h : (!l.ended && match s.instanceOf l with | none => true | some x => !x.2.stopped) = true) : Placeable s l := by
  refine ⟨by revert h; cases l.ended <;> simp, fun x hx => ?_⟩
  simp [hx] at h
  exact h.2

theorem crowded_only {q n : Nat} (h : Starving crowded q n) : q = 0 ∧ n = 1 := by
  have hn : n = 1 := Classical.byContradiction fun hn => calm_starving [1] (by decide +kernel) q n (by simpa using hn) h
  have hq : ((List.range 64).all fun q => q == 0 || (crowded.queue q).records.isEmpty) = true := by decide +kernel
  have h1 := List.all_eq_true.1 hq q (List.mem_range.2 h.1)
  refine ⟨?_, hn⟩
  rcases Bool.or_eq_true_iff.1 h1 with h2 | h2
  · exact eq_of_beq h2
  · have h3 := h.2.1; rw [List.isEmpty_iff.1 h2] at h3; exact absurd h3 (by simp)

theorem witness_WalkerClock :
    (∀ q, q < 64 → ¬ Starved (resting id) q) ∧
    (Starved starvedState 0 ∧ (∀ q, q < 64 → q ≠ 0 → ¬ Starved starvedState q) ∧ MayDonate starvedState 0 5 ∧ ∀ c', c' < 5 → ¬ MayDonate starvedState 0 c') ∧
    (∃ s : State, Starved s 0 ∧ (∀ q, q < 64 → q ≠ 0 → ¬ Starved s q) ∧ ∀ c, c < 64 → ¬ MayDonate s 0 c) ∧
    (∃ s : State, (s.cluster 0).moving = some 3 ∧ ∃ kb ∈ s.blocks, kb.2.core / 4 = 0 ∧ (s.launch kb.2.launch).map (·.queue) = some (s.cluster 0).queue) ∧
    (∃ s : State, (s.cluster 5).moving = some 3 ∧ ∀ kb ∈ s.blocks, kb.2.core / 4 ≠ 5) ∧
    (QuietHub (resting id) ∧ ∀ q n, ¬ Starving (resting id) q n) ∧
    (∃ l, QuietHub crowded ∧ Starving crowded 0 1 ∧ crowded.launch 1 = some l ∧ (crowded.queue 0).records.filter (· == 1) = [1] ∧
      (∀ q' n', Starving crowded q' n' → q' = 0 ∧ n' = 1) ∧ evictionFor crowded 0 (.place 1) = some [0] ∧ (crowded.blocks.map (·.1)).Nodup) ∧
    (∃ (s : State) (e : Evicted), s.hub.evicted.find 0 = some e ∧ (∃ m ∈ e.monitors, m.1 ∉ e.monEntries) ∧ e.nextSpur ≤ s.time) ∧
    (∃ (s : State) (i : Instance), s.hub.instances.find 0 = some i ∧ (∀ x ∈ i.stopping, s.time < x.1 + 1000000000) ∧ i.stopping ≠ []) ∧
    ∃ (s : State) (i : Instance), s.hub.instances.find 0 = some i ∧ (∃ x ∈ i.stopping, x.1 + 1000000000 ≤ s.time) ∧
      ∃ kb ∈ s.blocks, ∃ l, s.launch kb.2.launch = some l ∧ l.tag = 0 ∧ l.graph = i.graph := by
  let x := fun (s : State) => s.modHub fun h => { h with instances := [(0, ⟨0, 0, 0, 0, 0, [], false, [(0, 1)], true, 0x1000000, 4, []⟩)] }
  refine ⟨?_, ⟨?_, ?_, ?_, ?_⟩, ⟨(resting id).modHub fun h => { h with queues := [(0, ⟨16, none, 0, 1, 0, [1, 2], 0, []⟩)] }, ?_, ?_, ?_⟩,
    ⟨(resting id).modCluster 0 fun c => { c with moving := some 3 }, rfl, _, List.mem_cons_self .., ?_, ?_⟩,
    ⟨(resting id).modCluster 5 fun c => { c with moving := some 3 }, rfl, ?_⟩, ⟨⟨rfl, rfl, ?_⟩, fun q n => calm_starving [] (by decide +kernel) q n (by simp)⟩,
    ⟨_, ⟨rfl, rfl, ?_⟩, ⟨by decide, ?_, _, rfl, placeable_of ?_, ?_, ?_⟩, rfl, ?_, fun q' n' h => ?_, ?_, ?_⟩,
    ⟨{ (resting id).modHub fun h => { h with evicted := [(0, anEvicted)] } with time := 64000 }, _, rfl, ?_, ?_⟩,
    ⟨x (walking false), _, rfl, ?_, nofun⟩, ⟨{ x (walking false) with time := 1000000000 }, _, rfl, ?_, _, List.mem_cons_self .., _, rfl, ?_, ?_⟩⟩
  all_goals first
    | exact crowded_only h
    | decide +kernel
    | (unfold Starved; decide +kernel)
    | (unfold MayDonate; decide +kernel)
    | (unfold NoEntries; decide +kernel)


/-- Folding what nothing has been logged changes nothing. -/
theorem foldAcross_idle (s : State) (sel : Nat → Core → LogEntry → Bool) (h : ∀ kc ∈ s.cores, kc.2.log = []) : foldAcross s sel = s := by
  have go : ∀ l : Table Core, (∀ kc ∈ l, kc.2.log = []) → l.foldl (fun s kc => if kc.2.log.isEmpty then s else foldSome s kc.1 (sel kc.1 kc.2)) s = s := by
    intro l
    induction l with
    | nil => intro _; rfl
    | cons a l ih =>
      intro h
      rw [List.foldl_cons, h a (List.mem_cons_self ..)]
      exact ih fun kc hk => h kc (List.mem_cons_of_mem _ hk)
  exact go _ h

/-- Cores, clusters and contexts of one state are another's. -/
def SameUnits (s s' : State) : Prop := s'.cores = s.cores ∧ s'.clusters = s.clusters ∧ s'.contexts = s.contexts

theorem settle_idle (s : State) (h : ∀ kc ∈ s.cores, kc.2.log = []) (xs : List Nat) : xs.foldl settleSector s = s := by
  induction xs with
  | nil => rfl
  | cons x xs ih => rw [List.foldl_cons, show settleSector s x = s from foldAcross_idle s _ h]; exact ih

theorem wake_units (xs : List Nat) : ∀ s : State, SameUnits s (xs.foldl wakeMonitors s) := by
  induction xs with
  | nil => exact fun s => ⟨rfl, rfl, rfl⟩
  | cons x xs ih => exact fun s => ih (wakeMonitors s x)

/-- With nothing logged a home-slice write touches no unit. -/
theorem homeWrite_units (s : State) (h : ∀ kc ∈ s.cores, kc.2.log = []) (pa : Nat) (bs : List Byte) (pois : Bool) : SameUnits s (homeWrite s pa bs pois) := by
  unfold homeWrite
  simp only [settle_idle s h]
  split
  · exact ⟨rfl, rfl, rfl⟩
  · exact wake_units _ _

/-- The translation of `flatPage` is held on core 0, and nothing logged. -/
def Flat (s : State) : Prop := (∀ kc ∈ s.cores, kc.2.log = []) ∧ (s.core 0).tlb = [flatPage] ∧ (s.context 0).xasid = 0

theorem flat_translates (s : State) (h : Flat s) (va : Nat) (k : AccessKind) (hv : va < 2 ^ 30) (hk : k = .store ∨ k = .load) :
    translateNow s 0 0 va .s k = (s, .ok (va, 0)) := by
  have hc : va / 2 ^ 30 = 0 := Nat.div_eq_of_lt hv
  have hf : lookupTlb s 0 0 va = some flatPage := by
    simp [lookupTlb, h.2.1, h.2.2, TlbEntry.covers, flatPage, hc, show va < 1073741824 from hv]
  have hp : flatPage.check .s k = none := by rcases hk with rfl | rfl <;> rfl
  have ht : Machine.translate s 0 0 va .s k = .hit va 0 false := by
    unfold Machine.translate
    rw [if_neg (by omega), hf]
    simp only [hp]
    simp [flatPage]
  unfold translateNow
  rw [ht]

theorem flat_spills (cs : List (List Byte × Bool)) : ∀ (fuel : Nat) (s : State) (va : Nat), Flat s → cs.length ≤ fuel → va + 32 * cs.length ≤ 2 ^ 30 →
    (spillWrite 0 0 fuel s va cs).2 = true ∧ Flat (spillWrite 0 0 fuel s va cs).1 := by
  induction cs with
  | nil => intro fuel s va h _ _; cases fuel <;> exact ⟨rfl, h⟩
  | cons c cs ih =>
    intro fuel s va h hf hv
    cases fuel with
    | zero => simp at hf
    | succ n =>
      simp only [List.length_cons] at hf hv
      unfold spillWrite
      rw [flat_translates s h va .store (by omega) (.inl rfl)]
      have hw : whereIs va = .hbm := by
        unfold whereIs
        rw [if_pos (Nat.lt_trans (show va < 2 ^ 30 by omega) (by decide))]
      simp only [hw]
      have hu := homeWrite_units s h.1 va c.1 c.2
      refine ih n _ _ ⟨?_, ?_, ?_⟩ (by omega) (by omega)
      · rw [hu.1]; exact h.1
      · have := h.2.1; unfold State.core at this ⊢; rw [hu.1]; exact this
      · have := h.2.2; unfold State.context at this ⊢; rw [hu.2.2]; exact this

/-- Block 0 of 2 KiB, its team at a grid barrier, about to leave. -/
def evicting (leaving : Bool) (w : Option Wait) : State :=
  let s := (walking false).modTeam 0 fun t => { t with wait := w }
  let s := s.modBlock 0 fun b => { b with size := 2048, leaving := leaving }
  s.modLaunch 0 fun l => { l with gridArr := [(0, 0, 0)], alloc := 1 }

theorem evicting_flat : Flat (evicting true (some .grid)) := ⟨by decide +kernel, by decide +kernel, by decide +kernel⟩

theorem resumes {s : State} {ek : Nat} {e : Evicted} {l : Launch} {p : Spot} {q : Nat} (hq : (s.cluster (clusterOf 1)).queue = q) (hw : workOf s q = [.resume ek])
    (ho : coreOpen s 1 = true) (hd : decides s 1 [.resume ek] = some (.resume ek)) (hc : (Work.resume ek).carve s = (s.core 1).carve)
    (he : s.hub.evicted.find ek = some e) (hl : s.launch e.launch = some l) (hlc : l.cores = false)
    (hp : spotOn s 1 l.ctx (l.shape s) [] none = some p) (hn : (s.cluster (clusterOf 1)).table.length + (s.home.byte (e.image + 3136 + 5)).toNat ≤ 16)
    (hs : (resumeAt s ek 1 e l p).isSome = true) : ∃ s1, resumeAt s ek 1 e l p = some s1 ∧ offerCore s 1 = some (.resume ek, s1) := by
  obtain ⟨s1, h1⟩ := Option.isSome_iff_exists.1 hs
  refine ⟨s1, h1, ?_⟩
  have ha : (Work.resume ek).perform s 1 = some s1 := by
    unfold Work.perform
    simp only [he, hl, Option.bind_some, Option.map_some, hlc]
    unfold resumeOn
    simp only [he, hl, ho, hp]
    have h3 : ¬ (16 < (s.cluster (clusterOf 1)).table.length + (s.home.byte (e.image + 3136 + 5)).toNat) := by omega
    simp [h3, h1]
  unfold offerCore
  simp only [hq, hw, ho, hd, hc]
  simp [heldWork, firstWork, ha]

theorem find_in {α : Type} {k : Nat} {v : α} : ∀ {t : Table α}, t.find k = some v → (k, v) ∈ t
  | (a, w) :: t, h => by
    unfold Table.find at h
    split at h
    · next hk => cases h; rw [hk]; exact List.mem_cons_self ..
    · exact List.mem_cons_of_mem _ (find_in h)

theorem flat_room {s : State} (h : Flat s) {b : Block} (hc : b.core = 0) (tag : Nat) : detachRoom s 0 b tag = true := by
  have hl : (s.core 0).log = [] := by
    unfold State.core
    cases hf : s.cores.find 0 with
    | none => rfl
    | some c =>
      exact h.1 (0, c) (find_in hf)
  simp [detachRoom, Core.spilled, hc, hl]

theorem ready_of {s : State} (h : ∀ kc ∈ s.cores, kc.2.log = []) (hd : s.hub.dead = []) : readyOffers s = raiseRunnable s := by
  unfold readyOffers
  rw [syncDevice_idle s h]
  unfold killDoomed
  rw [hd]
  rfl

theorem ready_idle (s : State) (h : ∀ kc ∈ s.cores, kc.2.log = []) (hd : s.hub.dead = []) (he : s.hub.evicted = []) : readyOffers s = s := by
  rw [ready_of h hd]; unfold raiseRunnable; rw [he]; rfl

/-- An evicted block that has been runnable since time 0 offers nothing anew. -/
theorem ready_once (s : State) (h : ∀ kc ∈ s.cores, kc.2.log = []) (hd : s.hub.dead = []) (e : Evicted) (he : s.hub.evicted = [(0, e)])
    (hr : evictedRuns s 0 e = e.since.isSome) : readyOffers s = s := by
  rw [ready_of h hd]; unfold raiseRunnable; rw [he]
  simp [hr]

/-- A block evicted and runnable, and an offer to core 1. -/
def evictedState : State :=
  (evicting true none).modHub fun h => { h with evicted := [(0, { anEvicted with since := some 0 })], queues := [], offers := [1] }

theorem witness_EvictionAndReturn :
    (let s := evicting true (some .grid)
     ∃ (b : Block) (l : Launch) (i : Instance) (s1 : State), s.block 0 = some b ∧ s.launch b.launch = some l ∧ l.cores = false ∧ s.instanceOf l = some (0, i) ∧
      s.hub.instances.find 0 = some i ∧ (∀ ki ∈ s.hub.instances, ki.2.stopping = []) ∧ b.leaving = true ∧ evictable s 0 b = true ∧
      drainedForEviction s 0 b = true ∧ (∀ kt ∈ s.teams, kt.2.block = 0 → teamWakes s kt.1 kt.2 = false) ∧ (s.teams.map (·.1)).Nodup ∧
      imageSpot i (imageSize b) = some 0 ∧ (s.core b.core).banks = [] ∧ (s.core b.core).holds = [] ∧
      detachRoom s1 0 b (s.tagOn b.core l.ctx) = true ∧ (∀ q ∈ (s.cluster (b.core / 4)).table, q.2.block ≠ 0) ∧
      spillWrite b.core l.ctx ((blockImage s 0 b l).length + 1) s (i.spillVa + 0) (blockImage s 0 b l) = (s1, true) ∧
      translateNow s1 b.core l.ctx (i.spillVa + 0) .s .store = (s1, .ok (0x1000000, 0)) ∧ ∀ kc ∈ s.cmds, kc.2.block ≠ 0) ∧
    (let s := evicting true none
     ∃ b, s.block 0 = some b ∧ b.leaving = true ∧ evictable s 0 b = false) ∧
    (∃ (b : Block) (i : Instance), (evicting false none).block 0 = some b ∧ b.leaving = false ∧ (evicting false none).hub.instances.find 0 = some i ∧ i.stopped = false) ∧
    (readyOffers (resting id) = resting id ∧ (resting id).hub.offers.head? ≠ some 1) ∧
    (let s := evictedState
     ∃ (s1 : State) (e : Evicted) (l : Launch) (p : Spot) (i : Instance) (xs : List (List Byte × Bool)), readyOffers s = s ∧ s.hub.offers.head? = some 1 ∧ offerCore (tookOffer s) 1 = some (.resume 0, s1) ∧
      resumeAt (tookOffer s) 0 1 e l p = some s1 ∧ s.instanceOf l = some (0, i) ∧ (imageChunks 1 l.ctx (i.spillVa + e.offset) ((e.bytes + 31) / 32) s).2 = some xs ∧
      e.spurious = false ∧ (l.shape s).teams ≤ (freeContexts s 1).length ∧ p.tbases.length = (l.shape s).teams ∧ (l.shape s).lanes ≤ 1024 ∧
      (l.shape s).vregs ≤ 128 ∧ 0 < (l.shape s).teams) := by
  have hf := evicting_flat
  refine ⟨?_, ⟨_, rfl, rfl, by decide +kernel⟩, ⟨_, _, rfl, rfl, rfl, rfl⟩, ⟨ready_idle _ (by decide +kernel) rfl rfl, by decide⟩, ?_⟩
  · have hx : ∃ b l i, (evicting true (some .grid)).block 0 = some b ∧ (evicting true (some .grid)).launch b.launch = some l ∧
        (evicting true (some .grid)).hub.instances.find 0 = some i ∧ b.core = 0 ∧ l.ctx = 0 ∧ i.spillVa = 0x1000000 ∧
        (blockImage (evicting true (some .grid)) 0 b l).length ≤ 10000 ∧ l.cores = false ∧ b.leaving = true ∧ i = ⟨0, 0, 0, 0, 0, [], false, [], true, 0x1000000, 4, []⟩ ∧
        evictable (evicting true (some .grid)) 0 b = true ∧ drainedForEviction (evicting true (some .grid)) 0 b = true ∧ imageSpot i (imageSize b) = some 0 :=
      ⟨_, _, _, rfl, rfl, rfl, rfl, rfl, rfl, by decide +kernel, rfl, rfl, rfl, by decide +kernel, by decide +kernel, by decide +kernel⟩
    obtain ⟨b, l, i, hb, hl, hi, hc, hx, hv, hn, hlc, hbl, hie, he, hd, hs⟩ := hx
    have hw := flat_spills (blockImage (evicting true (some .grid)) 0 b l) _ (evicting true (some .grid)) 0x1000000 hf (Nat.le_succ _) (by omega)
    refine ⟨b, l, i, (spillWrite 0 0 ((blockImage (evicting true (some .grid)) 0 b l).length + 1) (evicting true (some .grid)) 0x1000000 (blockImage (evicting true (some .grid)) 0 b l)).1, hb, hl, hlc, ?_, hi, by decide +kernel, hbl, he, hd, by decide +kernel, by decide +kernel, hs, by rw [hc]; decide +kernel,
      by rw [hc]; decide +kernel, flat_room hw.2 hc _, by rw [hc]; decide +kernel, ?_, ?_, by decide +kernel⟩
    · have : l = ((evicting true (some .grid)).launch 0).getD l := by
        have h0 : b.launch = 0 := by
          have : ((evicting true (some .grid)).block 0).map (·.launch) = some 0 := by decide +kernel
          rw [hb] at this; exact Option.some.inj this
        rw [h0] at hl; rw [hl]; rfl
      have : (evicting true (some .grid)).launch 0 = some l := by
        have h0 : b.launch = 0 := by
          have : ((evicting true (some .grid)).block 0).map (·.launch) = some 0 := by decide +kernel
          rw [hb] at this; exact Option.some.inj this
        rw [h0] at hl; exact hl
      have hm : ((evicting true (some .grid)).launch 0).bind (evicting true (some .grid)).instanceOf = some (0, ⟨0, 0, 0, 0, 0, [], false, [], true, 0x1000000, 4, []⟩) := by
        decide +kernel
      rw [this] at hm; rw [hie]; exact hm
    · rw [hc, hx, hv]; exact Prod.ext rfl hw.1
    · rw [hc, hx, hv]; exact flat_translates _ hw.2 _ _ (by decide) (.inl rfl)
  · have hk := resumes (s := tookOffer evictedState) (ek := 0) (q := 0)
      (e := { anEvicted with since := some 0 }) (p := ⟨0, 0, 0, 0, [0], []⟩) rfl (by decide +kernel) (by decide +kernel) (by decide +kernel) (by decide +kernel) rfl rfl rfl
      (by decide +kernel) (by decide +kernel) (by decide +kernel)
    obtain ⟨s1, h1, h2⟩ := hk
    exact ⟨s1, _, _, _, _, [], ready_once _ (by decide +kernel) rfl { anEvicted with since := some 0 } rfl (by decide +kernel), rfl, h2, h1, rfl, rfl, rfl, by and_intros <;> decide +kernel⟩


/-- `walking` with a `SPAWN` or `HPASS` of team 0 waiting at the walker, for node 0 and the number `n`. -/
def ordering (spawn : Bool) (n : Nat) : State :=
  let s := (walking false).modHub fun h => { h with
    walk := [⟨0, if spawn then .spawn 0 else .pass 0⟩], queues := [(0, ⟨16, some 0x3000000, 0, 0, 0, [1], 0, []⟩)] }
  let s := { s with cmds := [(0, { aCmd (if spawn then .spawn else .hpass) with index := [0, 0, n, 9, 64] })] }
  s.modLaunch 1 fun l => { l with id := 5 }

/-- What `WalkerOrder` supposes of it. -/
def OrderCase (s : State) (p : Cmd → Launch → Instance → Prop) : Prop :=
  ∃ (c : Cmd) (t : Team) (l0 : Launch) (i : Instance), s.hub.dead = [] ∧ NoEntries s ∧ (∀ kq ∈ s.hub.queues, kq.2.waiters = []) ∧ s.cmd 0 = some c ∧
    c.fault = none ∧ c.localDone = false ∧ s.team c.team = some t ∧ Idle t ∧ t.wait = none ∧ s.launch c.launch = some l0 ∧
    s.instanceOf l0 = some (0, i) ∧ i.stopped = false ∧ p c l0 i

/-- `heldTile` in slot 3 of core 0, after its block's exit. -/
def holding (e : Option Nat) (now : Nat) : State :=
  { (walking false).modCore 0 fun c => { c with holds := [(3, { heldTile with exitAt := e })] } with time := now }

theorem witness_WalkerOrder :
    (∃ s : State, s.hub.walk = [] ∧ ∀ kq ∈ s.hub.queues, kq.2.waiters = []) ∧
    (let s := ordering true 7
     OrderCase s (fun c _ i => s.hub.walk = [⟨0, .spawn 0⟩] ∧ s.hub.passed = [] ∧ s.hub.nextLaunch ≠ c.launch ∧
       (makeLaunch s i (c.index.getD 1 0) (c.index.getD 2 0) 1 (BitVec.ofNat 64 (c.index.getD 3 0)) (BitVec.ofNat 64 (c.index.getD 4 0)) (BitVec.ofNat 64 (c.index.getD 0 0))).queue = c.dev ∧
       (s.queue c.dev).records.length < (s.queue c.dev).size ∧ c.block < noBlock ∧ (s.queue c.dev).base = some 0x3000000)) ∧
    (let s := ordering false 7
     OrderCase s (fun c l0 _ => s.hub.walk = [⟨0, .pass 0⟩] ∧ ∀ kl ∈ s.launches, ¬ (kl.2.id = launchId l0.tag (c.index.getD 1 0) (c.index.getD 2 0) ∧ kl.2.accepted ≠ 0))) ∧
    (let s := ordering false 5
     OrderCase s (fun c l0 _ => s.hub.walk = [⟨0, .pass 0⟩] ∧ ∃ l,
       s.launches.filter (fun kl => kl.2.id == launchId l0.tag (c.index.getD 1 0) (c.index.getD 2 0) && kl.2.accepted != 0) = [(1, l)] ∧ s.launch 1 = some l ∧
       l.ended = false ∧ l.next = 0 ∧ l.handle = 0)) ∧
    ((walking false).core 0).holds.find 3 = none ∧
    (∃ h, ((holding none 0).core 0).holds.find 3 = some h ∧ h.exitAt = none) ∧ (∃ h, ((holding (some 0) 5).core 0).holds.find 3 = some h ∧ h.exitAt = some 0 ∧
      (holding (some 0) 5).time < 0 + (holding (some 0) 5).hub.holdTime) ∧
    (let s := holding (some 0) 60000000
     ∃ h s1, (s.core 0).holds.find 3 = some h ∧ h.exitAt = some 0 ∧ 0 + s.hub.holdTime ≤ s.time ∧ spillHold s 0 h = (s1, some 0x1000000) ∧
       ∀ kl ∈ s1.launches, kl.2.handle = BitVec.ofNat 64 (2 ^ 62 + 0 * 2 ^ 54 + 3 * 2 ^ 48 + h.serial % 2 ^ 48) → kl.2.next = 0) := by
  refine ⟨⟨resting id, rfl, ?_⟩, ⟨_, _, _, _, rfl, ?_, ?_, rfl, rfl, rfl, rfl, ⟨rfl, rfl, rfl, rfl⟩, rfl, rfl, rfl, rfl, rfl, rfl, ?_, ?_, ?_, ?_, rfl⟩,
    ⟨_, _, _, _, rfl, ?_, ?_, rfl, rfl, rfl, rfl, ⟨rfl, rfl, rfl, rfl⟩, rfl, rfl, rfl, rfl, rfl, ?_⟩,
    ⟨_, _, _, _, rfl, ?_, ?_, rfl, rfl, rfl, rfl, ⟨rfl, rfl, rfl, rfl⟩, rfl, rfl, rfl, rfl, rfl, _, rfl, rfl, ?_, ?_, ?_⟩, rfl, ⟨_, rfl, rfl⟩, ⟨_, rfl, rfl, ?_⟩,
    ⟨_, _, rfl, rfl, ?_, Prod.ext rfl ?_, ?_⟩⟩
  all_goals first
    | decide +kernel
    | (unfold NoEntries; decide +kernel)

/-! ### Hypotheses met: the host -/

/-- A record: byte `p.1` holds `p.2`, the others zero, and the CRC. -/
def aRecord (ps : List (Nat × Nat)) : List Byte :=
  let b := (List.range 60).map fun j => BitVec.ofNat 8 (((ps.find? fun p => p.1 == j).map (·.2)).getD 0)
  b ++ leBytes 4 (crc32c b).toNat

/-- The channel is open and the device reads this record next; its completion ring lies at 1 MiB of host memory. -/
def hosted (s : State) (r : List Byte) : State :=
  s.modModule fun m => { m with channel := true, sqTail := 1, sq := Sparse.setAll 0#8 [] id (fun i => r.getD i 0#8) (List.range 64), cqBase := 0x100000 }

theorem only_of {r : List Byte} {tagged : Bool} {used : List (Nat × Nat)} (h : ((List.range 60).all fun j => j == 0 || (decide (8 ≤ j) && decide (j < 16)) ||
    (tagged && decide (2 ≤ j) && decide (j < 4)) || (used.any fun u => decide (u.1 ≤ j) && decide (j < u.1 + u.2)) || r.getD j 0#8 == 0#8) = true) :
    OnlyOperands r tagged used := by
  intro j h1 h60 h8 ht hu
  have hj := List.all_eq_true.1 h j (List.mem_range.2 h60)
  simp only [Bool.or_eq_true, beq_iff_eq, Bool.and_eq_true, decide_eq_true_eq, List.any_eq_true] at hj
  rcases hj with (((h0 | h0) | h0) | ⟨u, hm, h0⟩) | h0
  · omega
  · exact absurd h0 h8
  · exact absurd ⟨h0.1.2, h0.2⟩ (ht h0.1.1)
  · exact absurd h0 (hu u hm)
  · exact h0

theorem reads_of {s : State} {r : List Byte} (h : s.module.channel = true ∧ s.module.sqHead ≠ s.module.sqTail ∧ 1024 ≤ s.module.cqSize ∧
    s.module.cqTail < s.module.cqSize ∧ s.module.cqHead < s.module.cqSize ∧ (s.module.cqTail + 1) % s.module.cqSize ≠ s.module.cqHead ∧
    r = (List.range 64).map (fun j => Sparse.get 0#8 s.module.sq (64 * s.module.sqHead + j)) ∧ (crc32c (r.take 60)).toNat = Claims.field r 60 4 ∧
    ∀ p ∈ s.module.pending, p.seq < s.journal.next) : Reads s r := h

theorem quiet_pending {s : State} (h : s.module.pending = []) : ¬ Checkpointing s ∧ ∀ p ∈ s.module.pending, p.started = true := by
  unfold Checkpointing; rw [h]; exact ⟨fun h => (List.not_mem_nil h.choose_spec.1), nofun⟩

/-- A record that `hosted` reads, of a code, with the operands it may have. -/
def HostCase (s : State) (code : Nat) (tagged : Bool) (used : List (Nat × Nat)) (r : List Byte) : Prop :=
  ReadsCommand (hosted s r) code r ∧ OnlyOperands r tagged used

theorem witness_HostRefusals :
    (resting id).module.channel = false ∧
    (∃ r, Reads (hosted (resting id) r) r ∧ Claims.field r 0 1 = 0) ∧ (∃ r, Reads (hosted (resting id) r) r ∧ 1 ≤ Claims.field r 0 1 ∧ Claims.field r 0 1 ≤ 9) ∧
    (∃ r : List Byte, (hosted (resting id) r).module.channel = true ∧ (hosted (resting id) r).module.sqHead ≠ (hosted (resting id) r).module.sqTail ∧
      r = (List.range 64).map (fun j => Sparse.get 0#8 (hosted (resting id) r).module.sq (64 * (hosted (resting id) r).module.sqHead + j)) ∧
      (crc32c (r.take 60)).toNat ≠ Claims.field r 60 4) ∧
    (∃ r, Sequenced 8 .setseed ∧ ReadsCommand (hosted (resting id) r) 8 r ∧ Claims.field r 4 4 ≠ 0) ∧
    (∃ r, Reads (hosted (resting id) r) r ∧ Claims.field r 4 4 ≠ 0 ∧ Claims.field r 0 1 = 5) ∧
    ∃ r, Reads (hosted (resting id) r) r ∧ Claims.field r 4 4 ≠ 0 ∧ Claims.field r 0 1 = 4 ∧ (hosted (resting id) r).module.recovery = false := by
  refine ⟨rfl, ⟨aRecord [], reads_of ?_, ?_⟩, ⟨aRecord [(0, 8)], reads_of ?_, ?_⟩, ⟨List.replicate 64 1, rfl, ?_, ?_, ?_⟩,
    ⟨aRecord [(0, 8), (4, 1)], .inr (.inr (.inr ⟨rfl, rfl⟩)), ⟨reads_of ?_, ?_, rfl, quiet_pending rfl⟩, ?_⟩, ⟨aRecord [(0, 5), (4, 1)], reads_of ?_, ?_, ?_⟩,
    ⟨aRecord [(0, 4), (4, 1)], reads_of ?_, ?_, ?_, rfl⟩⟩
  all_goals decide +kernel

/-- A kernel image of one team of 32 lanes and a text of one packet, with its signature's room. -/
def anImage : List Byte :=
  let ps : List (Nat × Nat) := [(0, 1), (2, 0x52), (3, 0x4B), (4, 64), (5, 1), (8, 1), (10, 32), (12, 1), (13, 120), (33, 1), (36, 12)]
  (List.range 320).map (fun j => BitVec.ofNat 8 (((ps.find? fun p => p.1 == j).map (·.2)).getD 0)) ++ List.replicate 16224 0#8

/-- `walking` with a graph image of one node at 0x9000, and no instance. -/
def graphed (running : Option Bool) : State :=
  ((walking false).modHome fun h => { h with mem := Sparse.set 0#8 h.mem 0x9004 1 }).modHub fun h => { h with
    images := h.images.put 2 { kind := 2, dpa := 0x9000, size := 4096, ctx := 0, datava := 0 }
    instances := match running with
      | none => []
      | some x => [(0, ⟨0, 0, 0, 0, 0, [], false, [], x, 0x1000000, 4, []⟩)] }

/-- The record of a `LOAD` of `anImage` as a kernel at 0x20000. -/
def loadRecord : List Byte := aRecord [(0, 1), (24, 160), (25, 64), (28, 1), (34, 2)]

theorem reads_load : Reads (hosted (graphed none) loadRecord) loadRecord := reads_of (by decide +kernel)

theorem images_few : (graphed none).hub.images.length < 4096 := by decide +kernel

theorem load_apart : (∀ x ∈ (graphed none).hub.images, Claims.field loadRecord 32 8 + Claims.field loadRecord 24 4 ≤ x.2.dpa ∨ x.2.dpa + x.2.size ≤ Claims.field loadRecord 32 8) ∧
    BesideRing (hosted (graphed none) loadRecord) (Claims.field loadRecord 16 8) anImage.length ∧ NoEntries (hosted (graphed none) loadRecord) := by
  refine ⟨by decide +kernel, by unfold BesideRing; decide +kernel, by unfold NoEntries; decide +kernel⟩

/-- A device that writes a checkpoint and reads this record next. -/
def checking (r : List Byte) : State :=
  let s := (hosted (resting id) r).modModule fun m => { m with pending := [⟨aRecord [(0, 6)], 0, 0, true, ⟨[], 0, none⟩⟩] }
  { s with journal := { s.journal with next := 1 } }

theorem witness_HostCommands (key : List Byte) (hk : Config.slhVerify key (anImage.take (anImage.length - 16224)) (anImage.drop (anImage.length - 16224)) = true) :
    (∃ r, let s := checking r; Reads s r ∧ Claims.field r 0 1 = 8 ∧ s.module.recovery = false ∧ OnlyOperands r false [(16, 2), (24, 8)] ∧ Checkpointing s) ∧
    (∃ r, HostCase (resting id) 8 false [(16, 2), (24, 8)] r) ∧
    (∃ r, HostCase (resting id) 3 false [(16, 1), (32, 8), (40, 4)] r ∧ Claims.field r 16 1 = 1 ∧ Claims.field r 32 8 % 4 = 0 ∧ Claims.field r 32 8 + 4 ≤ hbmTop ∧ NoEntries (hosted (resting id) r)) ∧
    (∃ r, HostCase (resting id) 3 true [(20, 2), (22, 4), (26, 4), (30, 1)] r ∧ Claims.field r 16 1 = 0 ∧ Claims.field r 30 1 ≤ 15 ∧ (resting id).hub.arrivals.length < 4096 ∧
      ∀ kl ∈ (resting id).launches, kl.2.id ≠ launchId (Claims.field r 2 2) (Claims.field r 20 2) (Claims.field r 22 4)) ∧
    (∃ r, HostCase (graphed (some false)) 4 true [] r ∧ ∀ i, (graphed (some false)).hub.instances.find (Claims.field r 2 2) = some i → i.running = false) ∧
    (∃ r i, HostCase (graphed (some true)) 4 true [] r ∧ (graphed (some true)).hub.instances = [(Claims.field r 2 2, i)] ∧ i.running = true ∧ i.stopping = [] ∧
      ∃ kb ∈ (graphed (some true)).blocks, ∃ l, (graphed (some true)).launch kb.2.launch = some l ∧ l.tag = Claims.field r 2 2 ∧ l.graph = i.graph) ∧
    (let s := (graphed none).modModule fun m => { m with imageKeys := [(0, key)] }
     ∃ r, HostCase s 1 false [(16, 8), (24, 4), (28, 1), (32, 8), (30, 2), (40, 8)] r ∧ Claims.field r 28 1 = 1 ∧ Claims.field r 16 8 % 64 = 0 ∧ anImage.length = Claims.field r 24 4 ∧
       16224 ≤ anImage.length ∧ Claims.field r 32 8 % 65536 = 0 ∧ Claims.field r 32 8 + Claims.field r 24 4 ≤ hbmTop ∧
       (∀ x ∈ s.hub.images, Claims.field r 32 8 + Claims.field r 24 4 ≤ x.2.dpa ∨ x.2.dpa + x.2.size ≤ Claims.field r 32 8) ∧ s.hub.images.length < 4096 ∧ BesideRing (hosted s r) (Claims.field r 16 8) anImage.length ∧
       NoEntries (hosted s r) ∧ (∃ k ∈ (hosted s r).module.imageKeys, Config.slhVerify k.2 (anImage.take (anImage.length - 16224)) (anImage.drop (anImage.length - 16224)) = true) ∧
       kernelRefusal anImage 1 = none ∧ (resting id).module.imageKeys = []) ∧
    ∃ r img, HostCase (graphed none) 2 true [(16, 4), (20, 2)] r ∧ Startable (graphed none) r img ∧ graphNodes (graphed none) img.dpa = 1 ∧
      nodeField (graphed none) img.dpa 0 16 4 = 0 := by
  refine ⟨⟨aRecord [(0, 8)], reads_of ?_, ?_, rfl, only_of ?_, _, List.mem_cons_self .., rfl, .inl ?_⟩, ⟨aRecord [(0, 8), (16, 1), (24, 9)], ⟨reads_of ?_, ?_, rfl, quiet_pending rfl⟩, only_of ?_⟩,
    ⟨aRecord [(0, 3), (16, 1), (33, 0x40), (40, 7)], ⟨⟨reads_of ?_, ?_, rfl, quiet_pending rfl⟩, only_of ?_⟩, ?_, ?_, ?_, ?_⟩,
    ⟨aRecord [(0, 3), (2, 5), (30, 3)], ⟨⟨reads_of ?_, ?_, rfl, quiet_pending rfl⟩, only_of ?_⟩, ?_, ?_, ?_, ?_⟩,
    ⟨aRecord [(0, 4)], ⟨⟨reads_of ?_, ?_, rfl, quiet_pending rfl⟩, only_of ?_⟩, ?_⟩, ⟨aRecord [(0, 4)], _, ⟨⟨reads_of ?_, ?_, rfl, quiet_pending rfl⟩, only_of ?_⟩, rfl, rfl, rfl, _, List.mem_cons_self .., _, rfl, ?_, rfl⟩,
    ⟨loadRecord, ⟨⟨reads_load, ?_, rfl, quiet_pending rfl⟩, only_of ?_⟩, ?_, ?_, ?_, ?_, ?_, ?_, load_apart.1, images_few, load_apart.2.1, load_apart.2.2,
      ⟨_, List.mem_cons_self .., hk⟩, ?_, rfl⟩,
    ⟨aRecord [(0, 2), (16, 2)], _, ⟨⟨reads_of ?_, ?_, rfl, quiet_pending rfl⟩, only_of ?_⟩, ⟨rfl, rfl, nofun, ?_, ?_⟩, ?_, ?_⟩⟩
  all_goals first
    | decide +kernel
    | (unfold NoEntries; decide +kernel)


/-- A query of selector `n` into host memory at 64 KiB, of 64 KiB and with COUNT 1 where a range is asked for. -/
def aQuery (n : Nat) : List Byte := aRecord ([(0, 9), (16, n), (26, 1), (34, 1)] ++ if 3 ≤ n then [(44, 1)] else [])

theorem witness_Queries (hc : Config.certificate.length ≤ 65456) :
    let ok := fun (n : Nat) (used : List (Nat × Nat)) => let r := aQuery n
      Reads (hosted (resting id) r) r ∧ Claims.field r 0 1 = 9 ∧ Claims.field r 24 8 % 64 = 0 ∧
        BesideRing (hosted (resting id) r) (Claims.field r 24 8) (Claims.field r 32 4) ∧ Claims.field r 16 1 = n ∧ OnlyOperands r false used
    (ok 0 [(16, 1), (24, 8), (32, 4)] ∧ 80 + Config.certificate.length ≤ Claims.field (aQuery 0) 32 4) ∧
    (ok 1 [(16, 1), (24, 8), (32, 4)] ∧ 576 ≤ Claims.field (aQuery 1) 32 4) ∧
    (ok 2 [(16, 1), (24, 8), (32, 4)] ∧ 16528 ≤ Claims.field (aQuery 2) 32 4 ∧ ∀ j, j < 8 → (((resting id).module.meas.find j).getD (zeroBytes 32)).length = 32) ∧
    (ok 3 [(16, 1), (24, 8), (32, 4), (36, 8), (44, 4)] ∧ Claims.field (aQuery 3) 44 4 = 1 ∧ Claims.field (aQuery 3) 36 8 = 0 ∧ (resting id).recorder.slots = []) ∧
    (ok 4 [(16, 1), (24, 8), (32, 4), (36, 8), (44, 4)] ∧ Claims.field (aQuery 4) 44 4 = 1 ∧ Claims.field (aQuery 4) 36 8 = 0 ∧ (resting id).capture.units = []) := by
  have h0 : Claims.field (aQuery 0) 32 4 = 65536 := by decide +kernel
  refine ⟨⟨⟨reads_of ?_, ?_, ?_, ?_, ?_, only_of ?_⟩, ?_⟩, ⟨⟨reads_of ?_, ?_, ?_, ?_, ?_, only_of ?_⟩, ?_⟩, ⟨⟨reads_of ?_, ?_, ?_, ?_, ?_, only_of ?_⟩, ?_, ?_⟩,
    ⟨⟨reads_of ?_, ?_, ?_, ?_, ?_, only_of ?_⟩, ?_, ?_, rfl⟩, ⟨⟨reads_of ?_, ?_, ?_, ?_, ?_, only_of ?_⟩, ?_, ?_, rfl⟩⟩
  case refine_7 => omega
  all_goals first
    | decide +kernel
    | (unfold BesideRing; decide +kernel)



/-- A good checkpoint at 2 MiB of host memory, of no byte of HBM and no state: its header, and the digest of no bytes. -/
def emptyCheckpoint : Sparse Byte :=
  [(0x200000, 1), (0x200001, 80), (0x200002, 75), (0x200003, 67), (0x200004, 1), (0x200034, 3), (0x200038, 227), (0x200039, 176), (0x20003A, 196),
    (0x20003B, 66), (0x20003C, 152), (0x20003D, 252), (0x20003E, 28), (0x20003F, 20), (0x200040, 154), (0x200041, 251), (0x200042, 244), (0x200043, 200),
    (0x200044, 153), (0x200045, 111), (0x200046, 185), (0x200047, 36), (0x200048, 39), (0x200049, 174), (0x20004A, 65), (0x20004B, 228), (0x20004C, 100),
    (0x20004D, 155), (0x20004E, 147), (0x20004F, 76), (0x200050, 164), (0x200051, 149), (0x200052, 153), (0x200053, 27), (0x200054, 120), (0x200055, 82),
    (0x200056, 184), (0x200057, 85), (0x200FFC, 12), (0x200FFD, 168), (0x200FFE, 174), (0x200FFF, 156)]

/-- The CRC register after the first 88 bytes of that header, and after each 143 zero bytes more. -/
def crcSteps : List Word := [
    0x56378C7B, 0xD88C4FB1, 0x805C789E, 0x68158C68, 0x9D2C14F3, 0xDC484DAD, 0x98D089EF, 0xE756EDA0, 0xC22D6A8C, 0x3498351E, 0x18A36454, 0x9F9E5124,
    0x2369EA05, 0x9A71146A, 0x858A2195, 0x58F8E3AD, 0x28659D1C, 0x5D7C8052, 0xF3FD94D7, 0xDE01210D, 0x6426001E, 0x61030591, 0xE467E849, 0x6C74DF85,
    0x086F54CC, 0x2A8C72E4, 0xDF06D43E, 0x5E2D9D56, 0x635157F3]

/-- Each of a list of registers is the one before after 143 zero bytes. -/
def stepsOk : List Word → Bool
  | c :: d :: cs => decide ((List.replicate 143 0#8).foldl (crcByte 0x82F63B78#32) c = d) && stepsOk (d :: cs)
  | _ => true

theorem steps_zero : ∀ cs : List Word, ∀ c : Word, stepsOk (c :: cs) = true →
    (List.replicate (143 * cs.length) 0#8).foldl (crcByte 0x82F63B78#32) c = (c :: cs).getLast (List.cons_ne_nil _ _)
  | [], _, _ => rfl
  | d :: cs, c, h => by
    simp only [stepsOk, Bool.and_eq_true, decide_eq_true_eq] at h
    rw [show 143 * (d :: cs).length = 143 + 143 * cs.length by simp; omega, ← List.replicate_append_replicate, List.foldl_append, h.1, steps_zero cs d h.2]
    exact (List.getLast_cons (List.cons_ne_nil _ _)).symm

theorem bytesAt_range (g : Nat → Byte) (n off k : Nat) (h : off + k ≤ n) : bytesAt ((List.range n).map g) off k = (List.range k).map fun i => g (off + i) := by
  have hl : (((List.range n).map g).drop off).length = n - off := by simp
  have hk : ((((List.range n).map g).drop off).take k).length = k := by rw [List.length_take, hl]; omega
  show _ ++ zeroBytes (k - ((((List.range n).map g).drop off).take k).length) = _
  rw [show k - ((((List.range n).map g).drop off).take k).length = 0 by rw [hk]; omega]
  refine (List.append_nil _).trans (List.ext_getElem (by rw [hk]; simp) ?_)
  intro i h1 h2
  simp

/-- The bytes of the header. -/
def headerByte (i : Nat) : Byte := Sparse.get 0#8 emptyCheckpoint (0x200000 + 0 + i)

theorem get_missing {m : Sparse Byte} {a : Nat} (h : ∀ kv ∈ m, kv.1 ≠ a) : Sparse.get 0#8 m a = 0#8 := by
  induction m with
  | nil => rfl
  | cons kv m ih =>
    have hn : ¬ (a = kv.1) := fun x => h kv (List.mem_cons_self ..) x.symm
    show (if a = kv.1 then kv.2 else Sparse.get 0#8 m a) = _
    rw [if_neg hn]
    exact ih fun x hx => h x (List.mem_cons_of_mem _ hx)

theorem headerByte_zero (i : Nat) (h : 88 ≤ i) (h' : i < 4092) : headerByte i = 0#8 := by
  have hk : ∀ kv ∈ emptyCheckpoint, kv.1 < 0x200058 ∨ 0x200FFC ≤ kv.1 := by decide
  exact get_missing fun kv hm => by have := hk kv hm; omega

theorem header_crc : (crc32c ((List.range 4092).map fun i => headerByte (0 + i))).toNat = fieldAt ((List.range 4096).map headerByte) 4092 4 := by
  have hs : (List.range 4092).map (fun i => headerByte (0 + i)) = (List.range 88).map headerByte ++ List.replicate (143 * 28) 0#8 := by
    refine List.ext_getElem (by simp) fun i h1 h2 => ?_
    rw [List.getElem_append]
    split
    · simp
    · simp only [List.getElem_map, List.getElem_range, List.getElem_replicate, Nat.zero_add]
      simp only [List.length_map, List.length_range] at *
      exact headerByte_zero i (by omega) h1
  have h0 : ((List.range 88).map headerByte).foldl (crcByte 0x82F63B78#32) 0xFFFFFFFF#32 = 1446481019#32 := by decide +kernel
  have hz := steps_zero (crcSteps.drop 1) 1446481019#32 (by decide +kernel)
  rw [show 143 * (crcSteps.drop 1).length = 143 * 28 from rfl] at hz
  unfold crc32c
  rw [hs, List.foldl_append, h0, hz]
  unfold fieldAt
  rw [bytesAt_range _ _ _ _ (by omega)]
  decide +kernel

/-- A record of `CKPT` or `RESTORE` for host memory at 2 MiB, with 2^63 bytes of room. -/
def ckptRecord (code : Nat) : List Byte := aRecord ([(0, code), (26, 32)] ++ if code = 6 then [(47, 128)] else [])

/-- The machine after reset with that checkpoint in host memory. -/
def checkpointed : State := hosted (State.reset.modModule fun m => { m with hostMem := emptyCheckpoint }) (ckptRecord 7)

theorem emptyCheckpoint_ok : checkpointOk checkpointed (ckptRecord 7) = true := by
  have ha : ckptAddr (ckptRecord 7) = 0x200000 := by decide +kernel
  have hm : ∀ w, targetMemory checkpointed (ckptRecord 7) w = emptyCheckpoint := fun _ => if_pos (by decide +kernel)
  have ht : ∀ w, targetBytes checkpointed (ckptRecord 7) w 0 4096 = (List.range 4096).map headerByte := by
    intro w
    unfold targetBytes
    rw [hm, ha]
    rfl
  have hf : ∀ o k, o + k ≤ 4096 → fieldAt ((List.range 4096).map headerByte) o k = leNat ((List.range k).map fun i => headerByte (o + i)) := fun o k h =>
    congrArg leNat (bytesAt_range _ _ _ _ h)
  unfold checkpointOk
  simp only [ht, bytesAt_range headerByte 4096 0 4092 (by omega), header_crc, beq_self_eq_true, hf 0 4 (by omega), hf 4 4 (by omega), hf 52 1 (by omega),
    hf 24 8 (by omega), hf 32 8 (by omega), hf 40 8 (by omega), bytesAt_range headerByte 4096 56 32 (by omega)]
  decide +kernel


/-- A machine without blocks, teams or launches that holds a pending `CKPT` or `RESTORE`. -/
def pausing (code : Nat) (mem : Sparse Byte) : State :=
  (hosted State.reset (ckptRecord code)).modModule fun m => { m with pending := [⟨ckptRecord code, 0, 5, true, ⟨[], 0, none⟩⟩], hostMem := mem, cqBase := 0 }

/-- A checkpoint's state with nothing in it. -/
def nothingSaved : Saved := ⟨zeroBytes 32, [], [], [], [], [], 0, [], [], [], [], [], [], [], 0, 0, 0, 0⟩

theorem witness_Checkpoints (hs : stateLength ≤ 2 ^ 62) :
    (∃ r, HostCase State.reset 6 false [(16, 1), (24, 8), (40, 8)] r ∧ Claims.field r 16 1 = 0 ∧ Claims.field r 24 8 % 4096 = 0 ∧
      ckptSize (hosted State.reset r) ≤ Claims.field r 40 8 ∧ BesideRing (hosted State.reset r) (Claims.field r 24 8) 4096 ∧ 1 ≤ State.reset.journal.next ∧
      ∀ ki ∈ State.reset.hub.instances, ki.2.stopping = []) ∧
    (let s := pausing 6 []
     ∃ p, s.module.pending = [p] ∧ p.started = true ∧ Claims.field p.bytes 0 1 = 6 ∧ p.bytes.length = 64 ∧ (∀ ki ∈ s.hub.instances, ∀ x ∈ ki.2.stopping, x.2 ≠ 0) ∧ NoEntries s ∧
      Claims.field p.bytes 16 1 = 0 ∧ Sparse.wf 0#8 s.home.mem = true ∧
      (∀ j, j < s.module.cqSize → ∀ m, m < 32 → s.module.cqBase.toNat + 32 * j + m < Claims.field p.bytes 24 8) ∧ s.module.cqTail < s.module.cqSize) ∧
    (let s := (pausing 6 []).modHub fun h => { h with instances := [(0, ⟨0, 0, 0, 0, 0, [], true, [(0, 0)], true, 0, 0, []⟩)] }
     ∃ p, s.module.pending = [p] ∧ p.started = true ∧ Claims.field p.bytes 0 1 = 6 ∧ p.bytes.length = 64 ∧ ∃ ki ∈ s.hub.instances, ∃ x ∈ ki.2.stopping, x.2 = 0) ∧
    (∃ r, HostCase State.reset 7 false [(16, 1), (24, 8), (40, 8)] r ∧ Claims.field r 16 1 = 0 ∧ Claims.field r 24 8 % 4096 = 0 ∧
      memNumber (Sparse.get 0#8 (hosted State.reset r).module.hostMem) (Claims.field r 24 8 + 4) 4 = 0) ∧
    (HostCase (State.reset.modModule fun m => { m with hostMem := emptyCheckpoint }) 7 false [(16, 1), (24, 8), (40, 8)] (ckptRecord 7) ∧
      Claims.field (ckptRecord 7) 16 1 = 0 ∧ Claims.field (ckptRecord 7) 24 8 % 4096 = 0 ∧ checkpointOk checkpointed (ckptRecord 7) = true) ∧
    (let s := (pausing 7 []).modModule fun m => { m with saved := [nothingSaved] }
     ∃ p, s.module.pending = [p] ∧ p.started = true ∧ Claims.field p.bytes 0 1 = 7 ∧ p.bytes.length = 64 ∧ s.blocks = [] ∧ NoEntries s ∧ Claims.field p.bytes 16 1 = 0 ∧
      Sparse.wf 0#8 s.module.hostMem = true ∧ Sparse.wf 0#8 s.home.mem = true ∧ s.module.saved = [nothingSaved] ∧
      numberOf nothingSaved.digest = memNumber (Sparse.get 0#8 s.module.hostMem) (Claims.field p.bytes 24 8 + 56) 32 ∧ nothingSaved.digest.length = 32 ∧
      ∀ e ∈ nothingSaved.logs, e.2.pub = false) ∧
    ∃ (s : State) (p : Pending), s.module.pending = [p] ∧ p.started = true ∧ Claims.field p.bytes 0 1 = 7 ∧ p.bytes.length = 64 ∧ s.blocks ≠ [] := by
  have hz : ckptSize (hosted State.reset (ckptRecord 6)) = 4096 + hbmTop + stateLength := rfl
  have h40 : Claims.field (ckptRecord 6) 40 8 = 2 ^ 63 := by decide +kernel
  have h24 : Claims.field (ckptRecord 6) 24 8 = 0x200000 := by decide +kernel
  refine ⟨⟨ckptRecord 6, ⟨⟨reads_of ?_, ?_, rfl, quiet_pending rfl⟩, only_of ?_⟩, ?_, ?_, ?_, ?_, ?_, nofun⟩, ⟨_, rfl, rfl, ?_, ?_, nofun, ?_, ?_, rfl, ?_, ?_⟩,
    ⟨_, rfl, rfl, ?_, ?_, _, List.mem_cons_self .., _, List.mem_cons_self .., rfl⟩, ⟨ckptRecord 7, ⟨⟨reads_of ?_, ?_, rfl, quiet_pending rfl⟩, only_of ?_⟩, ?_, ?_, ?_⟩,
    ⟨⟨⟨reads_of ?_, ?_, rfl, quiet_pending rfl⟩, only_of ?_⟩, ?_, ?_, emptyCheckpoint_ok⟩, ⟨_, rfl, rfl, ?_, ?_, rfl, ?_, ?_, rfl, rfl, rfl, ?_, rfl, nofun⟩,
    ⟨(pausing 7 []).setBlock 0 ⟨0, 0, 0, 0, 0, 0, 0, 0, 0, 0, 0, [], [], [], false, [], false, false, 0, none⟩, _, rfl, rfl, ?_, ?_, nofun⟩⟩
  all_goals first
    | (rw [hz, h40]; simp only [hbmTop]; omega)
    | (intro j hj m hm
       have : j < 1024 := hj
       show 0 + 32 * j + m < Claims.field (ckptRecord 6) 24 8
       rw [h24]; omega)
    | decide +kernel
    | (unfold BesideRing; decide +kernel)
    | (unfold NoEntries; decide +kernel)

theorem witness_HostWindows :
    ([1, 0, 0, 0] : List (BitVec 8)).length = 4 ∧
    (let bs : List (BitVec 8) := leBytes 8 (0x40000001 : Nat)
     bs.length = 8 ∧ numberOf bs / 2 ^ 52 = 0 ∧ numberOf bs % 2 ^ 30 / 2 = 0 ∧ 262140 + 4 ≤ 262144 ∧ numberOf (leBytes 8 (3 : Nat)) % 2 ^ 30 / 2 ≠ 0 ∧
       numberOf (leBytes 8 (0x101000 : Nat)) % 4096 = 0 ∧ ∃ k, 10 ≤ k ∧ k ≤ 16 ∧ numberOf (leBytes 4 (65536 : Nat)) = 2 ^ k) ∧
    (∃ s : State, s.module.channel = true) ∧
    (let s := (resting id).modModule fun m => { m with windows := [(63, 0x40000001#64)] }
     reaches s (63 * 2 ^ 30 + 2 ^ 30 - 1) = some (2 ^ 31 - 1) ∧ reaches s (62 * 2 ^ 30) = none ∧ NoEntries s ∧ (∀ kl ∈ s.launches, kl.2.determ = false) ∧ (0 : Nat) ≠ 2 ∧
       (63 * 2 ^ 30 + 2 ^ 30 - 1) % 2 ^ 30 + ([7] : List (BitVec 8)).length ≤ 2 ^ 30 ∧ 2 ^ 31 - 1 + ([7] : List (BitVec 8)).length ≤ hbmTop) ∧
    (∃ (s : State) (x : Slot), s.module.channel = true ∧ s.hub.slots.find 2047 = some x) ∧
    (∃ (s : State) (e : List Byte), s.module.channel = true ∧ s.journal.entries.find 4194303 = some e ∧ e.length = 64) ∧
    State.reset.module.debugWord = 0#32 ∧ (List.replicate 48 (1 : BitVec 8)).length = 48 ∧ (∃ b ∈ List.replicate 48 (1 : BitVec 8), b ≠ 0#8) ∧
    (∃ s : State, s.module.recovery = true) ∧ State.reset.module.recovery = false ∧
    (∃ (s : State) (kb : Nat × Block) (l : Launch) (kt : Nat × Team), kb ∈ s.blocks ∧ kb.2.core < 256 ∧ s.launch kb.2.launch = some l ∧ kt ∈ s.teams ∧
      kt.2.block = kb.1 ∧ kt.2.wait = some (.barrier 1 0 none) ∧ (kb.2.barrier 1).waiters.getLsbD kt.2.number = true ∧ 0 < (kb.2.barrier 1).ext) := by
  refine ⟨rfl, ⟨rfl, ?_, ?_, ?_, ?_, ?_, 16, ?_, ?_, ?_⟩, ⟨hosted State.reset [], rfl⟩, ⟨?_, ?_, ?_, ?_, ?_, ?_, ?_⟩,
    ⟨(hosted State.reset []).modHub fun h => { h with slots := [(2047, aSlot)] }, _, rfl, rfl⟩,
    ⟨{ hosted State.reset [] with journal := ⟨2, [(4194303, zeroBytes 64)]⟩ }, _, rfl, rfl, rfl⟩, rfl, ?_, ⟨1, ?_, ?_⟩,
    ⟨State.reset.modModule fun m => { m with recovery := true }, rfl⟩, rfl,
    ⟨(waiting (.barrier 1 0 none) id).modBlock 0 fun b => b.setBarrier 1 { b.barrier 1 with waiters := 1, ext := 2 }, _, _, _, List.mem_cons_self .., ?_, rfl,
      List.mem_cons_self .., ?_, rfl, ?_, ?_⟩⟩
  all_goals first
    | decide +kernel
    | (unfold NoEntries; decide +kernel)

theorem witness_Resets : (∃ r, Reads (hosted (resting id) r) r ∧ Claims.field r 0 1 = 5 ∧ OnlyOperands r false [] ∧ (hosted (resting id) r).module.pending = []) ∧
    (State.reset.module.channel = false ∧ State.reset.home.lost = []) ∧
    (∃ s : State, s.module.channel = true ∧ s.module.pending = [] ∧ s.recorder.intake = [] ∧ s.recorder.transit = [] ∧ s.recorder.head + 1 < 796917632) ∧
    State.reset.module.resetting = false ∧ ∃ s : State, s.module.resetting = true := by
  refine ⟨⟨aRecord [(0, 5)], reads_of ?_, ?_, only_of ?_, rfl⟩, ⟨rfl, rfl⟩, ⟨hosted (resting id) [], rfl, rfl, rfl, rfl, ?_⟩, rfl,
    ⟨State.reset.modModule fun m => { m with resetting := true }, rfl⟩⟩
  all_goals decide +kernel

/-- Every sensor at 40 °C. -/
def sampled (s : State) : State := s.modModule fun m => { m with temps := List.replicate 104 40000 }

theorem witness_Health :
    ((List.replicate 104 50000).length = 104 ∧ (sampled State.reset).module.temps.length = 104) ∧
    (∃ s : State, ¬ (s.module.powerLimit < s.module.power ∨ ∃ t ∈ s.module.temps, above t 100000 = true) ∧ s.module.clock < 2250 ∧
      s.module.clockAt + 10000000 ≤ s.time) ∧
    (∃ s : State, 2250 ≤ s.module.clock) ∧ (∃ t, (resting id).team 0 = some t) ∧
    (∃ s : State, s.home.lost = [3]) ∧ State.reset.home.lost = [] := by
  refine ⟨⟨?_, ?_⟩, ⟨{ (sampled State.reset).modModule fun m => { m with clock := 1200 } with time := 10000000 }, ?_, ?_, ?_⟩, ⟨State.reset, ?_⟩, ⟨_, rfl⟩,
    ⟨State.reset.modHome fun h => { h with lost := [3] }, rfl⟩, rfl⟩
  all_goals decide +kernel

/-- A record of class 3 on its way, behind an intake of `n` like it. -/
def recording (n : Nat) : State :=
  (resting id).modRecorder fun r => { r with transit := [⟨List.replicate 32 0, 3⟩], intake := List.replicate n ⟨List.replicate 32 0, 3⟩, period := [(0, 5)] }

theorem recording_length (n : Nat) : (recording n).recorder.intake.length = n := List.length_replicate

theorem witness_RecorderEvents :
    (let s := recording 0
     ∃ x, s.recorder.transit = [x] ∧ (∀ c, Sparse.get false s.recorder.shut c = false) ∧ (∀ t, discardedFrom x.cls = some t → 100 * s.recorder.intake.length < t * 32768) ∧
       s.recorder.intake.length < 32768) ∧
    (let s := recording 22938
     ∃ x, s.recorder.transit = [x] ∧ ∃ t, discardedFrom x.cls = some t ∧ t * 32768 ≤ 100 * s.recorder.intake.length) ∧
    (resting id).recorder.transit = [] ∧ (∃ x rest, (recording 1).recorder.intake = x :: rest) ∧
    (∃ t, (resting id).team (16 * 0 + 0) = some t ∧ ((resting id).recorder.period.find 0).getD 0 = 0) ∧
    (∃ t, (recording 0).team (16 * 0 + 0) = some t ∧ ((recording 0).recorder.period.find 0).getD 0 = 5 ∧ (recording 0).recorder.sampled.find 0 = none) ∧
    (let s := (recording 0).modRecorder fun r => { r with sampled := [(0, 1)] }
     s.recorder.sampled.find 0 = some 1 ∧ s.time < 1 + 1000 * ((s.recorder.period.find 0).getD 0)) := by
  refine ⟨⟨_, rfl, fun _ => rfl, ?_, ?_⟩, ⟨_, rfl, 70, rfl, ?_⟩, rfl, ⟨_, [], rfl⟩, ⟨_, rfl, rfl⟩, ⟨_, rfl, rfl, rfl⟩, ⟨rfl, ?_⟩⟩
  · intro t h; cases h; decide
  · decide
  · rw [recording_length]; decide
  · decide +kernel

/-! ### Hypotheses met: the whole machine -/

/-- `NOP` placed on the machine after reset. -/
def placed : State := State.reset.withFetchWord 32 0x02000000

/-- A full intake buffer and one record more, of class 0: the step that would give it is stalled; one that gives none is not. -/
theorem witness_Stalled : (∃ s s' : State, Stalled s s') ∧ ∃ s s' : State, ¬ Stalled s s' :=
  ⟨⟨recording 32768, (recording 32768).modRecorder fun r => { r with transit := r.transit ++ [⟨[], 0⟩] },
      by rw [recording_length]; exact Nat.le_add_right .., ⟨[], 0⟩, List.mem_singleton_self _, by decide⟩,
    ⟨resting id, resting id, fun h => by obtain ⟨-, r, hr, -⟩ := h; exact List.not_mem_nil hr⟩⟩

theorem witness_StepRunsDecoded :
    (placed.agenda = [] ∧ AtInstr placed (.nop 0)) ∧
    (let s := { placed with agenda := [.slot 0 0] }
     slotTeam s 0 0 = some 0 ∧ AtInstr { s with agenda := [], cur := 0 } (.nop 0)) ∧
    (let s : State := { placed.modTeam 0 fun t => { t with run := t.run.map fun r => { r with hold := some (.onOp 0) } } with agenda := [.slot 0 0] }
     slotTeam s 0 0 = some 0 ∧ heldRun { s with agenda := [], cur := 0 } = true) ∧
    (State.reset.module.tripped = false ∧ decodeWord (0x02000000 % 2 ^ 32) = .ok (.nop 0)) ∧
    (Instr.hbmScrub.isWord = false ∧ ({ placed with agenda := [.event .hbmScrub] } : State).agenda = .event .hbmScrub :: []) := by
  have hd : decodeWord 0x02000000 = .ok (.nop 0) := decodes (by decide +kernel)
  refine ⟨⟨rfl, ⟨⟨0x02000000, 0, false⟩, rfl, hd, ?_⟩⟩, ⟨?_, ⟨⟨0x02000000, 0, false⟩, rfl, hd, ?_⟩⟩, ⟨?_, ?_⟩, ⟨rfl, hd⟩, rfl, rfl⟩
  all_goals decide +kernel

theorem witness_EncodingRoundTrip : (Instr.nop 0).isWord = true ∧ (Instr.nop 0).wellFormed = true ∧ 0x02000000 < 2 ^ 32 ∧ decodeWord 0x02000000 = .ok (.nop 0) :=
  ⟨rfl, rfl, by decide, decodes (by decide +kernel)⟩

theorem witness_StepKeepsMemory : placed.home.wf ∧ ∃ s', step placed = .next s' := ⟨placeWord_wf reset_home_wf _, _, rfl⟩

theorem witness_UserKeepsSystem : ∃ (s s' : State) (t : Team), (Instr.nop 0).isWord = true ∧ s.team s.cur = some t ∧ t.mode = .u ∧ exec (.nop 0) s = .next s' :=
  ⟨placed, _, _, rfl, rfl, rfl, rfl⟩


/-! ### Hypotheses met: the forms that complete at a block's points, through the dictionary, or late -/

/-- A `CPY.G2T` of team 0 that its run holds until the engine has room. -/
def stalledCopy : State :=
  (asking [(10, 0x20000#32), (14, 128#32)] 0).modTeam 0 fun t => { t with run := t.run.map fun r => { r with
    items := [⟨(encodeWord (.cpyG2t 0 3 10 14 0)).getD 0, 0, false⟩], hold := some .retry } }

theorem witness_FormsComplete :
    (∃ (s : State) (t : Team) (r : Run) (b : Block) (l : Launch), Placed s t 0 b l ∧ t.run = some r ∧ MayGbar s t b l ∧ gridOpen s l) ∧
    (∃ (s : State) (t : Team) (r : Run) (b : Block) (l : Launch), Placed s t 0 b l ∧ t.run = some r ∧ MayGbar s t b l ∧ ¬ gridOpen s l) ∧
    (∃ (s : State) (t : Team) (r : Run) (b : Block), s.team s.cur = some t ∧ t.run = some r ∧ s.block t.block = some b ∧ b.regrouped = false ∧
      Clean t ∧ t.stack = [] ∧ packetAt r (2#18).toInt 24 ∧ t.lanes ≤ 1024 ∧ ∀ j ∈ lanesOf t.k0 t.lanes, (t.readV s.tick (8 * 1 + 6) j).toNat < 4) ∧
    (∃ (s : State) (t : Team) (r : Run) (b : Block), s.team s.cur = some t ∧ t.run = some r ∧ s.block t.block = some b ∧ b.regrouped = true ∧
      t.ends = false ∧ t.stack = []) ∧
    (∃ (t : Team) (r : Run), dictionary.team dictionary.cur = some t ∧ t.run = some r ∧ (dictOf dictionary t)[1]? = some 0x11C00820 ∧
      (dictOf dictionary t)[0]? = some 0x100C0820 ∧ windowBreaks (vectorLows (0x11C00820 % 2 ^ 31)) 0 (0x11C00820 % 2 ^ 31) = false ∧
      windowBreaks (vectorLows (0x100C0820 % 2 ^ 31)) 3 (0x100C0820 % 2 ^ 31) = false) ∧
    ∃ (t0 t : Team) (r0 r : Run) (it : RunItem) (b : Block) (a : CopyAsk), stalledCopy.team 0 = some t0 ∧ t0.run = some r0 ∧ r0.items = [it] ∧
      r0.hold = some .retry ∧ decodeWord (it.word % 2 ^ 31 + if it.chain then 2 ^ 31 else 0) = .ok (.cpyG2t 0 3 10 14 0) ∧
      let s1 := { stalledCopy with cur := 0 }.modTeam 0 Team.begin
      MayIssue s1 t r b 0 ∧ copyAsk s1 t b (.cpyG2t 0 3 10 14 0) 0 a ∧ CopyRoom s1 t (advancing t r) a := by
  refine ⟨⟨((issuing 0).modHome fun h => { h with mem := Sparse.set 0#8 h.mem 0x100C 1 }).modLaunch 0 fun l => { l with cores := true, nblocks := 2 }, _, _, _, _, ⟨rfl, rfl, rfl, rfl⟩, rfl, ⟨?_, rfl, ?_, ?_, ?_⟩, ?_⟩,
    ⟨(issuing 0).modLaunch 0 fun l => { l with cores := true }, _, _, _, _, ⟨rfl, rfl, rfl, rfl⟩, rfl, ⟨?_, rfl, ?_, ?_, ?_⟩, ?_⟩,
    ⟨issuing 0, _, _, _, rfl, rfl, rfl, ?_, ⟨rfl, rfl⟩, rfl, ?_, ?_, ?_⟩,
    ⟨(issuing 0).modBlock 0 fun b => { b with regrouped := true }, _, _, _, rfl, rfl, rfl, rfl, ?_, rfl⟩,
    ⟨_, _, rfl, rfl, ?_, ?_, ?_, ?_⟩,
    ⟨_, _, _, _, _, _, _, rfl, rfl, rfl, rfl, decodes ?_, ⟨rfl, rfl, rfl, ?_, fun _ => poisonS_clean ⟨rfl, rfl⟩ _, ?_, ?_, ?_⟩,
      ⟨rfl, ?_, ?_, ?_, ?_, ?_, 0, 0x1000, ?_, rfl⟩, ?_⟩⟩
  all_goals first
    | decide +kernel
    | (unfold gridOpen; decide +kernel)
    | (unfold packetAt; decide +kernel)
    | (unfold CopyRoom; decide +kernel)

end Sys2Proof.Tests
end

section
/-! SUPPORT. Scalar integer instructions: each word function of the model is the manual's operation on integers, and each scalar
instruction changes its machine as one `putS` or `putPair` of its team does. -/

namespace Sys2Proof.Machine

open Sys2Proof.Claims

/-! ### Word functions as operations on integers (R105, R296, R347, R371, R395, R397, R415)

`BitVec.ofInt` is a ring homomorphism, which settles sums, differences and products; the others compare values of `toNat` or `toInt`. -/

theorem add_eq_value (x y : Word) : x + y = WordOp.add.value x y := by
  simp [WordOp.value, wordOf, BitVec.ofInt_add]

theorem sub_eq_value (x y : Word) : x - y = WordOp.sub.value x y := by
  simp [WordOp.value, wordOf, Int.sub_eq_add_neg, BitVec.ofInt_add, BitVec.ofInt_neg, BitVec.sub_eq_add_neg]

theorem mul_eq_value (x y : Word) : x * y = WordOp.mul.value x y := by
  simp [WordOp.value, wordOf, BitVec.ofInt_mul]

/-- Bits 63:32 of an integer: 64 bits of it are enough to know them. -/
theorem upper_ofInt (z : Int) : ((BitVec.ofInt 64 z) >>> 32).setWidth 32 = upperOf z := by
  apply BitVec.eq_of_toNat_eq
  simp only [upperOf, BitVec.toNat_setWidth, BitVec.toNat_ushiftRight, BitVec.toNat_ofInt, Nat.shiftRight_eq_div_pow]
  omega

theorem mulHigh_eq_value (x y : Word) : mulHigh x y = WordOp.mulHigh.value x y := by
  have product : x.signExtend 64 * y.signExtend 64 = BitVec.ofInt 64 (x.toInt * y.toInt) := by
    simp [BitVec.ofInt_mul, BitVec.signExtend]
  rw [mulHigh, product, upper_ofInt, WordOp.value]

theorem mulHighU_eq_value (x y : Word) : mulHighU x y = WordOp.mulHighU.value x y := by
  have product : x.setWidth 64 * y.setWidth 64 = BitVec.ofInt 64 ((x.toNat : Int) * y.toNat) := by
    simp [BitVec.ofInt_mul, BitVec.ofInt_natCast]
  rw [mulHighU, product, upper_ofInt, WordOp.value]

theorem shiftLeft_eq_value (x y : Word) : shiftLeft x y = WordOp.shl.value x y := by
  apply BitVec.eq_of_toNat_eq
  simp only [shiftLeft, WordOp.value, wordOf, BitVec.toNat_shiftLeft, Nat.shiftLeft_eq, BitVec.toNat_ofInt]
  norm_cast

theorem shiftRight_eq_value (x y : Word) : shiftRight x y = WordOp.shr.value x y := by
  rw [shiftRight, WordOp.value, ← Nat.shiftRight_eq_div_pow, ← BitVec.toNat_ushiftRight, BitVec.ofNat_toNat, BitVec.setWidth_eq]

theorem shiftArith_eq_value (x y : Word) : shiftArith x y = WordOp.sra.value x y := by
  simp [shiftArith, WordOp.value, wordOf, BitVec.sshiftRight, Int.shiftRight_eq_div_pow]

theorem sMin_eq_value (x y : Word) : sMin x y = WordOp.smin.value x y := by
  by_cases h : x.toInt < y.toInt
  · simp [sMin, WordOp.value, wordOf, BitVec.slt_iff_toInt_lt, h, Int.min_eq_left (Int.le_of_lt h)]
  · simp [sMin, WordOp.value, wordOf, BitVec.slt_iff_toInt_lt, h, Int.min_eq_right (Int.not_lt.1 h)]

theorem sMax_eq_value (x y : Word) : sMax x y = WordOp.smax.value x y := by
  by_cases h : x.toInt < y.toInt
  · simp [sMax, WordOp.value, wordOf, BitVec.slt_iff_toInt_lt, h, Int.max_eq_right (Int.le_of_lt h)]
  · simp [sMax, WordOp.value, wordOf, BitVec.slt_iff_toInt_lt, h, Int.max_eq_left (Int.not_lt.1 h)]

theorem uMin_eq_value (x y : Word) : uMin x y = WordOp.umin.value x y := by
  by_cases h : x.toNat < y.toNat
  · simp [uMin, WordOp.value, BitVec.ult, h, Nat.min_eq_left (Nat.le_of_lt h)]
  · simp [uMin, WordOp.value, BitVec.ult, h, Nat.min_eq_right (Nat.not_lt.1 h)]

theorem uMax_eq_value (x y : Word) : uMax x y = WordOp.umax.value x y := by
  by_cases h : x.toNat < y.toNat
  · simp [uMax, WordOp.value, BitVec.ult, h, Nat.max_eq_right (Nat.le_of_lt h)]
  · simp [uMax, WordOp.value, BitVec.ult, h, Nat.max_eq_left (Nat.not_lt.1 h)]

theorem setLess_eq_value (x y : Word) : setLess x y = WordOp.slt.value x y := by
  simp [setLess, WordOp.value, BitVec.slt_iff_toInt_lt]

theorem setLessU_eq_value (x y : Word) : setLessU x y = WordOp.sltu.value x y := by
  simp [setLessU, WordOp.value, BitVec.ult]

theorem divU_eq_value (x y : Word) : divU x y = WordOp.div.value x y := by
  rw [divU, WordOp.value, BitVec.udiv_def]
  exact ite_congr (propext (BitVec.toNat_inj (y := 0#32)).symm) (fun _ => rfl) fun _ => rfl

theorem remU_eq_value (x y : Word) : remU x y = WordOp.rem.value x y := by
  rw [remU, WordOp.value, BitVec.umod_def]
  exact ite_congr (propext (BitVec.toNat_inj (y := 0#32)).symm) (fun _ => rfl) fun _ => rfl

theorem setWidth_shiftLeft_eq_wordOf (i : BitVec 19) : i.setWidth 32 <<< 13 = wordOf (i.toNat * 8192) := by
  apply BitVec.eq_of_toNat_eq
  simp only [wordOf, BitVec.toNat_shiftLeft, Nat.shiftLeft_eq, BitVec.toNat_setWidth, BitVec.toNat_ofInt]
  omega

theorem sub_eq_ofInt_toNat (x y : BitVec 64) : x - y = BitVec.ofInt 64 (x.toNat - y.toNat) := by
  simp [Int.sub_eq_add_neg, BitVec.ofInt_add, BitVec.ofInt_neg, BitVec.ofInt_natCast, BitVec.sub_eq_add_neg]

/-! ### A pair is written one register after the other (R4) -/

/-- A scalar pair instruction that acts, on clean sources. -/
theorem putPair_acts {t : Team} (hm : t.mute = false) {src : List Nat} (hs : ∀ r ∈ src, t.poisonS r = false) (d w) :
    t.putPair src d w = t.writePair d w := by
  have clean : src.any t.poisonS = false := by simpa using hs
  simp [Team.putPair, Team.once, hm, Team.taintS, clean]

theorem writePair_writes (t : Team) (d : Nat) (w : BitVec 64) :
    ∃ v, WritesScalar t v d (BitVec.ofNat 32 w.toNat) ∧
      WritesScalar v (t.writePair d w) (d + 1) (BitVec.ofNat 32 (w.toNat / 4294967296)) := by
  have upper : (w >>> 32).setWidth 32 = BitVec.ofNat 32 (w.toNat / 4294967296) := by
    rw [← BitVec.ofNat_toNat, BitVec.toNat_ushiftRight, Nat.shiftRight_eq_div_pow]
  rw [Team.writePair, upper, ← BitVec.ofNat_toNat]
  exact ⟨_, writeS_writes _ _ _, writeS_writes _ _ _⟩

/-! ### The operand forms -/

section
variable {s : State} {t : Team} (ht : s.team s.cur = some t) {d' : Nat}
include ht

/-- Two scalar sources (R74). -/
theorem scalarSR_eq_putS (op : WordOp) {f : Word → Word → Word} (hf : ∀ x y, f x y = op.value x y) {d a b : BitVec 6} {w : Word}
    (hr : some (d.toNat, op.value (t.readS s.tick a.toNat) (t.readS s.tick b.toNat)) = some (d', w)) :
    scalarSR s d a b f = .next (s.setTeam s.cur (t.putS [a.toNat, b.toNat] d' w)) := by
  cases hr
  rw [scalarSR, onTeam_of ht, hf]

/-- A scalar source and an immediate (R74). -/
theorem scalarSI_eq_putS (op : WordOp) {f : Word → Word → Word} (hf : ∀ x y, f x y = op.value x y) {d a : BitVec 6} {i : BitVec 10}
    {w : Word} (hr : some (d.toNat, op.value (t.readS s.tick a.toNat) (wordOf i.toInt)) = some (d', w)) :
    scalarSI s d a i f = .next (s.setTeam s.cur (t.putS [a.toNat] d' w)) := by
  cases hr
  rw [scalarSI, onTeam_of ht, hf, wordOf, BitVec.signExtend]

/-- `LUI`: no scalar source (R366). -/
theorem execLui_eq_putS {d : BitVec 6} {i : BitVec 19} {w : Word} (hr : some (d.toNat, wordOf (i.toNat * 8192)) = some (d', w)) :
    execLui d i s = .next (s.setTeam s.cur (t.putS [] d' w)) := by
  cases hr
  rw [execLui, onTeam_of ht, setWidth_shiftLeft_eq_wordOf]

/-- Two scalar pairs (R347). -/
theorem scalarSR64_eq_putPair {f : BitVec 64 → BitVec 64 → BitVec 64} {d a b : BitVec 6} {w : BitVec 64}
    (hr : some (d.toNat, f (t.readPair s.tick a.toNat) (t.readPair s.tick b.toNat)) = some (d', w)) :
    scalarSR64 s d a b f = .next (s.setTeam s.cur (t.putPair [a.toNat, a.toNat + 1, b.toNat, b.toNat + 1] d' w)) := by
  cases hr
  rw [scalarSR64, onTeam_of ht]

/-! ### Which form each instruction has -/

/-- A scalar instruction is one `putS` of its sources, its destination and its value. -/
theorem exec_eq_putS {i : Instr} {w : Word} (hr : scalarResult s t i = some (d', w)) :
    exec i s = .next (s.setTeam s.cur (t.putS (scalarSources i) d' w)) := by
  cases i with
  | iaddSr => exact scalarSR_eq_putS ht .add add_eq_value hr
  | isubSr => exact scalarSR_eq_putS ht .sub sub_eq_value hr
  | imulSr => exact scalarSR_eq_putS ht .mul mul_eq_value hr
  | imulhSr => exact scalarSR_eq_putS ht .mulHigh mulHigh_eq_value hr
  | imulhUSr => exact scalarSR_eq_putS ht .mulHighU mulHighU_eq_value hr
  | andSr => exact scalarSR_eq_putS ht .and (fun _ _ => rfl) hr
  | orSr => exact scalarSR_eq_putS ht .or (fun _ _ => rfl) hr
  | xorSr => exact scalarSR_eq_putS ht .xor (fun _ _ => rfl) hr
  | andnSr => exact scalarSR_eq_putS ht .andn (fun _ _ => rfl) hr
  | shlSr => exact scalarSR_eq_putS ht .shl shiftLeft_eq_value hr
  | shrSr => exact scalarSR_eq_putS ht .shr shiftRight_eq_value hr
  | sraSr => exact scalarSR_eq_putS ht .sra shiftArith_eq_value hr
  | iminSr => exact scalarSR_eq_putS ht .smin sMin_eq_value hr
  | imaxSr => exact scalarSR_eq_putS ht .smax sMax_eq_value hr
  | iminUSr => exact scalarSR_eq_putS ht .umin uMin_eq_value hr
  | imaxUSr => exact scalarSR_eq_putS ht .umax uMax_eq_value hr
  | sltSr => exact scalarSR_eq_putS ht .slt setLess_eq_value hr
  | sltUSr => exact scalarSR_eq_putS ht .sltu setLessU_eq_value hr
  | idivu => exact scalarSR_eq_putS ht .div divU_eq_value hr
  | iremu => exact scalarSR_eq_putS ht .rem remU_eq_value hr
  | iaddSi => exact scalarSI_eq_putS ht .add add_eq_value hr
  | andSi => exact scalarSI_eq_putS ht .and (fun _ _ => rfl) hr
  | orSi => exact scalarSI_eq_putS ht .or (fun _ _ => rfl) hr
  | xorSi => exact scalarSI_eq_putS ht .xor (fun _ _ => rfl) hr
  | shlSi => exact scalarSI_eq_putS ht .shl shiftLeft_eq_value hr
  | shrSi => exact scalarSI_eq_putS ht .shr shiftRight_eq_value hr
  | sraSi => exact scalarSI_eq_putS ht .sra shiftArith_eq_value hr
  | sltSi => exact scalarSI_eq_putS ht .slt setLess_eq_value hr
  | lui => exact execLui_eq_putS ht hr
  | _ => nomatch hr

/-- A scalar pair instruction is one `putPair` of its sources, its destination and its value. -/
theorem exec_eq_putPair {i : Instr} {w : BitVec 64} (hr : pairResult s t i = some (d', w)) :
    exec i s = .next (s.setTeam s.cur (t.putPair (scalarSources i) d' w)) := by
  cases i with
  | iadd64 => exact scalarSR64_eq_putPair ht (by rw [← hr, pairResult, BitVec.add_def])
  | isub64 => exact scalarSR64_eq_putPair ht (by rw [← hr, pairResult, sub_eq_ofInt_toNat])
  | _ => nomatch hr

end

/-! ### Scalar results -/

theorem scalarResult_holds : ScalarResult := by
  intro s t i d w ht hm hs hr
  refine ⟨t.writeS d w, ?_, writeS_writes t d w⟩
  rw [exec_eq_putS ht hr, putS_acts hm hs]

theorem scalarPairResult_holds : ScalarPairResult := by
  intro s t i d w ht hm hs hr _
  obtain ⟨v, low, high⟩ := writePair_writes t d w
  refine ⟨t.writePair d w, v, ?_, low, high⟩
  rw [exec_eq_putPair ht hr, putPair_acts hm hs]

/-- Settles O1: each scalar instruction is one `putS` or `putPair`, which on clean sources is the plain write of its value. -/
theorem scalarResults : Obligations.ScalarResults := ⟨scalarResult_holds, scalarPairResult_holds⟩

end Sys2Proof.Machine
end

section
/-! SUPPORT. The privileged registers: what `SETX` stores where, and what `TLBI` leaves. -/

namespace Sys2Proof.Machine

open Sys2Proof.Claims

/-! ### Modes and classes (R86, R94) -/

theorem reaches_iff_mayReach (m : Mode) (x : Nat) : m.reaches x = true ↔ mayReach m x := by
  cases m <;> simp [Mode.reaches, mayReach, userXid, hyperXid, classU, classH]

/-- A trap of the whole team, in the terms of the claims (R98, R99). -/
theorem raiseAll_teamTraps {t : Team} {r : Run} (hr : t.run = some r) (cause : Nat) (detail : Word) :
    TeamTraps t (t.raiseAll cause detail) cause detail false 0 := by
  refine ⟨r, hr, ?_⟩
  have masked : t.trapSet &&& ~~~r.held = (if t.k0 = 0#1024 then t.living else t.k0) &&& ~~~r.held := by
    unfold Team.trapSet Team.acting Team.held
    split
    · rfl
    · rw [hr, BitVec.and_assoc]; simp
  simp [Team.raiseAll, Team.raise, Team.itemAddr, hr, masked]

/-- What the last instruction's word traps with (R434). -/
theorem itemWord_of_run {t : Team} {r : Run} (hr : t.run = some r) : t.itemWord = BitVec.ofNat 32 (r.item.word % 2147483648) := by
  simp [Team.itemWord, hr]

/-! ### A placed team's launch -/

section
variable {s : State} {t : Team} {n : Nat} {b : Block} {l : Launch} (h : Placed s t n b l)
include h

theorem launchOf_placed : s.launchOf t = some l := by
  obtain ⟨-, hb, rfl, hl⟩ := h
  simp [State.launchOf, State.blockOf, hb, hl]

theorem ctxOf_placed : s.ctxOf t = l.ctx := by simp [State.ctxOf, launchOf_placed h]

theorem launchNo_placed : s.launchNo t = some n := by
  obtain ⟨-, hb, rfl, -⟩ := h
  simp [State.launchNo, State.blockOf, hb]

end

/-! ### What a store to a register leaves (R94, R96) -/

/-- The registers that `SETX` stores at once, each with its width, by what holds them: the context, the team, the launch, the launch's
queue. -/
def contextXids : List (Nat × Nat) :=
  [(0x014, 64), (0x016, 64), (0x01C, 64), (0x01E, 64), (0x020, 16), (0x022, 64), (0x024, 64), (0x030, 64)]
/-- See `contextXids`. -/
def teamXids : List (Nat × Nat) := [(0x001, 3), (0x002, 5), (0x018, 64), (0x01A, 64)]
/-- See `contextXids`. -/
def launchXids : List (Nat × Nat) := [(0x032, 32), (0x034, 64)]
/-- See `contextXids`. -/
def queueXids : List (Nat × Nat) := [(0x036, 32), (0x037, 32)]

/-- From `s`, `t`, `l` to `s'`, `t'`, `l'` register `x`, of `width` bits, takes the low bits of `v`, and every other register, the
rest of the team's registers and the memory stay; a new deadline sets the class. -/
structure StoresXid (s : State) (t : Team) (n : Nat) (b : Block) (l : Launch) (x width : Nat) (v : BitVec 64) (s' : State) (t' : Team)
    (l' : Launch) : Prop where
  placed : Placed s' t' n b l'
  reads : ∀ y, xreg s' t' l' y = if y = x then BitVec.ofNat 64 (v.toNat % 2 ^ width) else xreg s t l y
  regs : x ∉ classU → t'.regs = t.regs
  file : { t'.regs with part := t.regs.part, fflags := t.regs.fflags } = t.regs
  pc : t'.pc = t.pc
  home : s'.home = s.home
  cls : x = 0x034 → l'.cls = slackClass s.time { l with deadline := v }

@[simp] theorem modContext_queue (s : State) (k : Nat) (f : Context → Context) (q : Nat) : (s.modContext k f).queue q = s.queue q := rfl
@[simp] theorem modLaunch_queue (s : State) (k : Nat) (f : Launch → Launch) (q : Nat) : (s.modLaunch k f).queue q = s.queue q := rfl
@[simp] theorem setTeam_queue (s : State) (k : Nat) (t : Team) (q : Nat) : (s.setTeam k t).queue q = s.queue q := rfl
@[simp] theorem setQueue_context (s : State) (k : Nat) (x : Queue) (j : Nat) : (s.setQueue k x).context j = s.context j := rfl
@[simp] theorem setQueue_core (s : State) (k : Nat) (x : Queue) (j : Nat) : (s.setQueue k x).core j = s.core j := rfl
@[simp] theorem setQueue_cluster (s : State) (k : Nat) (x : Queue) (j : Nat) : (s.setQueue k x).cluster j = s.cluster j := rfl
@[simp] theorem setQueue_cur (s : State) (k : Nat) (x : Queue) : (s.setQueue k x).cur = s.cur := rfl
@[simp] theorem setQueue_queue_eq (s : State) (k : Nat) (x : Queue) (q : Nat) :
    (s.setQueue k x).queue q = if q = k then x else s.queue q := by
  unfold State.setQueue State.queue
  rw [State.modHub_hub, Table.find_put]
  split <;> rfl

/-- The 64 low bits of a pair's value are all of it. -/
theorem ofNat_toNat_mod (v : BitVec 64) : BitVec.ofNat 64 (v.toNat % 18446744073709551616) = v := by
  rw [Nat.mod_eq_of_lt v.isLt, BitVec.ofNat_toNat, BitVec.setWidth_eq]

section
variable {s : State} {t : Team} {n : Nat} {b : Block} {l : Launch} (h : Placed s t n b l) {x width : Nat} {v : BitVec 64}
include h

/-- A register of the context. -/
theorem storesXid_modContext {f : Context → Context} (hx : x ≠ 0x034)
    (reads : ∀ y, xreg (s.modContext l.ctx f) t l y = if y = x then BitVec.ofNat 64 (v.toNat % 2 ^ width) else xreg s t l y) :
    StoresXid s t n b l x width v (s.modContext (s.ctxOf t) f) t l := by
  rw [ctxOf_placed h]
  exact ⟨h, reads, fun _ => rfl, rfl, rfl, rfl, fun e => absurd e hx⟩

/-- A register of the launch. -/
theorem storesXid_modLaunch {f : Launch → Launch} (hx : x = 0x034 → (f l).cls = slackClass s.time { l with deadline := v })
    (reads : ∀ y, xreg (s.modLaunch n f) t (f l) y = if y = x then BitVec.ofNat 64 (v.toNat % 2 ^ width) else xreg s t l y) :
    StoresXid s t n b l x width v (s.modLaunch ((s.launchNo t).getD 0) f) t (f l) := by
  rw [launchNo_placed h, Option.getD_some]
  obtain ⟨ht, hb, hn, hl⟩ := h
  exact ⟨⟨ht, hb, hn, by simp [hl]⟩, reads, fun _ => rfl, rfl, rfl, rfl, hx⟩

/-- A register of the launch's queue. -/
theorem storesXid_setQueue {q : Queue} (hx : x ≠ 0x034)
    (reads : ∀ y, xreg (s.setQueue l.queue q) t l y = if y = x then BitVec.ofNat 64 (v.toNat % 2 ^ width) else xreg s t l y) :
    StoresXid s t n b l x width v (s.setQueue l.queue q) t l :=
  ⟨h, reads, fun _ => rfl, rfl, rfl, rfl, fun e => absurd e hx⟩

/-- A register of the team. -/
theorem storesXid_modTeam {f : Team → Team} (hx : x ≠ 0x034) (block : (f t).block = t.block)
    (reads : ∀ y, xreg (s.setTeam s.cur (f t)) (f t) l y = if y = x then BitVec.ofNat 64 (v.toNat % 2 ^ width) else xreg s t l y)
    (regs : x ∉ classU → (f t).regs = t.regs) (file : { (f t).regs with part := t.regs.part, fflags := t.regs.fflags } = t.regs)
    (pc : (f t).pc = t.pc) : StoresXid s t n b l x width v (s.modTeam s.cur f) (f t) l := by
  obtain ⟨ht, hb, hn, hl⟩ := h
  rw [modTeam_of ht]
  exact ⟨⟨by simp, by rw [block]; exact hb, hn, hl⟩, reads, regs, file, pc, rfl, fun e => absurd e hx⟩

/-- A register that `SETX` stores at once takes the value. The lemmas about it go through the registers that `xreg` tells apart: the one
stored, each of the others, and last a number that names none. -/
def StoredXid (s : State) (t : Team) (n : Nat) (b : Block) (l : Launch) (x width : Nat) (v : BitVec 64) : Prop :=
  ∃ t' l', StoresXid s t n b l x width v (storeXid s s.cur t x v) t' l'

theorem storedXid_context (hx : (x, width) ∈ contextXids) (v : BitVec 64) : StoredXid s t n b l x width v := by
  simp only [contextXids, List.mem_cons, List.not_mem_nil, or_false, Prod.mk.injEq] at hx
  rcases hx with ⟨rfl, rfl⟩ | ⟨rfl, rfl⟩ | ⟨rfl, rfl⟩ | ⟨rfl, rfl⟩ | ⟨rfl, rfl⟩ | ⟨rfl, rfl⟩ | ⟨rfl, rfl⟩ | ⟨rfl, rfl⟩
  all_goals
    dsimp only [StoredXid, storeXid]
    refine ⟨t, l, storesXid_modContext h (by simp) fun y => ?_⟩
    unfold xreg
    split <;> simp [*, ofNat_toNat_mod]
    exact fun e => absurd e ‹_›

theorem storedXid_team (hx : (x, width) ∈ teamXids) (v : BitVec 64) : StoredXid s t n b l x width v := by
  simp only [teamXids, List.mem_cons, List.not_mem_nil, or_false, Prod.mk.injEq] at hx
  rcases hx with ⟨rfl, rfl⟩ | ⟨rfl, rfl⟩ | ⟨rfl, rfl⟩ | ⟨rfl, rfl⟩
  all_goals
    dsimp only [StoredXid, storeXid]
    refine ⟨_, l, storesXid_modTeam h (by simp) rfl (fun y => ?_) (by simp [classU]) rfl rfl⟩
    unfold xreg
    split <;> simp [*, Team.modRegs, ofNat_toNat_mod]
    exact fun e => absurd e ‹_›

theorem storedXid_launch (hx : (x, width) ∈ launchXids) (v : BitVec 64) : StoredXid s t n b l x width v := by
  simp only [launchXids, List.mem_cons, List.not_mem_nil, or_false, Prod.mk.injEq] at hx
  rcases hx with ⟨rfl, rfl⟩ | ⟨rfl, rfl⟩
  all_goals
    dsimp only [StoredXid, storeXid]
    refine ⟨t, _, storesXid_modLaunch h (by simp) fun y => ?_⟩
    unfold xreg
    split <;> simp [*, ofNat_toNat_mod]
    exact fun e => absurd e ‹_›

theorem storedXid_queue (hx : (x, width) ∈ queueXids) (v : BitVec 64) : StoredXid s t n b l x width v := by
  have hq : ((s.launchOf t).map (·.queue)).getD 0 = l.queue := by simp [launchOf_placed h]
  simp only [queueXids, List.mem_cons, List.not_mem_nil, or_false, Prod.mk.injEq] at hx
  rcases hx with ⟨rfl, rfl⟩ | ⟨rfl, rfl⟩
  all_goals
    dsimp only [StoredXid, storeXid]
    rw [hq]
    refine ⟨t, l, storesXid_setQueue h (by simp) fun y => ?_⟩
    unfold xreg
    split <;> simp [*]
    exact fun e => absurd e ‹_›

/-- All of them. -/
def storedXids : List (Nat × Nat) := contextXids ++ teamXids ++ launchXids ++ queueXids

theorem storedXid_of_mem (hx : (x, width) ∈ storedXids) (v : BitVec 64) : StoredXid s t n b l x width v := by
  simp only [storedXids, List.mem_append] at hx
  rcases hx with ((hx | hx) | hx) | hx
  · exact storedXid_context h hx v
  · exact storedXid_team h hx v
  · exact storedXid_launch h hx v
  · exact storedXid_queue h hx v

end

/-! ### What `SETX` does in a mode of the register's class, on a clean source (R96, R392) -/

/-- How the xids of a pair are taken apart. -/
theorem pairXids_split : ∀ k ∈ pairXids, splitXid k = (k, false) ∧ wideXid k = true ∧ splitXid (k + 1) = (k, true) ∧ k ≠ 0x010 ∧
    k < 2047 ∧ k ∉ classU ∧ (k, 64) ∈ storedXids := by decide

theorem exec_getx (c : BitVec 1) (d : BitVec 6) (x : BitVec 11) (s : State) : exec (.getx c d x) s = execGetx d x s := rfl
theorem exec_setx (c : BitVec 1) (a : BitVec 6) (x : BitVec 11) (s : State) : exec (.setx c a x) s = execSetx a x s := rfl
theorem exec_tlbi (c : BitVec 1) (a : BitVec 6) (s : State) : exec (.tlbi c a) s = execTlbi a s := rfl
theorem exec_tlbiAll (c : BitVec 1) (s : State) : exec (.tlbiAll c) s = execTlbiAll s := rfl
theorem exec_rett (s : State) : exec .rett s = .next (returnFromTrap s) := rfl

section
variable {s : State} {t : Team} (ht : s.team s.cur = some t) (hm : t.mute = false) (hp : ∀ r, t.poisonS r = false)
include ht hm hp

/-- A register that is no half of a pair: its value is checked and stored. -/
theorem setx_single {c : BitVec 1} {a : BitVec 6} {x : BitVec 11} {k : Nat} (hr : t.mode.reaches k = true) (hx : x.toNat = k)
    (hs : splitXid k = (k, false)) (hw : wideXid k = false) (h10 : k ≠ 0x010) :
    exec (.setx c a x) s =
      if xidValueOk k ((t.readS s.tick a.toNat).setWidth 64) = false then .next (s.setTeam s.cur t.illegalOp)
      else .next (storeXid s s.cur t k ((t.readS s.tick a.toNat).setWidth 64)) := by
  simp [exec_setx, execSetx, ht, hx, hs, hw, hm, hr, onTeam_of ht, Team.taintS, hp, h10]

/-- The low half of a pair is held. -/
theorem setx_low {c : BitVec 1} {a : BitVec 6} {x : BitVec 11} {k : Nat} (hr : t.mode.reaches k = true) (hx : x.toNat = k)
    (hk : k ∈ pairXids) :
    exec (.setx c a x) s = .next (s.setTeam s.cur { t with xHold := t.xHold.put k (t.readS s.tick a.toNat) }) := by
  obtain ⟨hs, hw, -⟩ := pairXids_split k hk
  simp [hw, exec_setx, execSetx, ht, hx, hs, hm, hr, onTeam_of ht, Team.taintS, hp]

/-- The high half checks and stores the value of both, the low half as it is held. -/
theorem setx_high {c : BitVec 1} {a : BitVec 6} {x : BitVec 11} {k : Nat} {lo : Word} (hr : t.mode.reaches (k + 1) = true)
    (hx : x.toNat = k + 1) (hk : k ∈ pairXids) (hl : t.xHold.find k = some lo) :
    exec (.setx c a x) s =
      if xidValueOk k (pair64 lo (t.readS s.tick a.toNat)) = false then .next (s.setTeam s.cur t.illegalOp)
      else .next (storeXid s s.cur t k (pair64 lo (t.readS s.tick a.toNat))) := by
  obtain ⟨-, -, hs, h10, -⟩ := pairXids_split k hk
  simp [h10, exec_setx, execSetx, ht, hx, hs, hm, hr, onTeam_of ht, Team.taintS, hp, hl]

end

/-! ### The registers of at most 32 bits -/

/-- The registers that are no half of a pair and that `SETX` stores at once, with their widths. -/
def singleXids : List (Nat × Nat) := [(0x001, 3), (0x002, 5), (0x020, 16), (0x032, 32), (0x036, 32), (0x037, 32)]

theorem singleXids_split : ∀ p ∈ singleXids, splitXid p.1 = (p.1, false) ∧ wideXid p.1 = false ∧ p.1 ≠ 0x010 ∧ p ∈ storedXids := by
  decide

/-- XPART is the only one of them whose value is checked (R392). -/
theorem xidValueOk_single {k width : Nat} (hk : (k, width) ∈ singleXids) {v : BitVec 64} (h6 : k = 0x001 → v.toNat % 8 < 6) :
    xidValueOk k v = true := by
  simp only [singleXids, List.mem_cons, List.not_mem_nil, or_false, Prod.mk.injEq] at hk
  rcases hk with ⟨rfl, -⟩ | ⟨rfl, -⟩ | ⟨rfl, -⟩ | ⟨rfl, -⟩ | ⟨rfl, -⟩ | ⟨rfl, -⟩
  · simpa [xidValueOk] using h6 rfl
  all_goals rfl

/-- The two fields of XLANEMAP (R94). -/
theorem laneFields (w : Word) : w &&& 0x3F3F#32 = BitVec.ofNat 32 (w.toNat % 64 + 256 * (w.toNat / 256 % 64)) := by
  have fields : w.toNat &&& 0x3F3F = 2 ^ 8 * (w.toNat / 2 ^ 8 % 2 ^ 6) + w.toNat % 2 ^ 6 := by
    refine Nat.eq_of_testBit_eq fun i => ?_
    rw [Nat.testBit_and, show 0x3F3F = 2 ^ 8 * (2 ^ 6 - 1) + (2 ^ 6 - 1) from rfl, Nat.testBit_two_pow_mul_add _ (by decide),
      Nat.testBit_two_pow_mul_add _ (by omega)]
    split
    · rw [Nat.testBit_two_pow_sub_one, Nat.testBit_mod_two_pow, Bool.and_comm]
    · rw [Nat.testBit_two_pow_sub_one, Nat.testBit_mod_two_pow, Nat.testBit_div_two_pow, Bool.and_comm, Nat.sub_add_cancel (by omega)]
  apply BitVec.eq_of_toNat_eq
  rw [BitVec.toNat_and, BitVec.toNat_ofNat, BitVec.toNat_ofNat, show 0x3F3F % 2 ^ 32 = 0x3F3F from rfl, fields]
  omega

theorem privilegedWrite_holds : PrivilegedWrite := by
  intro s t n b l c a x h hm hp _ hr w
  rw [← reaches_iff_mayReach] at hr
  have ht : s.team s.cur = some t := h.1
  have hv : (w.setWidth 64).toNat = w.toNat := by simp; omega
  refine ⟨fun width hx h6 => ?_, fun hx h6 => ?_, fun hx => ?_⟩
  · obtain ⟨hs, hw, h10, hst⟩ := singleXids_split _ hx
    obtain ⟨t', l', st⟩ := storedXid_of_mem h hst (w.setWidth 64)
    refine ⟨_, t', l', ?_, st.placed, ?_, fun y _ hy => ?_, ?_, ?_, ?_, st.pc, st.home⟩
    · rw [setx_single ht hm hp hr rfl hs hw h10, xidValueOk_single hx (by rwa [hv])]; rfl
    · rw [st.reads, if_pos rfl, hv]
    · rw [st.reads, if_neg hy]
    all_goals rw [← st.file]
  · rw [hx] at hr
    have bad : xidValueOk 0x001 (w.setWidth 64) = false := by simpa [xidValueOk, hv] using h6
    rw [setx_single ht hm hp hr hx rfl rfl (by decide), if_pos bad]
  · rw [hx] at hr
    have ok : xidValueOk 0x040 (w.setWidth 64) = true ↔
        (w.toNat % 64 < 32 ∨ w.toNat % 64 = 63) ∧ (w.toNat / 256 % 64 < 32 ∨ w.toNat / 256 % 64 = 63) := by
      simp [xidValueOk, hv]
    have exec_eq := setx_single (c := c) (a := a) ht hm hp hr hx rfl rfl (by decide)
    refine ⟨fun hin => ⟨_, by rw [exec_eq, ok.2 hin]; rfl, rfl, ?_, fun k hk => ?_⟩, fun hout => ?_⟩
    · simp [storeXid, laneFields, w]
    · simp [storeXid, hk]
    · rw [exec_eq, if_pos (by rwa [← ok, Bool.not_eq_true] at hout)]

/-! ### The pairs -/

/-- Both halves of a pair are of one class (R94). -/
theorem reaches_high {m : Mode} : ∀ k ∈ pairXids, m.reaches k = true → m.reaches (k + 1) = true := by cases m <;> decide

/-- Of the pairs, the handler bases alone are checked (R392). -/
theorem xidValueOk_pair {k : Nat} (hk : k ∈ pairXids) (v : BitVec 64) :
    xidValueOk k v = true ↔ k ∉ [0x014, 0x016] ∨ v.toNat % 64 = 0 := by
  simp only [pairXids, List.mem_cons, List.not_mem_nil, or_false] at hk
  rcases hk with rfl | rfl | rfl | rfl | rfl | rfl | rfl | rfl | rfl | rfl <;> simp [xidValueOk]

theorem privilegedPairWrite_holds : PrivilegedPairWrite := by
  intro s t n b l c a e x h hm hp hr hx v
  rw [← reaches_iff_mayReach] at hr
  obtain ⟨ht, hb, hn, hl⟩ := id h
  obtain ⟨-, -, -, -, hlt, hcls, hst⟩ := pairXids_split _ hx
  have hx1 : (x + 1#11).toNat = x.toNat + 1 := by rw [BitVec.toNat_add]; simp; omega
  let u : Team := { t with xHold := t.xHold.put x.toNat (t.readS s.tick a.toNat) }
  have hu : (s.setTeam s.cur u).team (s.setTeam s.cur u).cur = some u := by simp
  have high : exec (.setx c e (x + 1#11)) (s.setTeam s.cur u) =
      if xidValueOk x.toNat v = false then .next ((s.setTeam s.cur u).setTeam s.cur u.illegalOp)
      else .next (storeXid (s.setTeam s.cur u) s.cur u x.toNat v) :=
    setx_high (s := s.setTeam s.cur u) (t := u) hu hm hp (reaches_high _ hx hr) hx1 hx (by simp [u])
  refine ⟨u, setx_low ht hm hp hr rfl hx, rfl, fun ⟨hbase, hodd⟩ => ?_, fun hok => ?_⟩
  · rw [high, if_pos (by rw [← Bool.not_eq_true, xidValueOk_pair hx]; simp [hbase, hodd])]
  · obtain ⟨t', l', st⟩ := storedXid_of_mem (s := s.setTeam s.cur u) (t := u) ⟨hu, hb, hn, hl⟩ hst v
    refine ⟨_, t', l', ?_, st.placed, ?_, fun y _ hy => ?_, ?_, st.home, fun hd => ?_⟩
    · rw [high, (xidValueOk_pair hx v).2 hok]; rfl
    · rw [st.reads, if_pos rfl]; exact ofNat_toNat_mod v
    · rw [st.reads, if_neg hy]; rfl
    · exact st.regs hcls
    · rw [st.cls hd]; rfl

/-! ### Outside the register's class -/

theorem privilegeTrap_holds : PrivilegeTrap := by
  intro s t r c d x ht hr hm
  refine ⟨fun hx => ?_, fun hu => ?_⟩
  · rw [← reaches_iff_mayReach] at hx
    have traps := raiseAll_teamTraps hr 5 (BitVec.ofNat 32 x.toNat)
    refine ⟨⟨_, ?_, traps⟩, _, ?_, traps⟩
    · simp [exec_getx, execGetx, ht, hm, hx, onTeam_of ht]
    · simp [exec_setx, execSetx, ht, hm, hx, onTeam_of ht]
  · have traps := raiseAll_teamTraps hr 5 t.itemWord
    have acts : ¬ t.k0 = 0#1024 → ¬ t.acting = 0#1024 := by simpa [Team.mute] using hm
    rw [itemWord_of_run hr] at traps
    refine ⟨⟨_, ?_, traps⟩, ⟨_, ?_, traps⟩, _, ?_, traps⟩
    · simp [exec_tlbi, execTlbi, privileged, ht, hm, hu, onTeam_of ht, itemWord_of_run hr]
    · simp [exec_tlbiAll, execTlbiAll, privileged, ht, hm, hu, onTeam_of ht, itemWord_of_run hr]
    · simpa [exec_rett, returnFromTrap, ht, hu, Team.raiseAll, itemWord_of_run hr] using fun hk ha => absurd ha (acts hk)

/-! ### Translations (R140, R411) -/

/-- Changing every record of a table changes what each number finds. -/
theorem find_map_values {α : Type} (f : α → α) (m : Table α) (k : Nat) : Table.find (m.map fun x => (x.1, f x.2)) k = (m.find k).map f := by
  induction m with
  | nil => rfl
  | cons x m ih =>
    simp only [List.map_cons, Table.find, ih]
    split <;> rfl

theorem mem_tlb_dropTranslations_core (s : State) (gone : TlbEntry → Bool) (k : Nat) (y : TlbEntry) :
    y ∈ ((dropTranslations s gone).core k).tlb ↔ y ∈ (s.core k).tlb ∧ ¬ gone y = true := by
  rw [dropTranslations, State.core, find_map_values fun c : Core => { c with tlb := c.tlb.filter fun e => !gone e }, State.core]
  cases s.cores.find k <;> simp [Core.fresh]

theorem mem_tlb_dropTranslations_cluster (s : State) (gone : TlbEntry → Bool) (k : Nat) (y : TlbEntry) :
    y ∈ ((dropTranslations s gone).cluster k).tlb ↔ y ∈ (s.cluster k).tlb ∧ ¬ gone y = true := by
  rw [dropTranslations, State.cluster, find_map_values fun c : Cluster => { c with tlb := c.tlb.filter fun e => !gone e },
    State.cluster]
  cases s.clusters.find k <;> simp [Cluster.fresh]

/-- A privileged instruction that acts. -/
theorem privileged_acts {s : State} {t : Team} (ht : s.team s.cur = some t) (hu : t.mode ≠ .u) (hm : t.mute = false)
    (hp : ∀ r, t.poisonS r = false) (src : List Nat) (act : State → Team → Out) : privileged s src act = act s t := by
  simp [privileged, ht, hm, hu, Team.taintS, hp]

theorem translationsRemoved_holds : TranslationsRemoved := by
  intro s t n b l c a h hu hm hp va
  have acts := privileged_acts h.1 hu hm hp
  have one (hva : va < 2 ^ 56) : exec (.tlbi c a) s =
      .next (dropTranslations s fun e => e.ctx == l.ctx && decide (e.base ≤ va ∧ va < e.base + 2 ^ e.bits)) := by
    simp only [exec_tlbi, execTlbi, acts, ctxOf_placed h]
    exact if_neg (Nat.not_le.2 hva)
  have all : exec (.tlbiAll c) s =
      .next (dropTranslations s fun e => e.ctx == l.ctx && e.asid == (s.context l.ctx).xasid.toNat) := by
    simp only [exec_tlbiAll, execTlbiAll, acts, ctxOf_placed h]
  refine ⟨fun hva => ⟨_, one hva, rfl, ?_, ?_⟩, _, all, rfl, ?_, ?_⟩
  all_goals
    simp only [mem_tlb_dropTranslations_core, mem_tlb_dropTranslations_cluster, Bool.and_eq_true, beq_iff_eq, decide_eq_true_eq,
      implies_true]

/-- Settles O10: a store to a register changes that register alone, a mode below its class traps, and `TLBI` filters every TLB. -/
theorem systemInstructions : Obligations.SystemInstructions :=
  ⟨privilegedWrite_holds, privilegedPairWrite_holds, privilegeTrap_holds, translationsRemoved_holds⟩

/-! ### A team in U that brings on a warm reset (R28, R101)

`Obligations.UserKeepsSystem` holds for no reason that the model gives: its truth rests on what firmware is configured to do. -/

open Sys2Proof.Tests

/-- A team in U about to issue `SYSC` as the last word of its run, whose trap stack pointer is unaligned, with no handler image loaded
for H either: the entry becomes `DOUBLE` and ends the context (R99, R101). One context is listed. -/
def unreachableHandler : State :=
  { issuingWith (fun t => { t with xtsp := 1 }) 0x64000000 with contexts := [(0, Context.fresh)] }

theorem unreachableHandler_inU : ∃ t, unreachableHandler.team unreachableHandler.cur = some t ∧ t.mode = .u := by
  have mode : (unreachableHandler.team unreachableHandler.cur).map Team.mode = some .u := by decide +kernel
  simpa using mode

set_option maxRecDepth 20000 in
theorem sysc_unreachableHandler : ∃ s', exec (.sysc 0) unreachableHandler = .next (endContext s' 0 20) := ⟨_, rfl⟩

/-- A `DOUBLE` that firmware turns into a warm reset leaves no context's registers (R28). -/
theorem endContext_contexts (on : Config.doubleResets = true) (s : State) (ctx cause : Nat) : (endContext s ctx cause).contexts = [] := by
  rw [endContext, if_pos on]
  rfl

/-- O59 says more than the model lets one know: it gives the value of `Config.doubleResets`, which is opaque, since a trap of a team in U
whose handler cannot be reached is a warm reset where firmware is configured so (R28, R101, R218). -/
theorem doubleResets_off_of_userKeepsSystem (keeps : Obligations.UserKeepsSystem) : Config.doubleResets = false := by
  rw [← Bool.not_eq_true]
  intro on
  obtain ⟨t, ht, hu⟩ := unreachableHandler_inU
  obtain ⟨s', he⟩ := sysc_unreachableHandler
  obtain ⟨contexts, -⟩ := keeps _ _ t (.sysc 0) rfl ht hu he
  rw [endContext_contexts on] at contexts
  cases contexts

end Sys2Proof.Machine
end

section
/-! SUPPORT. Rules of the shared operations that the sections below use: putting a team, emitting a record, writing and reading a
register, noting consumers. -/

namespace Sys2Proof.Machine

open Sys2Proof.Claims

/-! ### Putting a team -/

theorem put_put {α : Type} (m : Sparse α) (a : Nat) (v w : α) : (m.put a v).put a w = m.put a w := by
  induction m with
  | nil => simp [Sparse.put]
  | cons x m ih =>
    obtain ⟨k, z⟩ := x
    rcases Nat.lt_trichotomy a k with h | rfl | h
    · simp [Sparse.put, h]
    · simp [Sparse.put]
    · simp [Sparse.put, show ¬ a < k by omega, show ¬ a = k by omega, ih]

/-- Putting a team twice is putting it once. -/
theorem setTeam_setTeam (s : State) (k : Nat) (t u : Team) : (s.setTeam k t).setTeam k u = s.setTeam k u := by
  simp only [State.setTeam, Table.put, put_put]

@[simp] theorem setTeam_ctxOf (s : State) (k : Nat) (u t : Team) : (s.setTeam k u).ctxOf t = s.ctxOf t := rfl

/-! ### Emitting a record leaves all but the recorder (R246) -/

@[simp] theorem emit_team (s : State) (ucls unit type : Nat) (cid : BitVec 64) (payload k : Nat) :
    (emit s ucls unit type cid payload).team k = s.team k := rfl
@[simp] theorem emit_core (s : State) (ucls unit type : Nat) (cid : BitVec 64) (payload k : Nat) :
    (emit s ucls unit type cid payload).core k = s.core k := rfl
@[simp] theorem emit_home (s : State) (ucls unit type : Nat) (cid : BitVec 64) (payload : Nat) :
    (emit s ucls unit type cid payload).home = s.home := rfl

/-! ### Writing a scalar (R85) -/

/-- A scalar write leaves all but the registers and the notes beside outstanding operations (R67, R85). -/
theorem writeS_eq (t : Team) (d : Nat) (w : Word) :
    t.writeS d w = { t with regs := (t.writeS d w).regs, ops := (t.writeS d w).ops } := by
  unfold Team.writeS Team.dirtyKeys
  split
  · rfl
  · split <;> rfl

@[simp] theorem writeS_mode (t : Team) (d : Nat) (w : Word) : (t.writeS d w).mode = t.mode := by rw [writeS_eq]
@[simp] theorem writeS_clkLatch (t : Team) (d : Nat) (w : Word) : (t.writeS d w).clkLatch = t.clkLatch := by rw [writeS_eq]
@[simp] theorem writeS_xLatch (t : Team) (d : Nat) (w : Word) : (t.writeS d w).xLatch = t.xLatch := by rw [writeS_eq]

theorem writeS_ops_nil {t : Team} (h : t.ops = []) (d : Nat) (w : Word) : (t.writeS d w).ops = [] := by
  unfold Team.writeS Team.dirtyKeys
  split
  · exact h
  · simp [h, Team.modRegs]

theorem sreg_writeS (t : Team) {d : Nat} (hd : d ≠ 0) (w : Word) : sreg (t.writeS d w) d = w :=
  have ⟨_, _, written, _⟩ := writeS_writes t d w
  written hd

/-! ### Writing vector elements (R89) -/

/-- A vector write leaves all but the registers and the notes beside outstanding operations. -/
theorem writeV_eq (t : Team) (d : Nat) (ls : List Nat) (f : Nat → Word) :
    t.writeV d ls f = { t with regs := (t.writeV d ls f).regs, ops := (t.writeV d ls f).ops } := by
  rw [Team.writeV, dirtyKeys_eq]
  rfl

@[simp] theorem writeV_mode (t : Team) (d : Nat) (ls : List Nat) (f : Nat → Word) : (t.writeV d ls f).mode = t.mode := by rw [writeV_eq]
@[simp] theorem writeV_run (t : Team) (d : Nat) (ls : List Nat) (f : Nat → Word) : (t.writeV d ls f).run = t.run := by rw [writeV_eq]

theorem vreg_writeV_of_mem (t : Team) (d : Nat) {ls : List Nat} (f : Nat → Word) {l : Nat} (h : l ∈ ls) :
    vreg (t.writeV d ls f) d l = f l :=
  have ⟨_, _, written, _⟩ := writeV_writes t d ls f
  (written l h).1

theorem vreg_writeV_of_not_mem (t : Team) (d : Nat) {ls : List Nat} (f : Nat → Word) {r l : Nat}
    (h : ∀ x ∈ ls, vKey t.mode r l ≠ vKey t.mode d x) : vreg (t.writeV d ls f) r l = vreg t r l := by
  have ⟨_, _, _, others⟩ := writeV_writes t d ls f
  rw [vreg, vreg, writeV_mode, (others _ h).1]

theorem setAll_congr {α : Type} [DecidableEq α] (z : α) (key : Nat → Nat) {f g : Nat → α} {ls : List Nat} (h : ∀ l ∈ ls, f l = g l)
    (m : Sparse α) : Sparse.setAll z m key f ls = Sparse.setAll z m key g ls := by
  induction ls generalizing m with
  | nil => rfl
  | cons l ls ih => rw [Sparse.setAll, Sparse.setAll, h l (by simp), ih fun x hx => h x (by simp [hx])]

/-- The lanes written see their own values alone. -/
theorem writeV_congr (t : Team) (d : Nat) {ls : List Nat} {f g : Nat → Word} (h : ∀ l ∈ ls, f l = g l) :
    t.writeV d ls f = t.writeV d ls g := by simp only [Team.writeV, setAll_congr _ _ h]

/-- Bank fields and the others lie apart (R88, R89). -/
theorem vKey_injective {m : Mode} {r r' l l' : Nat} (hr : r < 128) (hr' : r' < 128) (hl : l < 1024) (hl' : l' < 1024)
    (h : vKey m r l = vKey m r' l') : r = r' ∧ l = l' := by
  unfold vKey at h
  cases m <;> simp only [Mode.code, ne_eq, reduceCtorEq, not_true_eq_false, not_false_eq_true, and_true, and_false, if_false] at h
  · omega
  all_goals
    split at h <;> split at h <;> omega

/-- A vector write leaves the other registers of the lanes there are. -/
theorem vreg_writeV_other (t : Team) {d r l : Nat} {ls : List Nat} (f : Nat → Word) (hd : d < 128) (hr : r < 128) (hl : l < 1024)
    (hls : ∀ x ∈ ls, x < 1024) (hne : r ≠ d) : vreg (t.writeV d ls f) r l = vreg t r l :=
  vreg_writeV_of_not_mem t d f fun x hx e => hne (vKey_injective hr hd hl (hls x hx) e).1

/-- A vector write leaves the other kinds of registers. -/
theorem writeV_regs (t : Team) (d : Nat) (ls : List Nat) (f : Nat → Word) :
    (t.writeV d ls f).regs = { t.regs with v := (t.writeV d ls f).regs.v, vPoison := (t.writeV d ls f).regs.vPoison } := by
  have ⟨_, hregs, _⟩ := writeV_writes t d ls f
  rw [← hregs]

/-! ### Held lanes and consumers (R98, R273) -/

theorem held_of_run {t : Team} {r : Run} (hr : t.run = some r) : t.held = r.held := by simp [Team.held, hr]

theorem consume_eq (t : Team) (m : Mask) : t.consume m = { t with run := (t.consume m).run } := by
  unfold Team.consume
  split
  · rfl
  · dsimp only
    split <;> rfl

@[simp] theorem consume_mode (t : Team) (m : Mask) : (t.consume m).mode = t.mode := by rw [consume_eq]

@[simp] theorem vreg_consume (t : Team) (m : Mask) (r l : Nat) : vreg (t.consume m) r l = vreg t r l := by rw [consume_eq]; rfl

end Sys2Proof.Machine
end

section
/-! SUPPORT. What a team between runs does at its turn: it takes what it owes, and a consumption rolls it back or becomes a trap. -/

namespace Sys2Proof.Machine

open Sys2Proof.Claims

/-! ### A team that rests -/

/-- A team between runs, at no blocking point, with a lane left and nothing on its way (R99). -/
structure Rests (t : Team) : Prop where
  run : t.run = none
  wait : t.wait = none
  ended : t.ended = false
  ops : t.ops = []
  parked : t.parked = []
  opening : t.opening = none
  gone : t.gone = false

theorem drainOps_of_ops_nil {t : Team} (h : t.ops = []) (n : Nat) : t.drainOps n = t := by simp [Team.drainOps, h]

theorem parkedTraps_of_parked_nil {t : Team} (h : t.parked = []) : t.parkedTraps = [] := by simp [Team.parkedTraps, h]

/-- A team that owes nothing of itself, and has nothing parked, stays as it is. -/
theorem tryEnter_of_due_nil {s : State} {k : Nat} {t : Team} (ht : s.team k = some t) (hp : t.parked = []) (hd : t.due = []) :
    tryEnter s k = s := by
  simp [tryEnter, ht, Team.standsOwing, Team.owes, parkedTraps_of_parked_nil hp, hd]

theorem settleRegion_of_opening_none {s : State} {k : Nat} {t : Team} (ht : s.team k = some t) (h : t.opening = none) :
    settleRegion s k = s := by simp [settleRegion, ht, h]

theorem settleConsumption_of_rolling_nil {s : State} {k : Nat} {t : Team} (ht : s.team k = some t) (ho : t.opening = none)
    (hr : t.rolling = []) : settleConsumption s k = s := by
  simp [settleConsumption, settleRegion_of_opening_none ht ho, ht, hr]

/-- Whether a bank waits depends on each team's size, mode, banks, run and operations alone (R90). -/
theorem bankWaits_setTeam {s : State} {k : Nat} {t u : Team} (ht : s.team k = some t) (hw : u.words = t.words) (hm : u.mode = t.mode)
    (hs : u.bankS = t.bankS) (hh : u.bankH = t.bankH) (hr : u.run = t.run) (ho : u.ops = t.ops) (m : Mode) :
    bankWaits (s.setTeam k u) k m = bankWaits s k m := by
  have hsize : bankSize u = bankSize t := by rw [bankSize, bankSize, Team.lanes, Team.lanes, hw]
  have size (j : Nat) : (if j = k then some u else s.team j).map bankSize = (s.team j).map bankSize := by
    split
    · simp [*]
    · rfl
  have busy : bankBusy (s.setTeam k u) = bankBusy s := by
    funext x
    by_cases hx : x.1 = k
    · simp [bankBusy, hx, ht, hm, hr, ho]
    · simp [bankBusy, hx]
  simp [bankWaits, size, busy, ht, hs, hh, hsize]

namespace Rests

variable {t : Team} (h : Rests t)
include h

theorem owes : t.owes = t.due := by simp [Team.owes, h.gone, parkedTraps_of_parked_nil h.parked]

/-- Its turn: the entry, or nothing while the bank it enters has no room (R90, R99). -/
theorem tryEnter_eq {s : State} {k : Nat} (ht : s.team k = some t) (hr : t.rolling = []) (hd : t.due ≠ []) :
    tryEnter s k =
      if bankWaits s k (entryMode t t.due) then s.setTeam k t else trapEntry (s.setTeam k t) k t.due := by
  have owing : t.standsOwing = true := by simp [Team.standsOwing, h.owes, h.run, h.wait, h.ended, hr, hd]
  have awaits : t.awaitsA = false := by simp [Team.awaitsA, h.ops]
  have settled : settleConsumption (s.setTeam k t) k = s.setTeam k t :=
    settleConsumption_of_rolling_nil (by simp) h.opening hr
  have waits (m : Mode) : bankWaits (s.setTeam k t) k m = bankWaits s k m := bankWaits_setTeam ht rfl rfl rfl rfl rfl rfl m
  simp [tryEnter, ht, owing, drainOps_of_ops_nil h.ops, settled, awaits, waits, h.owes]

/-- A consumption that may roll the team back does (R276). -/
theorem settleConsumption_rolls {s : State} {k : Nat} (ht : s.team k = some t) (hr : t.rolling ≠ []) (hm : t.mayRoll = true) :
    settleConsumption s k = rollBack (s.setTeam k t) k := by
  simp [settleConsumption, settleRegion_of_opening_none ht h.opening, ht, hr, h.run, h.opening, hm, drainOps_of_ops_nil h.ops, h.ops]

/-- One that may not is owed as a trap (R273, R277). -/
theorem settleConsumption_owes {s : State} {k : Nat} (ht : s.team k = some t) (hr : t.rolling ≠ []) (hm : t.mayRoll = false) :
    settleConsumption s k = s.setTeam k { t with due := t.due ++ t.rolling, rolling := [] } := by
  simp [settleConsumption, settleRegion_of_opening_none ht h.opening, ht, hr, h.run, h.opening, hm]

end Rests

theorem mayRoll_iff (t : Team) :
    t.mayRoll = true ↔ ∃ r, t.region = some r ∧ r.leaked = false ∧ r.rolled = false ∧ t.depth = 0 := by
  cases h : t.region <;> simp [Team.mayRoll, h, and_assoc]

/-! ### Rolling back (R276) -/

/-- The team that its checkpoint gives back. -/
def Team.restored (t : Team) (r : Region) : Team :=
  let cut := fun (e : StackEntry) => { e with saved := e.saved &&& ~~~t.exited, other := e.other &&& ~~~t.exited }
  ({ t with
      rolling := [], due := t.due.filter LaneTrap.outside, stack := r.stack.map cut, sg := r.sg, ldclk := r.ldclk, pc := r.restart
      region := some { r with rolled := true }
      regs := { t.regs with s := r.s, sPoison := [] } } : Team).writeK0 (r.k0 &&& ~~~t.exited) 0#1024

/-- A team with nothing parked: its registers come from the checkpoint, and its unpublished entries since leave the core's log. -/
theorem rollBack_restores {s : State} {k : Nat} {t : Team} {r : Region} (ht : s.team k = some t) (hg : t.region = some r)
    (hp : t.parked = []) :
    (rollBack s k).team k = some (t.restored r) ∧ (rollBack s k).home = s.home ∧
      ((rollBack s k).core (coreOfTeam k)).log = (s.core (coreOfTeam k)).log.filter fun e =>
        !(e.tctx == ctxOfTeam k && some e.ctx == (s.core (coreOfTeam k)).tagOf (s.ctxOf t) && decide (r.mark ≤ e.pos) && !e.pub) := by
  simp [rollBack, ht, hg, hp, Team.restored, Team.modRegs, Team.writeK0, State.ctxOf, State.launchOf, State.blockOf]

/-! ### The two turns -/

theorem exec_trapEntry (k : Nat) (s : State) : exec (.trapEntry k) s = .next (tryEnter s k) := rfl
theorem exec_regionRollback (k : Nat) (s : State) : exec (.regionRollback k) s = .next (tryEnter (settleConsumption s k) k) := rfl

/-- `REGION_ROLLBACK` of a team that may roll back and owes no trap. -/
theorem exec_regionRollback_rolls {s : State} {k : Nat} {t : Team} {r : Region} (h : Rests t) (ht : s.team k = some t)
    (hr : t.rolling ≠ []) (hd : t.due = []) (hg : t.region = some r) (hm : t.mayRoll = true) :
    exec (.regionRollback k) s = .next (rollBack (s.setTeam k t) k) := by
  obtain ⟨team, -, -⟩ := rollBack_restores (s := s.setTeam k t) (k := k) (by simp) hg h.parked
  rw [exec_regionRollback, h.settleConsumption_rolls ht hr hm,
    tryEnter_of_due_nil team (by exact h.parked) (by simp [Team.restored, Team.writeK0, Team.modRegs, hd])]

/-- `REGION_ROLLBACK` of a team that may not roll back: the consumption is taken as a trap. -/
theorem exec_regionRollback_traps {s : State} {k : Nat} {t : Team} (h : Rests t) (ht : s.team k = some t) (hr : t.rolling ≠ [])
    (hd : t.due = []) (hm : t.mayRoll = false) (hw : bankWaits s k (entryMode t t.rolling) = false) :
    ∃ s1, exec (.regionRollback k) s = .next (trapEntry s1 k t.rolling) ∧
      s1.team k = some { t with due := t.rolling, rolling := [] } ∧ s1.home = s.home ∧ s1.cores = s.cores := by
  let u : Team := { t with due := t.rolling, rolling := [] }
  have rests : Rests u := ⟨h.run, h.wait, h.ended, h.ops, h.parked, h.opening, h.gone⟩
  have waits : bankWaits (s.setTeam k u) k (entryMode u u.due) = false :=
    (bankWaits_setTeam (u := u) ht rfl rfl rfl rfl rfl rfl _).trans hw
  refine ⟨(s.setTeam k u).setTeam k u, ?_, by simp [u], rfl, rfl⟩
  rw [exec_regionRollback, h.settleConsumption_owes ht hr hm, hd, List.nil_append,
    rests.tryEnter_eq (s := s.setTeam k u) (by simp) rfl hr, if_neg (by simp [waits])]

/-- Settles O29: at rest each of the two turns is one entry, one rollback, or nothing. -/
theorem turnsBetweenRuns : Obligations.TurnsBetweenRuns := by
  intro s k t ht run wait ended ops parked opening gone
  have h : Rests t := ⟨run, wait, ended, ops, parked, opening, gone⟩
  refine ⟨fun hr hd hw => ?_, fun hr hd hw => ?_, fun hd => ?_, fun r hr hd h0 hg hl hn => ?_, fun hr hd hno hw => ?_⟩
  · rw [exec_trapEntry, h.tryEnter_eq ht hr hd, if_neg (by simp [hw])]
  · rw [exec_trapEntry, h.tryEnter_eq ht hr hd, if_pos hw]
  · rw [exec_trapEntry, tryEnter_of_due_nil ht parked hd]
  · obtain ⟨team, home, log⟩ := rollBack_restores (s := s.setTeam k t) (k := k) (by simp) hg parked
    have rolls := exec_regionRollback_rolls h ht hr hd hg ((mayRoll_iff t).2 ⟨r, hg, hl, hn, h0⟩)
    refine ⟨_, t.restored r, rolls, team, home, rfl, rfl, rfl, rfl, rfl, rfl, ?_, rfl, rfl, fun e => ?_⟩
    · simp [kreg, kKey, Team.restored, Team.writeK0, Team.modRegs]
    · rw [log, List.mem_filter]
      simp only [State.setTeam_core_eq, setTeam_ctxOf, Bool.not_eq_true', ← Bool.not_eq_true, Bool.and_eq_true, beq_iff_eq,
        decide_eq_true_eq, and_assoc]
  · refine exec_regionRollback_traps h ht hr hd (Bool.eq_false_iff.2 fun hm => ?_) hw
    obtain ⟨r, hg, hl, hn, h0⟩ := (mayRoll_iff t).1 hm
    obtain h | h | ⟨r', hg', h⟩ := hno
    · simp [hg] at h
    · exact h h0
    · cases hg.symm.trans hg'
      simp [hl, hn] at h

end Sys2Proof.Machine
end

section
/-! SUPPORT. Reading the special and the privileged registers: `GETS` with the latches of the counters, `GETX` with its latch and its
counted reads. -/

namespace Sys2Proof.Machine

open Sys2Proof.Claims

/-! ### Instructions that act at once -/

theorem finishOp_of_ops_nil {t : Team} (h : t.ops = []) (n num : Nat) : t.finishOp n num = t := by simp [Team.finishOp, h]

/-- A team-wide instruction that reads no scalar acts (R41). -/
theorem once_nil {t : Team} (hm : t.mute = false) (act : Team → Team) : t.once [] act = act t := by
  simp [Team.once, hm, Team.taintS]

/-! ### `GETS` (R57, R91, R92, R341) -/

theorem exec_gets (c : BitVec 1) (d : BitVec 6) (n : BitVec 8) (s : State) : exec (.gets c d n) s = execGets d n s := rfl

theorem readFlags_of_ops_nil {t : Team} (h : t.ops = []) (n : Nat) : t.readFlags n = t.regs.fflags := by simp [Team.readFlags, h]

theorem budgetWord_of_lt (n : Nat) {b : BitVec 64} (h : b.toNat < 2 ^ 32) : budgetWord n b = BitVec.ofNat 32 b.toNat := if_pos h

/-- The values, for a placed team; the budget where it is given, the flags with no operation outstanding. -/
theorem specialValue_eq_specialOf {s : State} {t : Team} {n : Nat} {b : Block} {l : Launch} (h : Placed s t n b l) {id : Nat}
    (hl : id = 13 → l.budget.toNat < 2 ^ 32) (ho : id = 14 → t.ops = []) : specialValue s s.cur t id = specialOf s t b l id := by
  have hb : s.blockOf t = some b := by
    obtain ⟨_, hblock, _⟩ := h
    exact hblock
  have hx := launchOf_placed h
  have budget : id = 13 → budgetWord s.tick l.budget = BitVec.ofNat 32 l.budget.toNat := fun e => budgetWord_of_lt _ (hl e)
  unfold specialValue specialOf
  split <;> simp [*, readFlags_of_ops_nil, Team.lanes, coreOfTeam, clusterOf, Launch.node, Nat.div_div_eq_div_mul,
    Nat.shiftRight_eq_div_pow, ← BitVec.ofNat_toNat]

section
variable {s : State} {t : Team} (ht : s.team s.cur = some t) (hm : t.mute = false)
include ht hm

theorem gets_special (c : BitVec 1) (d : BitVec 6) {id : BitVec 8} (hid : id.toNat < 8 ∨ 11 < id.toNat) :
    exec (.gets c d id) s = .next (s.setTeam s.cur (t.writeS d.toNat (specialValue s s.cur t id.toNat))) := by
  rw [exec_gets, execGets, onTeam_of ht, once_nil hm]
  split
  iterate 4 · omega
  · rfl

theorem gets_low (c : BitVec 1) (d : BitVec 6) {id : BitVec 8} {counter : Nat}
    (hc : (id.toNat = 8 ∧ counter = s.cycles) ∨ (id.toNat = 10 ∧ counter = s.time)) :
    exec (.gets c d id) s = .next (s.setTeam s.cur (t.readCounter d.toNat ((id.toNat - 8) / 2) counter false)) := by
  rw [exec_gets, execGets, onTeam_of ht, once_nil hm]
  rcases hc with ⟨h, rfl⟩ | ⟨h, rfl⟩ <;> simp [h]

theorem gets_high (c : BitVec 1) (d : BitVec 6) {id : BitVec 8} (hid : id.toNat = 8 ∨ id.toNat = 10) :
    exec (.gets c d (id + 1#8)) s = .next (s.setTeam s.cur
      (t.readCounter d.toNat ((id.toNat - 8) / 2) (if id.toNat = 8 then s.cycles else s.time) true)) := by
  have next : (id + 1#8).toNat = id.toNat + 1 := by rw [BitVec.toNat_add]; simp; omega
  rw [exec_gets, execGets, onTeam_of ht, once_nil hm, next]
  rcases hid with h | h <;> simp [h]

end

theorem specialRegisterRead_holds : SpecialRegisterRead := by
  intro s t n b l c d id h hm hid hl ho
  refine ⟨_, gets_special h.1 hm c d hid, ?_⟩
  rw [specialValue_eq_specialOf h hl ho]
  exact writeS_writes _ _ _

/-- The low half latches the high half (R92). -/
theorem readCounter_low (t : Team) {d : Nat} (hd : d ≠ 0) (which counter : Nat) :
    let u := t.readCounter d which counter false
    sreg u d = BitVec.ofNat 32 counter ∧ u.mode = t.mode ∧
      u.clkLatch.find (2 * t.mode.code + which) = some (BitVec.ofNat 32 (counter / 2 ^ 32)) := by
  refine ⟨sreg_writeS _ hd _, ?_, ?_⟩ <;> simp [Team.readCounter]

/-- The high half takes the latch, or is read live (R92). -/
theorem readCounter_high (t : Team) {d : Nat} (hd : d ≠ 0) (which counter : Nat) :
    let u := t.readCounter d which counter true
    sreg u d = (t.clkLatch.find (2 * t.mode.code + which)).getD (BitVec.ofNat 32 (counter / 2 ^ 32)) ∧
      u.clkLatch.find (2 * t.mode.code + which) = none := by
  refine ⟨sreg_writeS _ hd _, ?_⟩
  simp [Team.readCounter]

theorem counterLatch_holds : CounterLatch := by
  intro s t c d id ht hm hd counter hc
  have hid : id.toNat = 8 ∨ id.toNat = 10 := hc.imp And.left And.left
  obtain ⟨low, mode, latch⟩ := readCounter_low t hd ((id.toNat - 8) / 2) counter
  refine ⟨⟨_, gets_low ht hm c d hc, low, fun s2 u2 e hu2 hm2 hmode hlatch he => ⟨_, gets_high hu2 hm2 c e hid, ?_⟩⟩,
    fun hn => ⟨_, gets_high ht hm c d hid, ?_⟩⟩
  · obtain ⟨high, taken⟩ := readCounter_high u2 he ((id.toNat - 8) / 2) (if id.toNat = 8 then s2.cycles else s2.time)
    rw [hmode, mode] at high taken
    rw [hlatch, latch] at high
    exact ⟨high, taken⟩
  · obtain ⟨high, -⟩ := readCounter_high t hd ((id.toNat - 8) / 2) (if id.toNat = 8 then s.cycles else s.time)
    rw [hn] at high
    rw [high, Option.getD_none]
    rcases hc with ⟨h, rfl⟩ | ⟨h, rfl⟩ <;> simp [h]

/-! ### `GETX` (R65, R94, R96, R342) -/

theorem privilegedValue_eq_xreg {s : State} {t : Team} {n : Nat} {b : Block} {l : Launch} (h : Placed s t n b l)
    (hs : t.snap = none) (ho : t.ops = []) {x : Nat} (hl : x = 0x032 → l.budget.toNat < 2 ^ 32) :
    privilegedValue s s.cur t x = xreg s t l x := by
  have hx := launchOf_placed h
  have hc := ctxOf_placed h
  have budget : x = 0x032 → budgetWord s.tick l.budget = BitVec.ofNat 32 l.budget.toNat := fun e => budgetWord_of_lt _ (hl e)
  unfold privilegedValue xreg
  split <;> simp [*, readFlags_of_ops_nil, Team.view, ← BitVec.ofNat_toNat]

/-! ### A scalar result counted on SETA (R65, R66) -/

/-- With SETA 15 it lands at once. -/
theorem issueA_lands {t : Team} {r : Run} (hr : t.run = some r) (ho : t.ops = []) (h15 : r.setA = 15) (n key : Nat) (w : Word) :
    t.issueA n [] [(key, w, false)] 0 = { t with
      nextOp := t.nextOp + 1
      regs := { t.regs with
        s := Sparse.set 0#32 t.regs.s key w
        sPoison := if t.regs.sPoison.isEmpty then t.regs.sPoison else Sparse.set false t.regs.sPoison key false } } := by
  simp [Team.issueA, Team.countsOn, hr, h15, Team.landOp, Team.newOp, Team.dirtyKeys, ho, Team.modRegs, Team.raiseFlags, maskOf]

/-- With another SETA it is an operation outstanding. -/
theorem issueA_waits {t : Team} {r : Run} (hr : t.run = some r) (h15 : r.setA ≠ 15) (n : Nat) (vd sd : List (Nat × Word × Bool))
    (g : FpFlags) :
    t.issueA n vd sd g =
      { t.bumpFlag t.depth r.setA with ops := t.ops ++ [t.newOp true false vd sd g], nextOp := t.nextOp + 1 } := by
  simp [Team.issueA, Team.countsOn, hr, h15, Team.startOp, Team.newOp, Team.bumpFlag]

/-! ### `GETX` with its latch -/

theorem slowXid_iff (x : Nat) : slowXid x = true ↔ x ∈ slowXids := by simp [slowXid, slowXids]

/-- What a read of a privileged register delivers: its value at once, or the one operation outstanding with it, counted on SETA. -/
structure Delivered (t u : Team) (r : Run) (d : Nat) (w : Word) (slow : Prop) : Prop where
  now : ¬ slow ∨ r.setA = 15 → sreg u d = w ∧ u.regs.v = t.regs.v ∧ u.regs.k = t.regs.k ∧ u.ops = []
  later : slow → r.setA ≠ 15 → u.regs = t.regs ∧
    ∃ o, u.ops = [o] ∧ o.flag = some r.setA ∧ o.vDest = [] ∧ o.sDest = [(sKey t.mode d, w, false)]

/-- The scalar takes a value, at once or counted. -/
def Team.deliver (t : Team) (n d : Nat) (w : Word) (slow : Bool) : Team :=
  if slow then t.issueA n [] [(sKey t.mode d, w, false)] 0 else t.writeS d w

/-- What a read of register `x` with value `v` gives (R96). -/
def Team.xidWord (t : Team) (x : Nat) (v : BitVec 64) : Word :=
  if (splitXid x).2 then (t.xLatch.find (4096 * t.mode.code + (splitXid x).1)).getD ((v >>> 32).setWidth 32) else v.setWidth 32

/-- The latches after it. -/
def Team.latched (t : Team) (x : Nat) (v : BitVec 64) : Team :=
  let key := 4096 * t.mode.code + (splitXid x).1
  if (splitXid x).2 then { t with xLatch := t.xLatch.drop key }
  else if wideXid (splitXid x).1 then { t with xLatch := t.xLatch.put key ((v >>> 32).setWidth 32) }
  else t

/-- A read is a delivery past the latch; a counted read of a low half also notes its operation, which the high half is to land after
(R96). -/
theorem readXid_eq {t : Team} (ho : t.ops = []) (n : Nat) {d : Nat} (hd : d ≠ 0) (x : Nat) (v : BitVec 64) :
    t.readXid n d x v =
      let u := (t.latched x v).deliver n d (t.xidWord x v) (slowXid x)
      if slowXid x && !(splitXid x).2 then
        { u with xLatch := u.xLatch.put (1048576 + (4096 * t.mode.code + (splitXid x).1)) (BitVec.ofNat 32 t.nextOp) }
      else u := by
  unfold Team.readXid Team.deliver Team.latched Team.xidWord
  rcases splitXid x with ⟨low, _ | _⟩
  · by_cases hw : wideXid low = true <;> by_cases slow : slowXid x = true <;> simp [hd, hw, slow]
  · by_cases slow : slowXid x = true
    · simp only [slow, hd, if_true, if_false, Bool.not_true, Bool.and_false, Bool.false_eq_true]
      split
      · simp only [finishOp_of_ops_nil, ho]
      · rfl
    · simp [slow]

section
variable {t : Team} {r : Run} (hr : t.run = some r) (ho : t.ops = []) (n : Nat) {d : Nat}
include hr ho

theorem deliver_xLatch (w : Word) (slow : Bool) : (t.deliver n d w slow).xLatch = t.xLatch := by
  unfold Team.deliver
  split
  · by_cases h15 : r.setA = 15
    · rw [issueA_lands hr ho h15]
    · rw [issueA_waits hr h15]; rfl
  · exact writeS_xLatch t d w

variable (hd : d ≠ 0)
include hd

theorem deliver_delivers (w : Word) {x : Nat} : Delivered t (t.deliver n d w (slowXid x)) r d w (x ∈ slowXids) := by
  rw [← slowXid_iff, Team.deliver]
  split
  case isTrue slow =>
    refine ⟨fun h => ?_, fun _ h15 => ?_⟩
    · rw [issueA_lands hr ho (h.resolve_left (not_not_intro slow))]
      exact ⟨by simp [sreg, hd], rfl, rfl, ho⟩
    · rw [issueA_waits hr h15]
      refine ⟨rfl, _, by rw [ho]; rfl, ?_, rfl, rfl⟩
      simp [Team.newOp, Team.countsOn, hr, h15]
  case isFalse quick =>
    refine ⟨fun _ => ⟨sreg_writeS t hd w, ?_, ?_, writeS_ops_nil ho d w⟩, fun slow => absurd slow quick⟩
    all_goals
      have ⟨_, hregs, _⟩ := writeS_writes t d w
      rw [← hregs]

/-- Changing a latch changes neither what is delivered nor where. -/
theorem readXid_delivers (x : Nat) (v : BitVec 64) : Delivered t (t.readXid n d x v) r d (t.xidWord x v) (x ∈ slowXids) := by
  have latched : t.latched x v = { t with xLatch := (t.latched x v).xLatch } := by
    unfold Team.latched
    split
    · rfl
    · split <;> rfl
  have delivers : Delivered t ((t.latched x v).deliver n d (t.xidWord x v) (slowXid x)) r d (t.xidWord x v) (x ∈ slowXids) := by
    rw [latched]
    obtain ⟨now, later⟩ := deliver_delivers (t := { t with xLatch := (t.latched x v).xLatch }) hr ho n hd (t.xidWord x v) (x := x)
    exact ⟨now, later⟩
  rw [readXid_eq ho n hd]
  split
  · exact ⟨delivers.now, delivers.later⟩
  · exact delivers

/-- The low half of a pair latches the high half. -/
theorem readXid_low {x : Nat} (hx : x ∈ pairXids) (v : BitVec 64) :
    t.xidWord x v = v.setWidth 32 ∧
      (t.readXid n d x v).xLatch.find (4096 * t.mode.code + x) = some ((v >>> 32).setWidth 32) := by
  obtain ⟨hs, hw, -⟩ := pairXids_split x hx
  have other : 4096 * t.mode.code + x ≠ 1048576 + (4096 * t.mode.code + x) := by omega
  refine ⟨by simp [Team.xidWord, hs], ?_⟩
  rw [readXid_eq ho n hd]
  have held : (((t.latched x v).deliver n d (t.xidWord x v) (slowXid x)).xLatch).find (4096 * t.mode.code + x) =
      some ((v >>> 32).setWidth 32) := by
    rw [deliver_xLatch (r := r)] <;> simp [Team.latched, hs, hw, hr, ho]
  split
  · simp only [hs, Table.find_put, if_neg other, held]
  · exact held

/-- The high half takes the latch, if there is one. -/
theorem readXid_high {x : Nat} (hx : x - 1 ∈ pairXids) (v : BitVec 64) :
    t.xidWord x v = (t.xLatch.find (4096 * t.mode.code + (x - 1))).getD ((v >>> 32).setWidth 32) ∧
      (t.readXid n d x v).xLatch.find (4096 * t.mode.code + (x - 1)) = none := by
  obtain ⟨-, -, hs, -⟩ := pairXids_split (x - 1) hx
  have pos : x ≠ 0 := by rintro rfl; simp [pairXids] at hx
  rw [Nat.sub_add_cancel (by omega)] at hs
  refine ⟨by simp [Team.xidWord, hs], ?_⟩
  rw [readXid_eq ho n hd]
  simp only [hs, Bool.not_true, Bool.and_false, Bool.false_eq_true, if_false]
  rw [deliver_xLatch (r := r)] <;> simp [Team.latched, hs, hr, ho]

end

theorem narrowXids_split : ∀ x ∈ narrowXids,
    splitXid x = (x, false) ∧ x ∉ pairXids ∧ x - 1 ∉ pairXids ∧ x ≠ 0x010 ∧ x ≠ 0x011 := by
  decide

theorem pairXids_apart : ∀ k ∈ pairXids, k - 1 ∉ pairXids ∧ k ≠ 0x010 ∧ k ≠ 0x011 ∧ k ≠ 0x032 ∧
    k + 1 ∉ pairXids ∧ k + 1 ≠ 0x010 ∧ k + 1 ≠ 0x011 := by decide

/-- A read of a register that no frame holds, in a mode of its class. -/
theorem getx_reads {s : State} {t : Team} (ht : s.team s.cur = some t) (hm : t.mute = false) (hf : t.flagFull true = false) (c : BitVec 1)
    (d : BitVec 6) {x : BitVec 11} (hr : mayReach t.mode x.toNat) (h10 : x.toNat ≠ 0x010) (h11 : x.toNat ≠ 0x011) :
    exec (.getx c d x) s =
      .next (s.setTeam s.cur (t.readXid s.tick d.toNat x.toNat (privilegedValue s s.cur t (splitXid x.toNat).1))) := by
  simp [exec_getx, execGetx, ht, hm, (reaches_iff_mayReach _ _).2 hr, hf, h10, h11, onTeam_of ht]

/-- A read of XEPC or XECAUSE, where no frame is read for it. -/
theorem getx_frame {s : State} {t : Team} (ht : s.team s.cur = some t) (hm : t.mute = false) (c : BitVec 1)
    (d : BitVec 6) {x : BitVec 11} (hr : mayReach t.mode x.toNat) (hx : x.toNat = 0x010 ∨ x.toNat = 0x011) {w : Word}
    (hw : frameWord s s.cur t (if x.toNat = 0x010 then 0 else 4) = (s, .ok w)) :
    exec (.getx c d x) s = .next (s.setTeam s.cur (t.writeS d.toNat w)) := by
  have quick : slowXid x.toNat = false := by rcases hx with h | h <;> rw [h] <;> rfl
  simp [exec_getx, execGetx, ht, hm, (reaches_iff_mayReach _ _).2 hr, quick, hx, hw, onTeam_of ht]

theorem high_setWidth (v : BitVec 64) : (v >>> 32).setWidth 32 = BitVec.ofNat 32 (v.toNat / 2 ^ 32) := by
  rw [← BitVec.ofNat_toNat, BitVec.toNat_ushiftRight, Nat.shiftRight_eq_div_pow]

theorem privilegedRead_holds : PrivilegedRead := by
  intro s t r n b l c d x h hr hm hs ho hreach hd hl hf
  have ht : s.team s.cur = some t := h.1
  have value (y : Nat) (hy : y = 0x032 → x.toNat = 0x032) : privilegedValue s s.cur t y = xreg s t l y :=
    privilegedValue_eq_xreg h hs ho fun e => hl (hy e)
  refine ⟨fun w hw => ?_, fun hx hdouble h0 => ?_, fun z hz => ⟨fun hx => ?_, fun hx => ?_⟩⟩
  · have reads (y : Nat) (hsplit : (splitXid x.toNat).1 = y) (hy : y = 0x032 → x.toNat = 0x032) (h10 : x.toNat ≠ 0x010)
        (h11 : x.toNat ≠ 0x011) :
        exec (.getx c d x) s = .next (s.setTeam s.cur (t.readXid s.tick d.toNat x.toNat (xreg s t l y))) := by
      rw [getx_reads ht hm hf c d hreach h10 h11, hsplit, value y hy]
    have delivers (y : Nat) := readXid_delivers hr ho s.tick hd x.toNat (xreg s t l y)
    rcases hw with ⟨hx, rfl⟩ | ⟨hx, rfl⟩ | hw
    · obtain ⟨hsplit, hlow, hhigh, h10, h11⟩ := narrowXids_split _ hx
      have word : t.xidWord x.toNat (xreg s t l x.toNat) = (xreg s t l x.toNat).setWidth 32 := by simp [Team.xidWord, hsplit]
      exact ⟨_, reads _ (by rw [hsplit]) id h10 h11, word ▸ (delivers _).now, word ▸ (delivers _).later, fun e => absurd e hlow,
        fun e => absurd e hhigh⟩
    · obtain ⟨hhigh, h10, h11, -⟩ := pairXids_apart _ hx
      obtain ⟨word, latch⟩ := readXid_low hr ho s.tick hd hx (xreg s t l x.toNat)
      exact ⟨_, reads _ (by rw [(pairXids_split _ hx).1]) id h10 h11, word ▸ (delivers _).now, word ▸ (delivers _).later,
        fun _ => latch.trans (by rw [high_setWidth]), fun e => absurd e hhigh⟩
    · have hx : x.toNat - 1 ∈ pairXids := hw.elim And.left And.left
      have pos : x.toNat - 1 + 1 = x.toNat := Nat.sub_add_cancel (by by_contra h0; simp [pairXids, show x.toNat = 0 by omega] at hx)
      obtain ⟨-, -, -, h32, hlow, h10, h11⟩ := pairXids_apart _ hx
      obtain ⟨-, -, hsplit, -⟩ := pairXids_split _ hx
      rw [pos] at hlow h10 h11 hsplit
      obtain ⟨word, taken⟩ := readXid_high hr ho s.tick hd hx (xreg s t l (x.toNat - 1))
      have word : t.xidWord x.toNat (xreg s t l (x.toNat - 1)) = w := by
        rw [word]
        rcases hw with ⟨-, hlatch, -⟩ | ⟨-, hlatch, rfl⟩
        · rw [hlatch]; rfl
        · rw [hlatch, ← high_setWidth]; rfl
      exact ⟨_, reads _ (by rw [hsplit]) (fun e => absurd e h32) h10 h11, word ▸ (delivers _).now, word ▸ (delivers _).later,
        fun e => absurd e hlow, fun _ => taken⟩
  · exact ⟨_, getx_frame ht hm c d hreach hx (by simp [frameWord, hdouble, h0]), writeS_writes _ _ _⟩
  · exact ⟨_, getx_frame ht hm c d hreach (.inl hx) (by simp [frameWord, hz, hx]), writeS_writes _ _ _⟩
  · exact ⟨_, getx_frame ht hm c d hreach (.inr hx) (by simp [frameWord, hz, hx]), writeS_writes _ _ _⟩

/-- Settles O9: each read is one scalar write or one counted operation, with the latches told apart by their keys. -/
theorem registerReads : Obligations.RegisterReads := ⟨specialRegisterRead_holds, counterLatch_holds, privilegedRead_holds⟩

end Sys2Proof.Machine
end

section
/-! SUPPORT. Lanewise instructions: each writes, in the lanes it may write and that consume nothing, the value its rule states, and notes
the lanes that consume poison. -/

namespace Sys2Proof.Machine

open Sys2Proof.Claims

/-! ### Words of halves and of bytes (R104, R347, R372) -/

theorem half_zero (w : Word) : half w 0 = lowHalf w := by
  apply BitVec.eq_of_toNat_eq
  simp [half, lowHalf]

theorem half_one (w : Word) : half w 1 = highHalf w := by
  apply BitVec.eq_of_toNat_eq
  simp [half, highHalf]

theorem octet_eq_byteAt (w : Word) (j : Nat) : octet w j = byteAt w j := by
  apply BitVec.eq_of_toNat_eq
  simp [octet, byteAt]

/-- An operation on halves that is one on their signed values. -/
theorem onHalves_eq_halves {f : BitVec 16 → BitVec 16 → BitVec 16} {g : Int → Int → Int}
    (h : ∀ x y, f x y = BitVec.ofInt 16 (g x.toInt y.toInt)) (x y : Word) : onHalves f x y = halves g x y := by
  simp only [onHalves, halves, packHalves, half_zero, half_one, h]

/-- An operation on bytes that is one on their unsigned values. -/
theorem onBytes_eq_octets {f : BitVec 8 → BitVec 8 → BitVec 8} {g : Int → Int → Int}
    (h : ∀ x y, f x y = BitVec.ofInt 8 (g x.toNat y.toNat)) (x y : Word) : onBytes f x y = octets g x y := by
  simp only [onBytes, octets, packBytes, octet_eq_byteAt, h]

section
variable {n : Nat} (x y : BitVec n)

theorem add_eq_ofInt : x + y = BitVec.ofInt n (x.toInt + y.toInt) := by simp [BitVec.ofInt_add]

theorem sub_eq_ofInt : x - y = BitVec.ofInt n (x.toInt - y.toInt) := by
  simp [Int.sub_eq_add_neg, BitVec.ofInt_add, BitVec.ofInt_neg, BitVec.sub_eq_add_neg]

theorem sMax_eq_ofInt : sMax x y = BitVec.ofInt n (max x.toInt y.toInt) := by
  by_cases h : x.toInt < y.toInt
  · simp [sMax, BitVec.slt_iff_toInt_lt, h, Int.max_eq_right (Int.le_of_lt h)]
  · simp [sMax, BitVec.slt_iff_toInt_lt, h, Int.max_eq_left (Int.not_lt.1 h)]

theorem sMin_eq_ofInt : sMin x y = BitVec.ofInt n (min x.toInt y.toInt) := by
  by_cases h : x.toInt < y.toInt
  · simp [sMin, BitVec.slt_iff_toInt_lt, h, Int.min_eq_left (Int.le_of_lt h)]
  · simp [sMin, BitVec.slt_iff_toInt_lt, h, Int.min_eq_right (Int.not_lt.1 h)]

theorem add_eq_ofInt_add_toNat : x + y = BitVec.ofInt n ((x.toNat : Int) + y.toNat) := by
  simp [BitVec.ofInt_add, BitVec.ofInt_natCast]

theorem sub_eq_ofInt_sub_toNat : x - y = BitVec.ofInt n ((x.toNat : Int) - y.toNat) := by
  simp [Int.sub_eq_add_neg, BitVec.ofInt_add, BitVec.ofInt_neg, BitVec.ofInt_natCast, BitVec.sub_eq_add_neg]

theorem uMax_eq_ofInt : uMax x y = BitVec.ofInt n (max (x.toNat : Int) y.toNat) := by
  by_cases h : x.toNat < y.toNat
  · simp [uMax, BitVec.ult, h, ← Nat.cast_max, Nat.max_eq_right (Nat.le_of_lt h), BitVec.ofInt_natCast]
  · simp [uMax, BitVec.ult, h, ← Nat.cast_max, Nat.max_eq_left (Nat.not_lt.1 h), BitVec.ofInt_natCast]

theorem uMin_eq_ofInt : uMin x y = BitVec.ofInt n (min (x.toNat : Int) y.toNat) := by
  by_cases h : x.toNat < y.toNat
  · simp [uMin, BitVec.ult, h, ← Nat.cast_min, Nat.min_eq_left (Nat.le_of_lt h), BitVec.ofInt_natCast]
  · simp [uMin, BitVec.ult, h, ← Nat.cast_min, Nat.min_eq_right (Nat.not_lt.1 h), BitVec.ofInt_natCast]

end

theorem addSat_eq_ofInt (x y : BitVec 16) : addSat x y = BitVec.ofInt 16 (clampTo (-32768) 32767 (x.toInt + y.toInt)) := rfl
theorem subSat_eq_ofInt (x y : BitVec 16) : subSat x y = BitVec.ofInt 16 (clampTo (-32768) 32767 (x.toInt - y.toInt)) := rfl

theorem addSatU_eq_ofInt (x y : BitVec 8) : addSatU x y = BitVec.ofInt 8 (clampTo 0 255 (x.toNat + y.toNat)) := by
  rw [addSatU, clampTo, ← BitVec.ofInt_natCast]
  congr 1
  omega

theorem greaterHalf_eq_ofInt (x y : BitVec 16) : greaterHalf x y = BitVec.ofInt 16 (if y.toInt < x.toInt then -1 else 0) := by
  rw [greaterHalf, BitVec.slt_eq_decide]
  simp only [decide_eq_true_eq]
  split <;> rfl

theorem permByte_eq_chosenByte (x : Word) (sel : BitVec 8) : permByte x sel = chosenByte x sel := by
  have top (y : BitVec 8) : y.getLsbD 7 = decide (128 ≤ y.toNat) := BitVec.msb_eq_decide y
  have next (h : ¬ 128 ≤ sel.toNat) : sel.getLsbD 6 = decide (64 ≤ sel.toNat) := by
    rw [BitVec.getLsbD, Nat.testBit_eq_decide_div_mod_eq, decide_eq_decide]
    omega
  have sign (y : BitVec 8) : y.getLsbD 7 = decide (y.toInt < 0) := by
    rw [top, BitVec.toInt_eq_toNat_cond, decide_eq_decide]
    omega
  simp only [permByte, chosenByte, octet_eq_byteAt, top sel, sign, decide_eq_true_eq]
  split
  case isTrue => rfl
  case isFalse h => simp only [next h, decide_eq_true_eq]

theorem permBytes_eq_chosenBytes (x sel : Word) : (packBytes fun j => permByte x (byteAt sel j)) =
    chosenByte x (octet sel 3) ++ chosenByte x (octet sel 2) ++ chosenByte x (octet sel 1) ++ chosenByte x (octet sel 0) := by
  simp only [octet_eq_byteAt, ← permByte_eq_chosenByte, packBytes]

theorem packLow_eq_halves (x y : Word) : packHalves (lowHalf y) (lowHalf x) = half y 0 ++ half x 0 := by
  simp only [half_zero, packHalves]

theorem signExtend_lowHalf (x : Word) : (lowHalf x).signExtend 32 = wordOf (half x 0).toInt := by
  rw [half_zero, wordOf, BitVec.signExtend]

theorem signExtend_highHalf (x : Word) : (highHalf x).signExtend 32 = wordOf (half x 1).toInt := by
  rw [half_one, wordOf, BitVec.signExtend]

/-! ### Counts of bits, and signs (R313, R331, R373) -/

theorem popCount_eq_count (x : Word) : popCount x = wordOf ((List.range 32).countP fun i => x.getLsbD i) := by
  rw [popCount, wordOf, BitVec.ofInt_natCast, List.countP_eq_length_filter]

theorem length_takeWhile_range {p : Nat → Bool} {k n : Nat} (hk : k ≤ n) (below : ∀ i < k, p i = true)
    (here : k < n → p k = false) :
    ((List.range n).takeWhile p).length = k := by
  obtain ⟨m, rfl⟩ := Nat.exists_eq_add_of_le hk
  rw [List.range_add, List.takeWhile_append_of_pos fun a ha => below a (List.mem_range.1 ha)]
  cases m with
  | zero => simp
  | succ m => simp [List.range_succ_eq_map, here (by omega)]

theorem leadingZeros_eq_count (x : Word) :
    leadingZeros x = wordOf (((List.range 32).takeWhile fun i => !x.getLsbD (31 - i)).length) := by
  rw [wordOf, BitVec.ofInt_natCast, leadingZeros]
  by_cases hx : x = 0#32
  · subst hx
    rw [length_takeWhile_range (k := 32) (Nat.le_refl _) (by simp) (by simp)]
    rfl
  · have h0 : x.toNat ≠ 0 := fun h => hx (BitVec.eq_of_toNat_eq h)
    have top : x.toNat.log2 < 32 := (Nat.log2_lt h0).2 x.isLt
    rw [if_neg hx, length_takeWhile_range (k := 31 - x.toNat.log2) (by omega)]
    · intro i hi
      have above : x.toNat < 2 ^ (31 - i) := Nat.lt_of_lt_of_le Nat.lt_log2_self (Nat.pow_le_pow_right (by omega) (by omega))
      simp [BitVec.getLsbD, Nat.testBit_lt_two_pow above]
    · intro _
      rw [show 31 - (31 - x.toNat.log2) = x.toNat.log2 by omega, BitVec.getLsbD, Nat.testBit_log2 h0]
      rfl

theorem and_low31 (x : Word) : x &&& 0x7FFFFFFF#32 = BitVec.ofNat 32 (x.toNat % 2147483648) := by
  apply BitVec.eq_of_toNat_eq
  rw [BitVec.toNat_and, BitVec.toNat_ofNat, BitVec.toNat_ofNat, show 0x7FFFFFFF % 2 ^ 32 = 2 ^ 31 - 1 from rfl,
    Nat.and_two_pow_sub_one_eq_mod]
  omega

theorem toNat_div_top (x : Word) : x.toNat / 2 ^ 31 = 0 ∨ x.toNat / 2 ^ 31 = 1 := by omega

theorem f32Neg_eq (x : Word) : f32Neg x = BitVec.ofNat 32 (x.toNat + 2147483648) := by
  apply BitVec.eq_of_toNat_eq
  have top : (x.toNat ^^^ 2147483648) / 2 ^ 31 = x.toNat / 2 ^ 31 ^^^ 1 := Nat.xor_div_two_pow
  have low : (x.toNat ^^^ 2147483648) % 2 ^ 31 = x.toNat % 2 ^ 31 := by rw [Nat.xor_mod_two_pow, Nat.mod_self, Nat.xor_zero]
  rw [f32Neg, BitVec.toNat_xor, show (0x80000000#32).toNat = 2147483648 from rfl, BitVec.toNat_ofNat]
  rcases toNat_div_top x with h | h <;> simp only [h, Nat.zero_xor, Nat.xor_self] at top <;> omega

theorem copySign_eq (x y : Word) : (x &&& 0x7FFFFFFF#32) ||| (y &&& 0x80000000#32) =
    BitVec.ofNat 32 (x.toNat % 2147483648 + y.toNat / 2147483648 * 2147483648) := by
  apply BitVec.eq_of_toNat_eq
  have top : (x.toNat % 2147483648 ||| y.toNat &&& 2147483648) / 2 ^ 31 = y.toNat / 2 ^ 31 := by
    rw [Nat.or_div_two_pow, Nat.and_div_two_pow]
    rcases toNat_div_top y with h | h <;> rw [h] <;> simp
  have low : (x.toNat % 2147483648 ||| y.toNat &&& 2147483648) % 2 ^ 31 = x.toNat % 2 ^ 31 := by
    rw [Nat.or_mod_two_pow, Nat.and_mod_two_pow]
    simp
  rw [and_low31, BitVec.toNat_or, BitVec.toNat_and, show (0x80000000#32).toNat = 2147483648 from rfl, BitVec.toNat_ofNat,
    BitVec.toNat_ofNat, Nat.mod_eq_of_lt (b := 2 ^ 32) (by omega)]
  omega

/-! ### Reductions, scans, ballots (R301, R382, R390) -/

theorem foldl_add_eq_sum (ws : List Word) (z : Word) :
    ws.foldl (· + ·) z = wordOf (z.toInt + (ws.map BitVec.toInt).sum) := by
  induction ws generalizing z with
  | nil => simp [wordOf]
  | cons x ws ih =>
    rw [List.foldl_cons, ih, List.map_cons, List.sum_cons]
    simp only [wordOf, BitVec.ofInt_add, BitVec.ofInt_toInt, BitVec.add_assoc]

theorem toInt_sMax (x y : Word) : (sMax x y).toInt = max x.toInt y.toInt := by
  rw [sMax, BitVec.slt_eq_decide, max_def]
  simp only [decide_eq_true_eq]
  split <;> split <;> omega

theorem toInt_sMin (x y : Word) : (sMin x y).toInt = min x.toInt y.toInt := by
  rw [sMin, BitVec.slt_eq_decide, min_def]
  simp only [decide_eq_true_eq]
  split <;> split <;> omega

/-- A fold of words that is one of their signed values. -/
theorem toInt_foldl {f : Word → Word → Word} {g : Int → Int → Int} (h : ∀ x y, (f x y).toInt = g x.toInt y.toInt) (ws : List Word)
    (z : Word) : (ws.foldl f z).toInt = (ws.map BitVec.toInt).foldl g z.toInt := by
  induction ws generalizing z with
  | nil => rfl
  | cons x ws ih => rw [List.foldl_cons, ih, h, List.map_cons, List.foldl_cons]

/-- A sum of distinct powers of two has the bits that it names. -/
theorem sum_powers (p : Nat → Bool) (n : Nat) :
    (((List.range n).filter p).map (2 ^ ·)).sum < 2 ^ n ∧
      ∀ i, (((List.range n).filter p).map (2 ^ ·)).sum.testBit i = (decide (i < n) && p i) := by
  induction n with
  | zero => simp
  | succ n ih =>
    obtain ⟨below, bits⟩ := ih
    rw [List.range_succ, List.filter_append, List.map_append, List.sum_append]
    cases hp : p n with
    | false =>
      simp only [List.filter_cons, hp, List.filter_nil, Bool.false_eq_true, if_false, List.map_nil, List.sum_nil, Nat.add_zero]
      refine ⟨by omega, fun i => ?_⟩
      rw [bits]
      rcases Nat.lt_trichotomy i n with h | rfl | h
      · simp [h, show i < n + 1 by omega]
      · simp [hp]
      · simp [show ¬ i < n by omega, show ¬ i < n + 1 by omega]
    | true =>
      simp only [List.filter_cons, hp, List.filter_nil, if_true, List.map_cons, List.map_nil, List.sum_cons, List.sum_nil, Nat.add_zero]
      refine ⟨by omega, fun i => ?_⟩
      have top := Nat.testBit_two_pow_mul_add 1 below i
      rw [Nat.mul_one, Nat.add_comm] at top
      rw [top, bits]
      rcases Nat.lt_trichotomy i n with h | rfl | h
      · simp [h, show i < n + 1 by omega]
      · simp [hp]
      · simp [show ¬ i < n by omega, show ¬ i < n + 1 by omega, 
          Nat.testBit_lt_two_pow (Nat.one_lt_two_pow (show i - n ≠ 0 by omega))]

/-- `BALLOT`: the bits of a mask in a lane's group are the sum of their powers. -/
theorem ballot_eq_sum (m : Mask) (n l : Nat) :
    (m >>> (l / n * n)).setWidth 32 &&& BitVec.ofNat 32 (2 ^ n - 1) =
      wordOf ((((List.range n).filter fun i => m.getLsbD (l - l % n + i)).map fun i => ((2 ^ i : Nat) : Int)).sum) := by
  obtain ⟨below, bits⟩ := sum_powers (fun i => m.getLsbD (l - l % n + i)) n
  have cast : (((List.range n).filter fun i => m.getLsbD (l - l % n + i)).map fun i => ((2 ^ i : Nat) : Int)).sum =
      (((((List.range n).filter fun i => m.getLsbD (l - l % n + i)).map (2 ^ ·)).sum : Nat) : Int) := by
    rw [Nat.cast_list_sum, List.map_map]
    rfl
  have base : l / n * n = l - l % n := by have := Nat.div_add_mod' l n; omega
  rw [cast, wordOf, BitVec.ofInt_natCast, base]
  apply BitVec.eq_of_getLsbD_eq
  intro i hi
  rw [BitVec.getLsbD_and, BitVec.getLsbD_setWidth, BitVec.getLsbD_ushiftRight, BitVec.getLsbD_ofNat, BitVec.getLsbD_ofNat, bits,
    Nat.testBit_two_pow_sub_one]
  cases m.getLsbD (l - l % n + i) <;> simp [hi]

/-- The lane that a shuffle reads for lane `l`, from the tile index (R393, R394). -/
def shufflePlace (t : Team) (l : Nat) (x : Int) (fill : Bool) : Option Nat :=
  if 0 ≤ x ∧ x < t.tileSize then some (t.tileBase l + x.toNat) else if fill then none else some l

theorem shuffled_eq (t : Team) (a l : Nat) (x : Int) (fill : Bool) :
    shuffled t a l x fill = (shufflePlace t l x fill).map fun y => (a, y) := by
  unfold shuffled shufflePlace
  split
  · rfl
  · split <;> rfl

/-- An acting lane is one of those that contribute to its tile. -/
theorem tileActing_ne_nil {t : Team} (hn : t.tileSize ≠ 0) {l : Nat} (hl : l ∈ t.actingLanes) : t.tileActing l ≠ [] := by
  have own : l ∈ t.tileActing l := by
    have pos : l / t.tileSize * t.tileSize + l % t.tileSize = l := Nat.div_add_mod' l _
    simp only [Team.tileActing, Team.tileLanes, Team.tileBase, List.mem_filter, List.mem_map, List.mem_range]
    exact ⟨⟨l % t.tileSize, Nat.mod_lt _ (by omega), pos⟩, (mem_lanesOf.1 hl).2⟩
  exact List.ne_nil_of_mem own

/-! ### The one write of a lanewise instruction (R42, R55, R273) -/

/-- The write of a lanewise instruction: the lanes that consume poison are noted and left out. -/
def Team.putWrite (t : Team) (w : LaneWrite) : Team :=
  let bad := t.taint w.reads w.scalars
  (t.consume bad).writeV w.d ((w.lanes t).filter fun l => !bad.getLsbD l) w.value

theorem putActive_eq_putWrite (t : Team) {vs : Nat → List (Nat × Nat)} {src : List Nat} {d : Nat} {f g : Nat → Word}
    (h : ∀ l ∈ t.actingLanes, f l = g l) : t.putActive vs src d f = t.putWrite ⟨d, vs, src, g, false⟩ :=
  writeV_congr _ _ fun l hl => h l (List.mem_of_mem_filter hl)

section
variable {s : State} {t : Team} (ht : s.team s.cur = some t) {w : LaneWrite}
include ht

/-- Lanewise, helper lanes included. -/
theorem putLanes_eq (vs : Team → Nat → List (Nat × Nat)) (src : List Nat) (d : Nat) (f : Team → Nat → Word)
    (hw : some ⟨d, vs t, src, f t, true⟩ = some w) :
    onTeam s (fun t => t.putLanes (vs t) src d (f t)) = .next (s.setTeam s.cur (t.putWrite w)) := by
  cases hw
  rw [onTeam_of ht]
  rfl

/-- The VR form (R74). -/
theorem lanesVR_eq {f g : Word → Word → Word} (h : ∀ x y, f x y = g x y) {d a b : BitVec 7} (hw : lanewise2 s t d a b g = some w) :
    lanesVR s d a b f = .next (s.setTeam s.cur (t.putWrite w)) := by
  obtain rfl : f = g := funext fun x => funext (h x)
  exact putLanes_eq ht (fun _ => _) _ _ _ hw

/-- The VR form with one source. -/
theorem lanesV_eq {f g : Word → Word} (h : ∀ x, f x = g x) {d a : BitVec 7} (hw : lanewise1 s t d a g = some w) :
    lanesV s d a f = .next (s.setTeam s.cur (t.putWrite w)) := by
  obtain rfl : f = g := funext h
  exact putLanes_eq ht (fun _ => _) _ _ _ hw

/-- The VI form (R74). -/
theorem lanesVI_eq {f g : Word → Word → Word} (h : ∀ x y, f x y = g x y) {d a : BitVec 7} {i : BitVec 9}
    (hw : lanewise1 s t d a (fun x => g x (wordOf i.toInt)) = some w) :
    lanesVI s d a (i.signExtend 32) f = .next (s.setTeam s.cur (t.putWrite w)) :=
  lanesV_eq ht (fun x => h x _) hw

/-- The VS form (R74). -/
theorem lanesVS_eq {f g : Word → Word → Word} (h : ∀ x y, f x y = g x y) {d a : BitVec 7} {b : BitVec 6}
    (hw : lanewiseS s t d a b g = some w) : lanesVS s d a b f = .next (s.setTeam s.cur (t.putWrite w)) := by
  obtain rfl : f = g := funext fun x => funext (h x)
  exact putLanes_eq ht (fun _ => _) _ _ _ hw

/-- Each lane's id and a scalar (R355). -/
theorem execLaneid_eq {d : BitVec 7} {b : BitVec 6} (hw : some (LaneWrite.mk d.toNat (fun _ => []) [b.toNat]
      (fun l => wordOf ((laneId s t l).toNat + (t.readS s.tick b.toNat).toNat)) true) = some w) :
    execLaneid d b s = .next (s.setTeam s.cur (t.putWrite w)) := by
  simp only [wordOf, ← add_eq_ofInt_add_toNat] at hw
  exact putLanes_eq ht (fun _ _ => []) [b.toNat] d.toNat (fun t l => laneId s t l + t.readS s.tick b.toNat) hw

/-- Two entries of the codebook (R312). -/
theorem execCbx_eq {d a : BitVec 7} {i : BitVec 9} (hw : lanewise1 s t d a (fun x =>
      let p := x.toNat / 2 ^ (8 * i.toNat)
      t.view.codebook (p / 16 % 16) ++ t.view.codebook (p % 16)) = some w) :
    execCbx d a i s = .next (s.setTeam s.cur (t.putWrite w)) :=
  putLanes_eq ht (fun _ => ownLane [a.toNat]) [] d.toNat (fun t l =>
    packHalves (t.view.codebook ((t.readV s.tick a.toNat l).toNat / 2 ^ (8 * i.toNat) / 16 % 16))
      (t.view.codebook ((t.readV s.tick a.toNat l).toNat / 2 ^ (8 * i.toNat) % 16))) hw

/-- A quad move (R377). -/
theorem quadMove_eq {f g : Nat → Nat} (h : ∀ l, f l = g l) {d a : BitVec 7} (hw : moved s t d (fun l => (a.toNat, g l)) = some w) :
    quadMove s d.toNat a.toNat f = .next (s.setTeam s.cur (t.putWrite w)) := by
  obtain rfl : f = g := funext h
  exact putLanes_eq ht (fun _ => _) _ _ _ hw

/-- A shuffle: the tile index it reads, as a number and as an integer (R393, R394). -/
theorem shuffle_eq {d a : BitVec 7} {src vs : List Nat} {fill : Bool} {j : Team → Nat → Nat → Nat → Int} {j' : Nat → Int → Int}
    (h : ∀ l, j t l (l - t.tileBase l) t.tileSize = j' l (l - t.tileBase l : Nat)) (hw : shuffleBy s t d a vs src fill j' = some w) :
    shuffle s d.toNat a.toNat src vs fill j = .next (s.setTeam s.cur (t.putWrite w)) := by
  have place (l : Nat) : ((l - t.tileBase l : Nat) : Int) = (l : Int) - t.tileBase l := Int.ofNat_sub (Nat.div_mul_le_self _ _)
  simp only [place] at h
  refine putLanes_eq ht
    (fun t l => ((shufflePlace t l (j t l (l - t.tileBase l) t.tileSize) fill).map fun x => (a.toNat, x)).toList ++ ownLane vs l) _ _
    (fun t l => match shufflePlace t l (j t l (l - t.tileBase l) t.tileSize) fill with
      | some x => t.readV s.tick a.toNat x
      | none => 0#32) (Eq.trans ?_ hw)
  simp only [shuffleBy, shuffled_eq, h]
  congr
  funext l
  cases shufflePlace t l (j' l ((l : Int) - t.tileBase l)) fill <;> rfl

section
variable {d a : BitVec 7} {b : BitVec 6}

theorem execShflAt_eq (hw : shuffleBy s t d a [] [b.toNat] false (fun _ _ => ((t.readS s.tick b.toNat).toNat : Int) % t.tileSize) =
    some w) : execShflAt d a b s = .next (s.setTeam s.cur (t.putWrite w)) :=
  shuffle_eq ht (fun _ => Int.natCast_emod _ _) hw

theorem execShflRot_eq (hw : shuffleBy s t d a [] [b.toNat] false (fun _ i => (i - (t.readS s.tick b.toNat).toInt) % t.tileSize) =
    some w) : execShflRot d a b s = .next (s.setTeam s.cur (t.putWrite w)) :=
  shuffle_eq ht (fun _ => Int.fmod_eq_emod_of_nonneg _ (Int.natCast_nonneg _)) hw

theorem execShflShift_eq (hw : shuffleBy s t d a [] [b.toNat] true (fun _ i => i - (t.readS s.tick b.toNat).toInt) = some w) :
    execShflShift d a b s = .next (s.setTeam s.cur (t.putWrite w)) :=
  shuffle_eq ht (fun _ => rfl) hw

theorem execShflMirr_eq (hw : shuffleBy s t d a [] [b.toNat] false
      (fun _ i => ((i.toNat ^^^ ((t.readS s.tick b.toNat).toNat % t.tileSize) : Nat) : Int)) = some w) :
    execShflMirr d a b s = .next (s.setTeam s.cur (t.putWrite w)) :=
  shuffle_eq ht (fun _ => rfl) hw

theorem execShflVar_eq {b : BitVec 7} (hw : shuffleBy s t d a [b.toNat] [] false
      (fun l _ => ((t.readV s.tick b.toNat l).toNat : Int) % t.tileSize) = some w) :
    execShflVar d a b s = .next (s.setTeam s.cur (t.putWrite w)) :=
  shuffle_eq ht (fun _ => Int.natCast_emod _ _) hw

end

/-- A form that acting lanes alone write. -/
theorem putActive_eq {vs : Team → Nat → List (Nat × Nat)} {src : List Nat} {d : Nat} {f : Team → Nat → Word} {g : Nat → Word}
    (h : ∀ l ∈ t.actingLanes, f t l = g l) (hw : some ⟨d, vs t, src, g, false⟩ = some w) :
    onTeam s (fun t => t.putActive (vs t) src d (f t)) = .next (s.setTeam s.cur (t.putWrite w)) := by
  cases hw
  rw [onTeam_of ht, putActive_eq_putWrite t h]

section
variable {d a : BitVec 7}

/-- An integer reduction over tiles, each of which has a contributing lane (R382). -/
theorem tileFold_eq (hn : t.tileSize ≠ 0) {f : Word → Word → Word} {g : List Int → Int}
    (h : ∀ x ws, ws.foldl f x = wordOf (g ((x :: ws).map BitVec.toInt)))
    (hw : some (LaneWrite.mk d.toNat (fun l => (t.tileActing l).map fun i => (a.toNat, i)) []
      (fun l => wordOf (g ((t.tileActing l).map fun i => (t.readV s.tick a.toNat i).toInt))) false) = some w) :
    tileFold s d.toNat a.toNat f = .next (s.setTeam s.cur (t.putWrite w)) := by
  refine putActive_eq ht (fun l hl => ?_) hw
  have own := tileActing_ne_nil hn hl
  rcases hls : t.tileActing l with - | ⟨x, xs⟩
  · exact absurd hls own
  · simp only [List.map_cons, h, List.map_map, Function.comp_def]

/-- An integer reduction that starts from a value that never wins. -/
theorem tileFold_extreme_eq (hn : t.tileSize ≠ 0) {f : Word → Word → Word} {g : Int → Int → Int} {z : Int}
    (hf : ∀ x y, (f x y).toInt = g x.toInt y.toInt) (hz : ∀ x : Word, g z x.toInt = x.toInt)
    (hw : some (LaneWrite.mk d.toNat (fun l => (t.tileActing l).map fun i => (a.toNat, i)) []
      (fun l => wordOf (((t.tileActing l).map fun i => (t.readV s.tick a.toNat i).toInt).foldl g z)) false) = some w) :
    tileFold s d.toNat a.toNat f = .next (s.setTeam s.cur (t.putWrite w)) := by
  refine tileFold_eq ht hn (g := fun xs => xs.foldl g z) (fun x ws => ?_) hw
  rw [List.map_cons, List.foldl_cons, hz, ← toInt_foldl hf, wordOf, BitVec.ofInt_toInt]

theorem execRedAddI_eq (hn : t.tileSize ≠ 0) (hw : some (LaneWrite.mk d.toNat (fun l => (t.tileActing l).map fun i => (a.toNat, i)) []
      (fun l => wordOf (((t.tileActing l).map fun i => (t.readV s.tick a.toNat i).toInt).sum)) false) = some w) :
    execRedAddI d a s = .next (s.setTeam s.cur (t.putWrite w)) :=
  tileFold_eq ht hn (fun x ws => by rw [foldl_add_eq_sum, List.map_cons, List.sum_cons]) hw

theorem execRedMaxI_eq (hn : t.tileSize ≠ 0) (hw : some (LaneWrite.mk d.toNat (fun l => (t.tileActing l).map fun i => (a.toNat, i)) []
      (fun l => wordOf (((t.tileActing l).map fun i => (t.readV s.tick a.toNat i).toInt).foldl max (-2147483648))) false) = some w) :
    execRedMaxI d a s = .next (s.setTeam s.cur (t.putWrite w)) :=
  tileFold_extreme_eq ht hn toInt_sMax (fun x => by have := BitVec.le_toInt x; omega) hw

theorem execRedMinI_eq (hn : t.tileSize ≠ 0) (hw : some (LaneWrite.mk d.toNat (fun l => (t.tileActing l).map fun i => (a.toNat, i)) []
      (fun l => wordOf (((t.tileActing l).map fun i => (t.readV s.tick a.toNat i).toInt).foldl min 2147483647)) false) = some w) :
    execRedMinI d a s = .next (s.setTeam s.cur (t.putWrite w)) :=
  tileFold_extreme_eq ht hn toInt_sMin (fun x => by have := BitVec.toInt_lt (x := x); omega) hw

/-- An inclusive scan (R390). -/
theorem execScanAddI_eq (hw : some (LaneWrite.mk d.toNat (fun l => ((t.tileActing l).filter (· ≤ l)).map fun i => (a.toNat, i)) []
      (fun l => wordOf ((((t.tileActing l).filter (· ≤ l)).map fun i => (t.readV s.tick a.toNat i).toInt).sum)) false) = some w) :
    execScanAddI d a s = .next (s.setTeam s.cur (t.putWrite w)) := by
  refine putActive_eq ht (vs := fun t l => ((t.tileActing l).filter fun i => decide (i ≤ l)).map fun i => (a.toNat, i))
    (f := fun t l => ((t.tileActing l).filter fun i => decide (i ≤ l)).foldl (fun w i => w + t.readV s.tick a.toNat i) 0#32)
    (fun l _ => ?_) hw
  have sum := foldl_add_eq_sum (((t.tileActing l).filter fun i => decide (i ≤ l)).map fun i => t.readV s.tick a.toNat i) 0#32
  simpa [List.foldl_map, Function.comp_def] using sum

end

section
variable {d : BitVec 7} {a : BitVec 4}

theorem execBallot_eq (hw : some (LaneWrite.mk d.toNat (fun _ => []) []
      (fun l => wordOf (((List.range (min t.tileSize 32)).filter fun i =>
        let x := l - l % min t.tileSize 32 + i
        (t.readK a.toNat).getLsbD x && t.acting.getLsbD x).map fun i => ((2 ^ i : Nat) : Int)).sum) false) = some w) :
    execBallot d a s = .next (s.setTeam s.cur (t.putWrite w)) := by
  refine putActive_eq ht (vs := fun _ _ => []) (f := fun t l =>
    ((t.readK a.toNat &&& t.acting) >>> (l / min t.tileSize 32 * min t.tileSize 32)).setWidth 32 &&&
      BitVec.ofNat 32 (2 ^ min t.tileSize 32 - 1)) (fun l _ => ?_) hw
  simp only [ballot_eq_sum, BitVec.getLsbD_and]

theorem execKrank_eq (hw : some (LaneWrite.mk d.toNat (fun _ => []) []
      (fun l => wordOf ((t.tileActing l).countP fun i => (t.readK a.toNat).getLsbD i && i < l)) false) = some w) :
    execKrank d a s = .next (s.setTeam s.cur (t.putWrite w)) := by
  refine putActive_eq ht (vs := fun _ _ => []) (f := fun t l =>
    BitVec.ofNat 32 ((t.voters a.toNat l).filter fun i => decide (i < l)).length) (fun l _ => ?_) hw
  simp only [Team.voters, List.filter_filter, wordOf, BitVec.ofInt_natCast, List.countP_eq_length_filter, Bool.and_comm]

end

/-- Every lanewise instruction is its one write. -/
theorem exec_eq_putWrite (hn : t.tileSize ≠ 0) {i : Instr} (hw : laneResult s t i = some w) :
    exec i s = .next (s.setTeam s.cur (t.putWrite w)) := by
  cases i with
  | iaddVr => exact lanesVR_eq ht add_eq_value hw
  | isubVr => exact lanesVR_eq ht sub_eq_value hw
  | imulVr => exact lanesVR_eq ht mul_eq_value hw
  | imulhVr => exact lanesVR_eq ht mulHigh_eq_value hw
  | imulhUVr => exact lanesVR_eq ht mulHighU_eq_value hw
  | andVr => exact lanesVR_eq ht (fun _ _ => rfl) hw
  | orVr => exact lanesVR_eq ht (fun _ _ => rfl) hw
  | xorVr => exact lanesVR_eq ht (fun _ _ => rfl) hw
  | andnVr => exact lanesVR_eq ht (fun _ _ => rfl) hw
  | shlVr => exact lanesVR_eq ht shiftLeft_eq_value hw
  | shrVr => exact lanesVR_eq ht shiftRight_eq_value hw
  | sraVr => exact lanesVR_eq ht shiftArith_eq_value hw
  | iminVr => exact lanesVR_eq ht sMin_eq_value hw
  | imaxVr => exact lanesVR_eq ht sMax_eq_value hw
  | iminUVr => exact lanesVR_eq ht uMin_eq_value hw
  | imaxUVr => exact lanesVR_eq ht uMax_eq_value hw
  | iaddVi => exact lanesVI_eq ht add_eq_value hw
  | andVi => exact lanesVI_eq ht (g := WordOp.and.value) (fun _ _ => rfl) hw
  | shlVi => exact lanesVI_eq ht shiftLeft_eq_value hw
  | shrVi => exact lanesVI_eq ht shiftRight_eq_value hw
  | iaddVs => exact lanesVS_eq ht add_eq_value hw
  | imulVs => exact lanesVS_eq ht mul_eq_value hw
  | iaddP16 => exact lanesVR_eq ht (onHalves_eq_halves add_eq_ofInt) hw
  | isubP16 => exact lanesVR_eq ht (onHalves_eq_halves sub_eq_ofInt) hw
  | iaddsP16 => exact lanesVR_eq ht (onHalves_eq_halves addSat_eq_ofInt) hw
  | isubsP16 => exact lanesVR_eq ht (onHalves_eq_halves subSat_eq_ofInt) hw
  | imaxP16 => exact lanesVR_eq ht (onHalves_eq_halves sMax_eq_ofInt) hw
  | iminP16 => exact lanesVR_eq ht (onHalves_eq_halves sMin_eq_ofInt) hw
  | cmpvGtP16 => exact lanesVR_eq ht (onHalves_eq_halves greaterHalf_eq_ofInt) hw
  | iaddP8 => exact lanesVR_eq ht (onBytes_eq_octets add_eq_ofInt_add_toNat) hw
  | isubP8 => exact lanesVR_eq ht (onBytes_eq_octets sub_eq_ofInt_sub_toNat) hw
  | iaddsUP8 => exact lanesVR_eq ht (onBytes_eq_octets addSatU_eq_ofInt) hw
  | imaxUP8 => exact lanesVR_eq ht (onBytes_eq_octets uMax_eq_ofInt) hw
  | iminUP8 => exact lanesVR_eq ht (onBytes_eq_octets uMin_eq_ofInt) hw
  | permb => exact lanesVR_eq ht permBytes_eq_chosenBytes hw
  | pack16 => exact lanesVR_eq ht packLow_eq_halves hw
  | unpk16Lo => exact lanesV_eq ht signExtend_lowHalf hw
  | unpk16Hi => exact lanesV_eq ht signExtend_highHalf hw
  | li c d i => exact putLanes_eq ht (fun _ _ => []) [] d.toNat (fun _ _ => i.signExtend 32) hw
  | bcast c d b => exact putLanes_eq ht (fun _ _ => []) [b.toNat] d.toNat (fun t _ => t.readS s.tick b.toNat) hw
  | sel c d a b k =>
    exact putLanes_eq ht (fun t l => [(if (t.readK k.toNat).getLsbD l then a.toNat else b.toNat, l)]) [] d.toNat
      (fun t l => t.readV s.tick (if (t.readK k.toNat).getLsbD l then a.toNat else b.toNat) l) hw
  | popc => exact lanesV_eq ht popCount_eq_count hw
  | clz => exact lanesV_eq ht leadingZeros_eq_count hw
  | laneid => exact execLaneid_eq ht hw
  | rand c d b =>
    exact putLanes_eq ht (fun _ _ => []) [b.toNat] d.toNat
      (fun t l => randMix (randKey s t) (laneId s t l) (t.readS s.tick b.toNat)) hw
  | fabs => exact lanesV_eq ht and_low31 hw
  | fneg => exact lanesV_eq ht f32Neg_eq hw
  | fcps => exact lanesVR_eq ht copySign_eq hw
  | fclass => exact lanesV_eq ht (f := f32Class) (fun _ => rfl) hw
  | cbx => exact execCbx_eq ht hw
  | qswap => exact quadMove_eq ht (fun l => by omega) hw
  | qbc => exact quadMove_eq ht (fun l => by omega) hw
  | shflAt => exact execShflAt_eq ht hw
  | shflRot => exact execShflRot_eq ht hw
  | shflShift => exact execShflShift_eq ht hw
  | shflMirr => exact execShflMirr_eq ht hw
  | shflVar => exact execShflVar_eq ht hw
  | redAddI => exact execRedAddI_eq ht hn hw
  | redMaxI => exact execRedMaxI_eq ht hn hw
  | redMinI => exact execRedMinI_eq ht hn hw
  | scanAddI => exact execScanAddI_eq ht hw
  | samp => exact putActive_eq ht (fun _ _ => rfl) hw
  | ballot => exact execBallot_eq ht hw
  | krank => exact execKrank_eq ht hw
  | _ => nomatch hw

end

/-! ### What the one write does (R98, R273, R293) -/

/-- Lanes that act are noted as consumers whole. -/
theorem consume_of_acting {t : Team} {r : Run} (hr : t.run = some r) {m : Mask}
    (hm : ∀ l, m.getLsbD l = true → t.acting.getLsbD l = true) :
    t.consume m = { t with run := some (if m = 0#1024 then r else { r with
      consumed := r.consumed ++ [⟨m, 12, 0, r.item.addr, r.itemIdx, false, false, false, 0⟩] }) } := by
  have free : m &&& ~~~r.held = m := by
    apply BitVec.eq_of_getLsbD_eq
    intro l hl
    have acts := hm l
    rw [Team.acting, held_of_run hr, BitVec.getLsbD_and, BitVec.getLsbD_not] at acts
    rw [BitVec.getLsbD_and, BitVec.getLsbD_not]
    cases hb : m.getLsbD l with
    | false => rfl
    | true => simpa [hl] using (Bool.and_eq_true_iff.1 (acts hb)).2
  unfold Team.consume
  simp only [hr, free]
  split
  · rw [← hr]
  · rfl

/-- The lanes that consume: all that act with a poisoned scalar, else those that read a poisoned element (R273). -/
theorem getLsbD_taint (t : Team) (vs : Nat → List (Nat × Nat)) (src : List Nat) (l : Nat) :
    (t.taint vs src).getLsbD l = true ↔ t.acting.getLsbD l = true ∧ l < 1024 ∧
      (l < t.lanes ∧ (src.any t.poisonS || (vs l).any fun x => t.poisonV x.1 x.2) = true ∨ src.any t.poisonS = true) := by
  unfold Team.taint
  split
  case isTrue clean =>
    have hclean : Clean t := by simpa [Clean] using clean
    simp [poisonS_clean hclean, poisonV_clean hclean]
  case isFalse =>
    split
    case isTrue scalar =>
      simp only [scalar, or_true, and_true]
      exact ⟨fun h => ⟨h, BitVec.lt_of_getLsbD h⟩, And.left⟩
    case isFalse scalar =>
      simp only [Bool.not_eq_true] at scalar
      simp only [getLsbD_maskOf, scalar, Team.actingLanes, Bool.false_or, Bool.false_eq_true, or_false, Bool.and_eq_true,
        decide_eq_true_eq, List.contains_iff_mem, List.mem_filter, mem_lanesOf]
      tauto

/-- The lanes left out keep their element; the others take their value. -/
theorem putWrite_lanes (t : Team) (w : LaneWrite) :
    let bad := t.taint w.reads w.scalars
    (t.putWrite w).run = (t.consume bad).run ∧
      (∀ l ∈ w.lanes t, bad.getLsbD l = false → vreg (t.putWrite w) w.d l = w.value l) ∧
      ∀ l, bad.getLsbD l = true → vreg (t.putWrite w) w.d l = vreg t w.d l := by
  intro bad
  refine ⟨writeV_run _ _ _ _, fun l hl hb => vreg_writeV_of_mem _ _ _ (by simp [hl, hb, bad]), fun l hb => ?_⟩
  rw [Team.putWrite, vreg_writeV_of_not_mem, vreg_consume]
  intro x hx e
  rw [← vKey_lane e, List.mem_filter, hb] at hx
  exact absurd hx.2 (by decide)

theorem poisonedLanesConsume_holds : PoisonedLanesConsume := by
  intro s t r i w ht hr hn hw taken
  obtain ⟨run, value, kept⟩ := putWrite_lanes t w
  have bits := getLsbD_taint t w.reads w.scalars
  refine ⟨_, exec_eq_putWrite ht hn hw, fun l hl hf => value l hl ?_, fun l hl htaken => kept l ?_, _, bits, ?_⟩
  · by_contra hb
    obtain ⟨acts, -, h⟩ := (bits l).1 (by simpa using hb)
    have htaken : taken l = true := by
      rcases h with ⟨-, h⟩ | h
      · exact h
      · simp [taken, h]
    rw [acts, htaken] at hf
    exact absurd hf (by decide)
  · obtain ⟨hlanes, acts⟩ := mem_lanesOf.1 hl
    exact (bits l).2 ⟨acts, (lanesOf_lt hl).2, .inl ⟨hlanes, htaken⟩⟩
  · rw [run, consume_of_acting hr fun l hb => ((bits l).1 hb).1]

/-! ### Scalar instructions that are held or consume (R98, R273) -/

/-- A scalar instruction is one `once` of its sources. -/
theorem exec_eq_once {s : State} {t : Team} (ht : s.team s.cur = some t) {i : Instr}
    (hi : (scalarResult s t i).isSome ∨ (pairResult s t i).isSome) :
    ∃ act, exec i s = .next (s.setTeam s.cur (t.once (scalarSources i) act)) := by
  rcases hi with h | h
  · obtain ⟨⟨d, w⟩, hr⟩ := Option.isSome_iff_exists.1 h
    exact ⟨_, exec_eq_putS ht hr⟩
  · obtain ⟨⟨d, w⟩, hr⟩ := Option.isSome_iff_exists.1 h
    exact ⟨_, exec_eq_putPair ht hr⟩

theorem scalarHeldOrPoisoned_holds : ScalarHeldOrPoisoned := by
  intro s t i ht hi
  obtain ⟨act, exec_eq⟩ := exec_eq_once ht hi
  refine ⟨fun hm => by simp [exec_eq, Team.once, hm], fun r hr hm ha hp => ?_⟩
  have taints : t.taintS (scalarSources i) = true := by simpa [Team.taintS, ha] using hp
  rw [exec_eq, Team.once, if_neg (by simp [hm]), if_pos taints, consume_of_acting hr fun _ h => h, if_neg ha]

/-- Settles O3: a held scalar instruction writes nothing, and what a poisoned source reaches is noted and left out of the write. -/
theorem poisonConsumed : Obligations.PoisonConsumed := ⟨scalarHeldOrPoisoned_holds, poisonedLanesConsume_holds⟩

end Sys2Proof.Machine
end

section
/-! SUPPORT. The bytes of a trap frame. -/

namespace Sys2Proof.Machine

open Sys2Proof.Claims

/-! ### Numbers in bytes (R4) -/

@[simp] theorem length_leBytes (n w : Nat) : (leBytes n w).length = n := by
  induction n generalizing w with
  | zero => rfl
  | succ n ih => simp [leBytes, ih]

theorem leNat_leBytes (n w : Nat) : leNat (leBytes n w) = w % 2 ^ (8 * n) := by
  induction n generalizing w with
  | zero => simp [leBytes, leNat, Nat.mod_one]
  | succ n ih =>
    rw [leBytes, leNat, ih, BitVec.toNat_ofNat, Nat.mul_succ, Nat.add_comm (8 * n), Nat.pow_add, Nat.mod_mul]

/-- A field that begins where a number of its size was put. -/
theorem fieldAt_leBytes (n w : Nat) (bs : List Byte) : fieldAt (leBytes n w ++ bs) 0 n = w % 2 ^ (8 * n) := by
  rw [fieldAt, bytesAt, List.drop_zero, List.take_append_of_le_length (by simp), List.take_of_length_le (by simp), length_leBytes,
    Nat.sub_self, zeroBytes, List.replicate_zero, List.append_nil, leNat_leBytes]

/-- A field beyond a list's first part. -/
theorem fieldAt_append {as : List Byte} {off : Nat} (h : as.length ≤ off) (bs : List Byte) (n : Nat) :
    fieldAt (as ++ bs) off n = fieldAt bs (off - as.length) n := by
  rw [fieldAt, fieldAt, bytesAt, bytesAt, List.drop_append, List.drop_eq_nil_of_le h, List.nil_append]

theorem fieldAt_leBytes_append {m off : Nat} (h : m ≤ off) (w : Nat) (bs : List Byte) (n : Nat) :
    fieldAt (leBytes m w ++ bs) off n = fieldAt bs (off - m) n := by
  rw [fieldAt_append (by simpa using h), length_leBytes]

theorem fieldAt_zeroBytes_append {m off : Nat} (h : m ≤ off) (bs : List Byte) (n : Nat) :
    fieldAt (zeroBytes m ++ bs) off n = fieldAt bs (off - m) n := by
  rw [fieldAt_append (by simpa [zeroBytes] using h), zeroBytes, List.length_replicate]

/-- Its 128 bytes are all of a mask. -/
theorem ofNat_mod_maskBytes (m : Mask) : BitVec.ofNat 1024 (m.toNat % 2 ^ (8 * 128)) = m := by
  rw [show 8 * 128 = 1024 from rfl, BitVec.toNat_mod_cancel, BitVec.ofNat_toNat, BitVec.setWidth_eq]

/-- A mask that begins where one was put. -/
theorem maskAt_maskBytes {as : List Byte} {off : Nat} (h : as.length = off) (m : Mask) (bs : List Byte) :
    maskAt (as ++ (maskBytes m ++ bs)) off = m := by
  subst h
  rw [maskAt, fieldAt_append (Nat.le_refl _), Nat.sub_self, maskBytes, fieldAt_leBytes, ofNat_mod_maskBytes]

/-! ### Sizes (R100) -/

@[simp] theorem length_maskBytes (m : Mask) : (maskBytes m).length = 128 := length_leBytes _ _
@[simp] theorem length_zeroBytes (n : Nat) : (zeroBytes n).length = n := List.length_replicate

theorem length_flatMap_const {α : Type} {f : α → List Byte} {n : Nat} (h : ∀ x, (f x).length = n) (xs : List α) :
    (xs.flatMap f).length = n * xs.length := by
  induction xs with
  | nil => rfl
  | cons x xs ih => simp [h, ih, Nat.mul_succ, Nat.add_comm]

theorem length_stackEntry_bytes (e : StackEntry) : e.bytes.length = 264 := by simp [StackEntry.bytes]

theorem length_stackBytes {st : List StackEntry} (h : st.length ≤ 32) : (stackBytes st).length = 8448 := by
  rw [stackBytes, List.length_append, length_flatMap_const length_stackEntry_bytes, List.length_reverse, length_zeroBytes]
  omega

theorem length_bankBytes (t : Team) (m : Mode) : (bankBytes t m).length = 320 + 32 * t.lanes := by
  have lane (l : Nat) : ((List.range 8).flatMap fun j => leBytes 4 (Sparse.get 0#32 t.regs.v (vKey m (112 + j) l)).toNat).length = 32 :=
    length_flatMap_const (fun _ => length_leBytes _ _) _
  simp only [bankBytes, List.length_append, length_flatMap_const lane, length_flatMap_const (fun _ => length_leBytes _ _),
    length_flatMap_const (fun _ => length_maskBytes _), length_zeroBytes, List.length_range]

theorem length_parked_bytes (p : Parked) : p.bytes.length = 64 := by simp [Parked.bytes]

/-! ### The frame (R94, R100) -/

/-- What follows the mask stack. -/
def frameTail (t : Team) (nested : Bool) (parked : List Parked) : List Byte :=
  (if nested then bankBytes t t.mode else []) ++ parked.flatMap Parked.bytes

section
variable (t : Team) (xs : List (Mask × LaneTrap)) (all : Mask) (nested : Bool) (parked : List Parked)

theorem length_frameTail :
    (frameTail t nested parked).length = (if nested then 320 + 32 * t.lanes else 0) + 64 * parked.length := by
  rw [frameTail, List.length_append, length_flatMap_const length_parked_bytes]
  cases nested <;> simp [length_bankBytes]

/-- What comes before it. -/
def frameHead : List Byte :=
  leBytes 4 t.pc ++ (leBytes 4 (causeWord xs all t.lanes).toNat ++ (leBytes 8 t.textBase ++ (leBytes 1 t.mode.code ++
    (leBytes 1 (if nested then 1 else 0) ++ (leBytes 1 t.regs.part.toNat ++ (leBytes 1 t.regs.fflags.toNat ++
    (leBytes 4 t.stack.length ++ (leBytes 4 parked.length ++ (zeroBytes 36 ++ (maskBytes t.k0 ++ maskBytes all))))))))))

theorem length_frameHead : (frameHead t xs all nested parked).length = 320 := by simp [frameHead]

theorem frameBytes_eq :
    frameBytes t xs all nested parked = frameHead t xs all nested parked ++ (stackBytes t.stack ++ frameTail t nested parked) := by
  simp only [frameBytes, frameHead, frameTail, List.append_assoc]

theorem length_frameBytes (h : t.stack.length ≤ 32) :
    (frameBytes t xs all nested parked).length = frameSize t.lanes parked.length nested := by
  simp only [frameBytes_eq, List.length_append, length_frameHead, length_stackBytes h, length_frameTail, frameSize]
  omega

end

/-- The entries of a mask stack, bottom first, 264 bytes each. -/
theorem stackBytes_entry {st : List StackEntry} {j : Nat} {e : StackEntry} (he : st.reverse[j]? = some e) :
    ∃ as bs, as.length = 264 * j ∧
      stackBytes st = as ++ (maskBytes e.saved ++ (maskBytes e.other ++ (leBytes 1 e.kind.code ++ bs))) := by
  obtain ⟨hj, rfl⟩ := List.getElem?_eq_some_iff.1 he
  have split := List.take_append_drop j st.reverse
  rw [List.drop_eq_getElem_cons hj] at split
  refine ⟨(st.reverse.take j).flatMap StackEntry.bytes,
    zeroBytes 7 ++ ((st.reverse.drop (j + 1)).flatMap StackEntry.bytes ++ zeroBytes (264 * (32 - st.length))), ?_, ?_⟩
  · rw [length_flatMap_const length_stackEntry_bytes, List.length_take, Nat.min_eq_left (by omega)]
  · conv_lhs => rw [stackBytes, ← split, List.flatMap_append, List.flatMap_cons, StackEntry.bytes]
    simp only [List.append_assoc]

theorem entry_fields {as : List Byte} {off : Nat} (h : as.length = off) (e : StackEntry) (bs : List Byte) :
    let f := as ++ (maskBytes e.saved ++ (maskBytes e.other ++ (leBytes 1 e.kind.code ++ bs)))
    maskAt f off = e.saved ∧ maskAt f (off + 128) = e.other ∧ fieldAt f (off + 256) 1 = e.kind.code := by
  intro f
  have at' (k n : Nat) : fieldAt f (off + k) n =
      fieldAt (maskBytes e.saved ++ (maskBytes e.other ++ (leBytes 1 e.kind.code ++ bs))) k n := by
    rw [fieldAt_append (by omega), h, Nat.add_sub_cancel_left]
  refine ⟨maskAt_maskBytes h _ _, ?_, ?_⟩
  · simp (disch := decide) only [maskAt, at', maskBytes, fieldAt_leBytes_append, Nat.reduceSub, fieldAt_leBytes, ofNat_mod_maskBytes]
  · simp (disch := decide) only [at', maskBytes, fieldAt_leBytes_append, Nat.reduceSub, fieldAt_leBytes]
    cases e.kind <;> rfl

theorem frameLayout_holds : FrameLayout := by
  intro t xs all nested parked hst f
  have hf : f = frameHead t xs all nested parked ++ (stackBytes t.stack ++ frameTail t nested parked) :=
    frameBytes_eq t xs all nested parked
  refine ⟨length_frameBytes t xs all nested parked hst, ?_, ?_, ?_, ?_, ?_, ?_, ?_, ?_, ?_, ?_, ?_, fun j e he => ?_⟩
  case refine_12 =>
    obtain ⟨as, bs, hlen, hbytes⟩ := stackBytes_entry he
    have parts : f = (frameHead t xs all nested parked ++ as) ++
        (maskBytes e.saved ++ (maskBytes e.other ++ (leBytes 1 e.kind.code ++ (bs ++ frameTail t nested parked)))) := by
      rw [hf, hbytes]
      simp only [List.append_assoc]
    have start : (frameHead t xs all nested parked ++ as).length = 320 + 264 * j := by rw [List.length_append, length_frameHead, hlen]
    obtain ⟨saved, other, kind⟩ := entry_fields start e (bs ++ frameTail t nested parked)
    rw [parts]
    exact ⟨saved, other, kind.trans (by cases e.kind <;> rfl)⟩
  all_goals
    simp (disch := decide) only [hf, frameHead, List.append_assoc, maskAt, maskBytes, fieldAt_leBytes_append,
      fieldAt_zeroBytes_append, Nat.reduceSub, fieldAt_leBytes]
  · exact BitVec.toNat_mod_cancel _
  · cases t.mode <;> rfl
  · split <;> rfl
  · have := t.regs.part.isLt; omega
  · have := t.regs.fflags.isLt; omega
  · omega
  · exact ofNat_mod_maskBytes _
  · exact ofNat_mod_maskBytes _

end Sys2Proof.Machine
end

section
/-! SUPPORT. Calls, the entry into a trap and the return from it. -/

namespace Sys2Proof.Machine

open Sys2Proof.Claims

/-! ### Calls (R103, R308, R343, R405) -/

theorem raise_teamTraps {t : Team} {r : Run} (hr : t.run = some r) (cause : Nat) (detail : Word) (inH : Bool) (imm : BitVec 16) :
    TeamTraps t (t.raise t.trapSet cause detail t.itemAddr inH imm) cause detail inH imm := by
  refine ⟨r, hr, ?_⟩
  have masked : t.trapSet &&& ~~~r.held = (if t.k0 = 0#1024 then t.living else t.k0) &&& ~~~r.held := by
    unfold Team.trapSet Team.acting
    split
    · rfl
    · rw [held_of_run hr, BitVec.and_assoc, BitVec.and_self]
  simp [Team.raise, Team.itemAddr, hr, masked]

theorem exec_sysc (i : BitVec 16) (s : State) : exec (.sysc i) s = execSysc i s := rfl
theorem exec_hcall (i : BitVec 16) (s : State) : exec (.hcall i) s = execHcall i s := rfl
theorem exec_brkpt (c : BitVec 1) (i : BitVec 20) (s : State) : exec (.brkpt c i) s = execBrkpt i s := rfl

theorem callsTrap_holds : CallsTrap := by
  intro s t r ht hr word
  have priv : TeamTraps t (t.raiseAll 5 t.itemWord) 5 word false 0#16 := itemWord_of_run hr ▸ raiseAll_teamTraps hr 5 t.itemWord
  refine ⟨fun i => ?_, fun i => ?_, fun c i => ?_⟩
  · rw [exec_sysc, execSysc, modTeam_of ht]
    refine ⟨_, rfl, fun hu => ?_, fun hu => ?_⟩
    · rw [if_pos hu, BitVec.ofNat_toNat]; exact raise_teamTraps hr 20 _ false i
    · rw [if_neg hu]; exact priv
  · rw [exec_hcall, execHcall, modTeam_of ht]
    refine ⟨_, rfl, fun hs => ?_, fun hs => ?_⟩
    · rw [if_pos hs, BitVec.ofNat_toNat]; exact raise_teamTraps hr 21 _ true i
    · rw [if_neg hs]; exact priv
  · rw [exec_brkpt, execBrkpt, modTeam_of ht, BitVec.ofNat_toNat]
    exact ⟨_, rfl, raise_teamTraps hr 19 _ false 0⟩

/-! ### The return (R102) -/

/-- A frame that holds no bank, for a team with nothing parked (R102). -/
theorem restoreFrame_eq {t : Team} {f : Frame} (hp : t.parked = []) (hn : f.nested = false) (n sp : Nat) :
    restoreFrame t n f sp = ({ t with
      stack := (stackAt f.bytes 320 (min (fieldAt f.bytes 20 4) 32)).map fun e =>
        { e with saved := e.saved &&& ~~~t.exited, other := e.other &&& ~~~t.exited }
      xtsp := if t.mode = .h then t.xtsp else BitVec.ofNat 64 (sp + f.size)
      xhtsp := if t.mode = .h then BitVec.ofNat 64 (sp + f.size) else t.xhtsp
      depth := t.depth - 1, mode := Mode.ofCode f.mode
      regs := { t.regs with
        part := BitVec.ofNat 3 (fieldAt f.bytes 18 1), fflags := BitVec.ofNat 5 (fieldAt f.bytes 19 1) } } : Team).writeK0
          (maskAt f.bytes 64 &&& ~~~t.exited) 0#1024 := by
  simp [restoreFrame, hp, hn, Team.modRegs, Team.writeK0]

theorem code_ofCode {n : Nat} (h : n ≤ 2) : (Mode.ofCode n).code = n := by
  interval_cases n <;> rfl

/-- `RETT` of a team with a frame, its operations ended. -/
theorem rett_returns {s s1 : State} {t : Team} {f : Frame} (ht : s.team s.cur = some t) (hu : t.mode ≠ .u) (hm : t.mute = false)
    (hdouble : t.double = none) (h0 : t.depth ≠ 0) {sp : BitVec 64} (hsp : (if t.mode = .h then t.xhtsp else t.xtsp) = sp)
    (halign : sp.toNat % 64 = 0) (hread : readFrame s s.cur t sp.toNat = (s1, .ok f)) (ht1 : s1.team s.cur = some t)
    (ho : t.ops = []) (hmode : f.mode ≤ t.mode.code) :
    exec .rett s = .next (s1.setTeam s.cur
      ((restoreFrame t s1.tick f sp.toNat).modRun fun r => { r with target := some f.resume, newText := some f.text })) := by
  have acts : ¬ (t.k0 ≠ 0#1024 ∧ t.acting = 0#1024) := by simpa [Team.mute] using hm
  have above : f.above t.mode = false := by simpa [Frame.above] using hmode
  have waits : returnWaits (s1.setTeam s.cur t) s.cur t = false := by simp [returnWaits, ho]
  simp [exec_rett, returnFromTrap, ht, hu, hdouble, h0, acts, hsp, halign, hread, ht1, above, Team.drainOps, ho, waits, setTeam_setTeam]

theorem returnFromTrap_holds : ReturnFromTrap := by
  intro s s1 t r f ht hr hu hm hdouble
  have acts : ¬ (t.k0 ≠ 0#1024 ∧ t.acting = 0#1024) := by simpa [Team.mute] using hm
  refine ⟨fun h0 => ?_, fun h0 halign hread ht1 _ ho hp _ hmode hn =>
    ⟨_, rett_returns ht hu hm hdouble h0 rfl halign hread ht1 ho hmode, ?_⟩⟩
  · simp [exec_rett, returnFromTrap, ht, hu, hdouble, h0, acts]
  · rw [restoreFrame_eq hp hn]
    have code : f.mode ≤ 2 := Nat.le_trans hmode (by cases t.mode <;> decide)
    refine ⟨code_ofCode code, rfl, rfl, rfl, ?_, rfl, fun h => ?_, fun h => ?_, ?_, rfl, rfl⟩
    · simp [Team.modRun, Team.writeK0, Team.modRegs, kreg, kKey]
    · simp [Team.modRun, Team.writeK0, Team.modRegs, h]
    · simp [Team.modRun, Team.writeK0, Team.modRegs, h]
    · simp [Team.modRun, Team.writeK0, Team.modRegs, hr]

/-! ### The entry (R99) -/

/-- The first cause recorded for a lane (R215). -/
theorem laneTrapOf_of_first {xs : List (Mask × LaneTrap)} {y : Mask × LaneTrap} {l : Nat} (hy : y ∈ xs) (hl : y.1.getLsbD l = true)
    (first : ∀ z ∈ xs, z.1.getLsbD l = true → xs.idxOf y ≤ xs.idxOf z) : laneTrapOf xs l = some y.2 := by
  let p (x : Mask × LaneTrap) := x.1.getLsbD l
  obtain ⟨z, hz⟩ : ∃ z, xs.find? p = some z := Option.isSome_iff_exists.1 (List.find?_isSome.2 ⟨y, hy, hl⟩)
  obtain ⟨hzl, as, bs, hsplit, before⟩ := List.find?_eq_some_iff_append.1 hz
  have notin {x : Mask × LaneTrap} (hx : p x = true) : x ∉ as := fun h => by simpa [hx] using before x h
  have le := first z (hsplit ▸ by simp) hzl
  rw [hsplit, List.idxOf_append, List.idxOf_append, if_neg (notin hl), if_neg (notin hzl), List.idxOf_cons_self] at le
  have eq : z = y := by
    by_contra hne
    rw [List.idxOf_cons_ne _ hne] at le
    omega
  rw [laneTrapOf, hz, eq, Option.map_some]

/-- What an entry makes of a team whose bank is resident. -/
def Team.entered (t2 t : Team) (m : Mode) (xs : List (Mask × LaneTrap)) (all : Mask) (sp : BitVec 64) (vect : Nat) : Team :=
  ((({ t2 with
      xtsp := if m = .h then t2.xtsp else sp, xhtsp := if m = .h then sp else t2.xhtsp
      depth := t.depth + 1, mode := m, stack := [], pc := 0, textBase := vect, due := [], region := none, opening := none
      parked := t2.parked.map fun p => if p.depth == t.depth then { p with framed := true } else p
      regs := { t2.regs with part := 0, fflags := 0 } } : Team).writeK 15 all).writeK0 all 0#1024).writeTrapRegs xs all t (·.detail)

/-- An entry whose frame is written, whose handler is there and whose bank becomes resident. -/
theorem trapEntry_enters {s s1 s2 : State} {k : Nat} {t t2 : Team} {due : List LaneTrap} (ht : s.team k = some t) (hd : t.depth ≠ 3)
    {m : Mode} (hm : entryMode t due = m) {xs : List (Mask × LaneTrap)} (hxs : (due.map fun x => (t.dueLanes x, x)) = xs) {all : Mask}
    (hall : xs.foldl (fun g x => g ||| x.1) 0#1024 = all) {sp : BitVec 64} (hsp : (if m = .h then t.xhtsp else t.xtsp) = sp)
    {vect : BitVec 64} (hvect : (if m = .h then (s.context (s.ctxOf t)).xhvect else (s.context (s.ctxOf t)).xvect) = vect)
    {parked : List Parked} (hparked : (t.parked.filter fun p => p.depth == t.depth && !p.framed) = parked)
    {frame : List Byte} (hframe : frameBytes t xs all (decide (m = t.mode)) parked = frame) {sp' : BitVec 64}
    (hsp' : sp - BitVec.ofNat 64 (frameSize t.lanes parked.length (decide (m = t.mode))) = sp')
    (halign : sp.toNat % 64 = 0) (hstore : storeBytes s k m sp'.toNat frame (frame.length / 32 + 2) = (s1, none))
    (htext : (textLength s1 3 vect.toNat).isSome) (hbank : residentBank s1 k m = (s2, none)) (ht2 : s2.team k = some t2) :
    ∃ x, trapEntry s k due = emit (s2.setTeam k (t2.entered t m xs all sp' vect.toNat)) unitCore (coreOfTeam k) 0x000 0 x := by
  have htext' : (textLength s1 3 vect.toNat).isNone = false := by simpa using htext
  rw [trapEntry, ht]
  simp only [hm, hxs, hall, hsp, hvect, hparked, BitVec.ofNat_toNat, BitVec.setWidth_eq, hsp', hframe, hstore, htext', hbank, ht2, hd,
    halign]
  exact ⟨_, rfl⟩

section
variable (t : Team) (xs : List (Mask × LaneTrap)) (all : Mask) (old : Team) (detail : LaneTrap → Word)

theorem writeTrapRegs_eq : t.writeTrapRegs xs all old detail =
    { t with regs := (t.writeTrapRegs xs all old detail).regs, ops := (t.writeTrapRegs xs all old detail).ops } := by
  have trans {t u v : Team} (h : u = { t with regs := u.regs, ops := u.ops }) (h' : v = { u with regs := v.regs, ops := v.ops }) :
      v = { t with regs := v.regs, ops := v.ops } := h'.trans (by rw [h])
  exact trans (trans (trans (writeV_eq _ _ _ _) (writeV_eq _ _ _ _)) (writeV_eq _ _ _ _)) (writeV_eq _ _ _ _)

theorem writeTrapRegs_regs : (t.writeTrapRegs xs all old detail).regs = { t.regs with
    v := (t.writeTrapRegs xs all old detail).regs.v, vPoison := (t.writeTrapRegs xs all old detail).regs.vPoison } := by
  unfold Team.writeTrapRegs
  dsimp only
  rw [writeV_regs, writeV_regs _ 117, writeV_regs _ 118, writeV_regs _ 119]

/-- The cause of a lane of T. -/
theorem writeTrapRegs_lane {l : Nat} {y : LaneTrap} (hl : l ∈ lanesOf all t.lanes) (hy : laneTrapOf xs l = some y) :
    let u := t.writeTrapRegs xs all old detail
    vreg u 119 l = detail y ∧ vreg u 118 l = BitVec.ofNat 32 (y.addr / 2 ^ 32) ∧ vreg u 117 l = BitVec.ofNat 32 y.addr ∧
      vreg u 116 l = trapStatus old y l := by
  have small : ∀ x ∈ lanesOf all t.lanes, x < 1024 := fun x hx => (lanesOf_lt hx).2
  unfold Team.writeTrapRegs
  dsimp only
  generalize lanesOf all t.lanes = ls at hl small
  have other (t : Team) (d r : Nat) (f : Nat → Word) (hd : d < 128) (hr : r < 128) (hne : r ≠ d) :
      vreg (t.writeV d ls f) r l = vreg t r l := vreg_writeV_other t f hd hr (small l hl) small hne
  refine ⟨?_, ?_, ?_, ?_⟩
  · rw [other _ 116 119 _ (by decide) (by decide) (by decide), other _ 117 119 _ (by decide) (by decide) (by decide),
      other _ 118 119 _ (by decide) (by decide) (by decide), vreg_writeV_of_mem _ _ _ hl, hy]
  · rw [other _ 116 118 _ (by decide) (by decide) (by decide), other _ 117 118 _ (by decide) (by decide) (by decide),
      vreg_writeV_of_mem _ _ _ hl, hy]
  · rw [other _ 116 117 _ (by decide) (by decide) (by decide), vreg_writeV_of_mem _ _ _ hl, hy]
  · rw [vreg_writeV_of_mem _ _ _ hl, hy]

/-- The registers outside a bank, and those of the lanes that do not trap, stay. -/
theorem writeTrapRegs_other {r l : Nat} (hr : r < 128) (hbank : ¬ (112 ≤ r ∧ r < 120)) (hl : l < 1024) :
    vreg (t.writeTrapRegs xs all old detail) r l = vreg t r l := by
  have small : ∀ x ∈ lanesOf all t.lanes, x < 1024 := fun x hx => (lanesOf_lt hx).2
  unfold Team.writeTrapRegs
  dsimp only
  rw [vreg_writeV_other _ _ _ hr hl small, vreg_writeV_other _ _ _ hr hl small, vreg_writeV_other _ _ _ hr hl small,
    vreg_writeV_other _ _ _ hr hl small]
  all_goals omega

end

theorem entryMode_eq (t : Team) (due : List LaneTrap) :
    entryMode t due = if t.mode = .h ∨ (∃ x ∈ due, x.inH = true) then .h else .s := by
  simp only [entryMode, List.any_eq_true]

section
variable (t2 t : Team) (m : Mode) (xs : List (Mask × LaneTrap)) (all : Mask) (sp : BitVec 64) (vect : Nat)

theorem entered_fields :
    let u := t2.entered t m xs all sp vect
    u.mode = m ∧ u.depth = t.depth + 1 ∧ u.pc = 0 ∧ u.textBase = vect ∧ u.stack = [] ∧ u.due = [] ∧ u.region = none ∧
      u.xtsp = (if m = .h then t2.xtsp else sp) ∧ u.xhtsp = if m = .h then sp else t2.xhtsp := by
  unfold Team.entered
  rw [writeTrapRegs_eq]
  exact ⟨rfl, rfl, rfl, rfl, rfl, rfl, rfl, rfl, rfl⟩

/-- An empty `FFLAGS` and `PART`, and the lanes of T active. -/
theorem entered_regs :
    let u := t2.entered t m xs all sp vect
    u.regs.part = 0 ∧ u.regs.fflags = 0 ∧ kreg u 0 = all ∧ kreg u 15 = all := by
  obtain ⟨mode, -⟩ := entered_fields t2 t m xs all sp vect
  simp only [kreg, mode]
  unfold Team.entered
  rw [writeTrapRegs_regs]
  simp [Team.writeK0, Team.writeK, Team.modRegs, kKey]

/-- The cause of a lane of T, and what the entry leaves of the vector registers. -/
theorem entered_vregs :
    let u := t2.entered t m xs all sp vect
    (∀ l y, l ∈ lanesOf all t2.lanes → laneTrapOf xs l = some y →
      vreg u 119 l = y.detail ∧ vreg u 118 l = BitVec.ofNat 32 (y.addr / 2 ^ 32) ∧ vreg u 117 l = BitVec.ofNat 32 y.addr ∧
        vreg u 116 l = trapStatus t y l) ∧
      ∀ r l, r < 128 → ¬ (112 ≤ r ∧ r < 120) → l < 1024 → vreg u r l = vreg t2 r l := by
  refine ⟨fun l y hl hy => writeTrapRegs_lane _ _ _ _ _ hl hy, fun r l hr hbank hl => ?_⟩
  rw [Team.entered, writeTrapRegs_other _ _ _ _ _ hr hbank hl]
  have unbanked (m : Mode) : vKey m r l = 1024 * r + l := by
    rw [vKey, if_neg fun ⟨low, high, _⟩ => hbank ⟨low, high⟩]
  simp only [vreg, unbanked]
  rfl

end

theorem trapEntry_holds : TrapEntry := by
  intro s s1 s2 k t t2 due ht hd m cx sp vect xs all parked frame sp' halign hstore htext hbank ht2
  obtain ⟨x, enters⟩ := trapEntry_enters (m := m) (xs := xs) (all := all) (sp := sp) (vect := vect) (sp' := sp') ht hd
    (entryMode_eq t due) rfl rfl rfl rfl rfl rfl rfl halign hstore htext hbank ht2
  obtain ⟨mode, depth, pc, text, stack, owed, region, xtsp, xhtsp⟩ := entered_fields t2 t m xs all sp' vect.toNat
  obtain ⟨part, fflags, k0, k15⟩ := entered_regs t2 t m xs all sp' vect.toNat
  obtain ⟨causes, others⟩ := entered_vregs t2 t m xs all sp' vect.toNat
  refine ⟨_, _, enters, by rw [emit_team, State.setTeam_team_eq, if_pos rfl], rfl, rfl, mode, depth, pc, text, stack, owed, region,
    part, fflags, k0, k15, fun h => ⟨?_, ?_⟩, fun h => ⟨?_, ?_⟩, fun l hl y hy first hyl => causes l y.2 hl (laneTrapOf_of_first hy hyl first), others⟩
  · exact xhtsp.trans (if_pos h)
  · exact xtsp.trans (if_pos h)
  · exact xtsp.trans (if_neg h)
  · exact xhtsp.trans (if_neg h)

/-- Settles O11: the calls raise, an entry writes its frame and the bank, a frame is read part after part, a return restores it. -/
theorem traps : Obligations.Traps := ⟨callsTrap_holds, trapEntry_holds, frameLayout_holds, returnFromTrap_holds⟩

end Sys2Proof.Machine
end

section
/-! SUPPORT. Floating-point instructions: each writes its lanes' results, raises the flags of the acting lanes together and notes the
first invalid; an indexed reduction writes the winner of each tile. -/

namespace Sys2Proof.Machine

open Sys2Proof.Claims

/-! ### Raising flags and writing pairs (R89, R109) -/

theorem raiseFlags_eq (t : Team) (g : FpFlags) : t.raiseFlags g = { t with regs := { t.regs with fflags := t.regs.fflags ||| g } } := by
  unfold Team.raiseFlags
  split
  case isTrue h => rw [h, BitVec.or_zero]
  case isFalse => rfl

/-- Flags raised over a team whose own flags are as before: the team without them, and what they become. -/
theorem raiseFlags_apart {t u : Team} (h : u.regs.fflags = t.regs.fflags) (g : FpFlags) :
    (u.raiseFlags g).regs.fflags = t.regs.fflags ||| g ∧
      { u.raiseFlags g with regs := { (u.raiseFlags g).regs with fflags := t.regs.fflags } } = u := by
  rw [raiseFlags_eq, ← h]
  exact ⟨rfl, rfl⟩

@[simp] theorem writeV_fflags (t : Team) (d : Nat) (ls : List Nat) (f : Nat → Word) : (t.writeV d ls f).regs.fflags = t.regs.fflags := by
  rw [writeV_regs]

/-- A register and the one after it lie apart in the lanes there are (R88, R89). -/
theorem vKey_ne_succ (m : Mode) (d : Nat) {l l' : Nat} (hl : l < 1024) (hl' : l' < 1024) : vKey m d l ≠ vKey m (d + 1) l' := by
  unfold vKey
  split <;> split <;> omega

theorem onlyRegs_trans {t u v : Team} (h : OnlyRegs t u) (h' : OnlyRegs u v) : OnlyRegs t v := by
  obtain ⟨same, ops⟩ := h
  obtain ⟨same', ops'⟩ := h'
  refine ⟨?_, ops'.trans ops⟩
  rw [← same, ← same']

/-- Two writes one after the other, of a register and of the next, are the write of both. -/
theorem writeV_writeV_writes (t : Team) (d : Nat) {ls : List Nat} (hls : ∀ l ∈ ls, l < 1024) (f g : Nat → Word) :
    WritesPairs t ((t.writeV d ls f).writeV (d + 1) ls g) d ls f g := by
  obtain ⟨frame, regs, first, others⟩ := writeV_writes t d ls f
  obtain ⟨frame', regs', second, others'⟩ := writeV_writes (t.writeV d ls f) (d + 1) ls g
  rw [writeV_mode] at others'
  refine ⟨onlyRegs_trans frame frame', ?_, fun l hl => ⟨?_, (second l hl).1⟩, fun key hkey => ?_⟩
  · rw [← regs, ← regs']
  · rw [vreg_writeV_of_not_mem _ _ _ fun x hx => ?_, (first l hl).1]
    exact vKey_ne_succ _ _ (hls l hl) (hls x hx)
  · obtain ⟨value', poison'⟩ := others' key fun l hl => (hkey l hl).2
    obtain ⟨value, poison⟩ := others key fun l hl => (hkey l hl).1
    exact ⟨value'.trans value, poison'.trans poison⟩

theorem lt_of_mem_actingLanes {t : Team} {l : Nat} (h : l ∈ t.actingLanes) : l < 1024 := (lanesOf_lt h).2

theorem lt_of_mem_writers {t : Team} {d l : Nat} (h : l ∈ t.writers d) : l < 1024 := by
  unfold Team.writers at h
  split at h
  · exact (lanesOf_lt h).2
  · exact lt_of_mem_actingLanes h

/-! ### The results on halves and on words (R104, R106, R332) -/

theorem pairHalves_eq_fpPatterns (g : Nat → Nat → Nat × FpFlags) (x y : Word) : pairHalves g x y = fpPatterns g x y := by
  simp only [pairHalves, fpPatterns, half_zero, half_one, packHalves]

theorem addPat_eq_fpHalves (f : FpFmt) (x y : Word) : pairHalves f.addPat x y = fpHalves f (f.add .rne) x y :=
  pairHalves_eq_fpPatterns _ x y

theorem mulPat_eq_fpHalves (f : FpFmt) (x y : Word) : pairHalves f.mulPat x y = fpHalves f f.mul x y :=
  pairHalves_eq_fpPatterns _ x y

theorem fmaPat_eq_fpHalves3 (f : FpFmt) (x y z : Word) : tripleHalves f.fmaPat x y z = fpHalves3 f x y z := by
  simp only [tripleHalves, fpHalves3, half_zero, half_one, packHalves, FpFmt.fmaPat]

/-- Infinities and NaNs have every bit of the exponent set (R104). -/
theorem notFinite_eq (w : Word) : notFinite w = decide (255 ≤ w.toNat / 2 ^ 23 % 256) := by
  have field : ((w >>> 23) &&& 0xFF#32).toNat = w.toNat / 2 ^ 23 % 256 := by
    rw [BitVec.toNat_and, BitVec.toNat_ushiftRight, Nat.shiftRight_eq_div_pow, show (0xFF#32).toNat = 2 ^ 8 - 1 from rfl,
      Nat.and_two_pow_sub_one_eq_mod]
  rw [notFinite, beq_eq_decide, decide_eq_decide, ← BitVec.toNat_inj, field, show (0xFF#32).toNat = 255 from rfl]
  omega

theorem bit_eq_one (b : BitVec 1) : (b == 1#1) = (b.toNat == 1) := by
  rw [beq_eq_decide, beq_eq_decide, decide_eq_decide, ← BitVec.toNat_inj]
  rfl

/-! ### The one write of a floating-point instruction (R55, R109, R110) -/

/-- The team after a floating-point instruction on clean registers. -/
def Team.putFp (t : Team) (w : FpWrite) : Team :=
  (t.writeV w.d (w.lanes t) fun l => (w.value l).1).raiseFlags (raised t fun l => (w.value l).2)

/-- The machine after it: the team with its results and flags, and the note of an invalid. -/
def afterFp (s : State) (t : Team) (w : FpWrite) : State :=
  noteInvalid (s.setTeam s.cur (t.putFp w)) s.cur (invalidAt t fun l => (w.value l).2)

theorem putFp_writes (t : Team) (w : FpWrite) :
    WritesLanesFlags t (t.putFp w) w.d (w.lanes t) (fun l => (w.value l).1) (raised t fun l => (w.value l).2) := by
  obtain ⟨flags, rest⟩ := raiseFlags_apart (t := t) (writeV_fflags t w.d (w.lanes t) fun l => (w.value l).1)
    (raised t fun l => (w.value l).2)
  refine ⟨flags, ?_⟩
  rw [Team.putFp, rest]
  exact writeV_writes _ _ _ _

section
variable {s : State} {t : Team} (ht : s.team s.cur = some t) (hc : Clean t) {w : FpWrite}
include ht hc

/-- Lanewise, helper lanes included. -/
theorem fpLanes_eq (vs : Nat → List (Nat × Nat)) (src : List Nat) (d : Nat) (f : Team → Nat → Word × FpFlags)
    (hw : some ⟨d, f t, true⟩ = some w) : fpLanes s vs src d f = .next (afterFp s t w) := by
  cases hw
  simp only [fpLanes, ht, Team.putLanesFp, putLanes_clean hc, flagLanes_clean hc]
  rfl

/-- A form that acting lanes alone write (R383, R390). -/
theorem fpTiles_eq (vs : Team → Nat → List (Nat × Nat)) (d : Nat) (f : Team → Nat → Word × FpFlags)
    (hw : some ⟨d, f t, false⟩ = some w) : fpTiles s vs d f = .next (afterFp s t w) := by
  cases hw
  simp only [fpTiles, ht, Team.putActiveFp, putActive_clean hc, flagLanes_clean hc]
  rfl

/-- The VR form (R74). -/
theorem fpVR_eq {f g : Word → Word → Word × FpFlags} (h : ∀ x y, f x y = g x y) {d a b : BitVec 7} (hw : fp2 s t d a b g = some w) :
    fpVR s d a b f = .next (afterFp s t w) := by
  obtain rfl : f = g := funext fun x => funext (h x)
  exact fpLanes_eq ht hc _ _ _ _ hw

/-- The VR form with the destination as third operand. -/
theorem fpVRD_eq {f g : Word → Word → Word → Word × FpFlags} (h : ∀ x y z, f x y z = g x y z) {d a b : BitVec 7}
    (hw : fp3 s t d a b g = some w) : fpVRD s d a b f = .next (afterFp s t w) := by
  obtain rfl : f = g := funext fun x => funext fun y => funext (h x y)
  exact fpLanes_eq ht hc _ _ _ _ hw

/-- A conversion (R322, R323). -/
theorem execCvt_eq {d a : BitVec 7} {o : BitVec 5} {r : BitVec 3} {b : BitVec 1} (hw : some (FpWrite.mk d.toNat
      (fun l => convertWord o.toNat (Rounding.ofField r) (b.toNat == 1) (t.readV s.tick a.toNat l) (t.readV s.tick (a.toNat + 1) l)
        (t.readV s.tick d.toNat l)) true) = some w) :
    execCvt d a o r b s = .next (afterFp s t w) := by
  rw [execCvt, bit_eq_one]
  exact fpLanes_eq ht hc _ _ _ _ hw

/-- A reduction over quads (R377). -/
theorem execQred_eq {d a : BitVec 7} {i : BitVec 2} (hw : some (FpWrite.mk d.toNat
      (fun l => quadReduce i.toNat fun j =>
        if t.computing.getLsbD (l - l % 4 + j) then t.readV s.tick a.toNat (l - l % 4 + j) else quadIdentity i.toNat) true) = some w) :
    execQred d a i s = .next (afterFp s t w) := by
  have base (l : Nat) : l - l % 4 = l / 4 * 4 := by omega
  simp only [base] at hw
  exact fpLanes_eq ht hc _ _ _ _ hw

/-- Every floating-point instruction is its one write. -/
theorem exec_eq_afterFp {i : Instr} (hw : fpResult s t i = some w) : exec i s = .next (afterFp s t w) := by
  cases i with
  | fadd => exact fpVR_eq ht hc (f := f32Add .rne) (fun _ _ => rfl) hw
  | fsub => exact fpVR_eq ht hc (f := f32Sub) (fun _ _ => rfl) hw
  | fmul => exact fpVR_eq ht hc (f := f32Mul) (fun _ _ => rfl) hw
  | ffma => exact fpVRD_eq ht hc (f := f32Fma) (fun _ _ _ => rfl) hw
  | ffms => exact fpVRD_eq ht hc (f := f32Fms) (fun _ _ _ => rfl) hw
  | fnfma => exact fpVRD_eq ht hc (f := f32Fnma) (fun _ _ _ => rfl) hw
  | fmin => exact fpVR_eq ht hc (fun _ _ => rfl) hw
  | fmax => exact fpVR_eq ht hc (fun _ _ => rfl) hw
  | fminn => exact fpVR_eq ht hc (fun _ _ => rfl) hw
  | fmaxn => exact fpVR_eq ht hc (fun _ _ => rfl) hw
  | faddVs => exact fpLanes_eq ht hc _ _ _ _ hw
  | fmulVs => exact fpLanes_eq ht hc _ _ _ _ hw
  | ffmaVs => exact fpLanes_eq ht hc _ _ _ _ hw
  | faddB2 => exact fpVR_eq ht hc (addPat_eq_fpHalves _) hw
  | fmulB2 => exact fpVR_eq ht hc (mulPat_eq_fpHalves _) hw
  | ffmaB2 => exact fpVRD_eq ht hc (fmaPat_eq_fpHalves3 _) hw
  | fmaxB2 => exact fpVR_eq ht hc (pairHalves_eq_fpPatterns _) hw
  | fminB2 => exact fpVR_eq ht hc (pairHalves_eq_fpPatterns _) hw
  | faddH2 => exact fpVR_eq ht hc (addPat_eq_fpHalves _) hw
  | fmulH2 => exact fpVR_eq ht hc (mulPat_eq_fpHalves _) hw
  | ffmaH2 => exact fpVRD_eq ht hc (fmaPat_eq_fpHalves3 _) hw
  | fmaxH2 => exact fpVR_eq ht hc (pairHalves_eq_fpPatterns _) hw
  | fminH2 => exact fpVR_eq ht hc (pairHalves_eq_fpPatterns _) hw
  | cvt => exact execCvt_eq ht hc hw
  | cbnear => exact fpLanes_eq ht hc _ _ _ _ hw
  | qred => exact execQred_eq ht hc hw
  | redAddF => exact fpTiles_eq ht hc _ _ _ hw
  | redMaxF => exact fpTiles_eq ht hc _ _ _ hw
  | redMinF => exact fpTiles_eq ht hc _ _ _ hw
  | scanAddF => exact fpTiles_eq ht hc _ _ _ hw
  | _ => nomatch hw

end

theorem floatResult_holds : FloatResult := fun _ t _ w ht hc hw => ⟨t.putFp w, exec_eq_afterFp ht hc hw, putFp_writes t w⟩

/-! ### The first invalid (R109, R248) -/

/-- A lane's note of invalid, for a team of a launch. -/
theorem noteInvalid_some {s : State} {k : Nat} {t : Team} {b : Block} {x : Launch} (ht : s.team k = some t)
    (hb : s.block t.block = some b) (hx : s.launch b.launch = some x) (l : Nat) :
    noteInvalid s k (some l) = if x.flagEvt && !x.invalidSeen then
      emit (s.setLaunch b.launch { x with invalidSeen := true }) unitCore (coreOfTeam k) 0x604 0
        (ctxOfTeam k + 16 * l + 2 ^ 32 * t.itemAddr) else s := by
  simp only [noteInvalid, noteInvalidAt, ht, Option.bind_some, State.blockOf, hb, hx, Option.map_some, Option.getD_some]

@[simp] theorem emit_launch (s : State) (ucls unit type : Nat) (cid : BitVec 64) (payload k : Nat) :
    (emit s ucls unit type cid payload).launch k = s.launch k := rfl

/-- The record that an event sends ends with its payload (R246). -/
theorem emit_transit (s : State) (ucls unit type : Nat) (cid : BitVec 64) (payload : Nat) :
    ∃ r, (emit s ucls unit type cid payload).recorder.transit = s.recorder.transit ++ [r] ∧ r.bytes.length = 32 ∧
      r.bytes.drop 24 = leBytes 8 payload := by
  refine ⟨_, rfl, ?_, ?_⟩
  · simp [recordBytes]
  · rw [recordBytes, List.drop_left' (by simp)]

theorem firstInvalidRecord_holds : FirstInvalidRecord := by
  intro s k l t b x ht hb hx
  have note := noteInvalid_some ht hb hx l
  refine ⟨rfl, fun quiet => ?_, fun asked unseen => ?_⟩
  · rw [note, if_neg]
    rcases quiet with h | h <;> simp [h]
  · rw [note, if_pos (by simp [asked, unseen])]
    exact ⟨by simp, rfl, rfl, emit_transit _ _ _ _ _ _⟩

/-! ### A result and its error (R412) -/

/-- On clean registers a pair instruction writes both results and notes what the first raises. -/
theorem fpPair_writes {s : State} {t : Team} (ht : s.team s.cur = some t) (hc : Clean t) (vs : Nat → List (Nat × Nat)) (d : Nat)
    {f : Team → Nat → Word × Word × FpFlags} {value : Nat → Word × FpFlags} {error : Nat → Word}
    (hf : ∀ l, f t l = ((value l).1, error l, (value l).2)) :
    ∃ u, fpPair s vs d f = .next (noteInvalid (s.setTeam s.cur u) s.cur (invalidAt t fun l => (value l).2)) ∧
      u.regs.fflags = t.regs.fflags ||| raised t (fun l => (value l).2) ∧
      WritesPairs t { u with regs := { u.regs with fflags := t.regs.fflags } } d (t.writers d) (fun l => (value l).1) error := by
  let pair := (t.writeV d (t.writers d) fun l => (value l).1).writeV (d + 1) (t.writers d) error
  obtain ⟨flags, rest⟩ := raiseFlags_apart (t := t) (u := pair) (by simp [pair]) (raised t fun l => (value l).2)
  refine ⟨pair.raiseFlags (raised t fun l => (value l).2), ?_, flags, ?_⟩
  · simp only [fpPair, ht, hf, taint_clean hc, flagLanes_clean hc, consume_zero, BitVec.getLsbD_zero, Bool.not_false, filter_all]
    rfl
  · rw [rest]
    exact writeV_writeV_writes t d (fun _ => lt_of_mem_writers) _ _

theorem twoSum_eq (x y : Word) : twoSum x y = ((sum32 x y).1,
    (if decide (255 ≤ (sum32 x y).1.toNat / 2 ^ 23 % 256) then 0#32 else sumError x y (sum32 x y).1), (sum32 x y).2) := by
  rw [← notFinite_eq]
  rfl

theorem twoProd_eq (x y : Word) : twoProd x y = ((product32 x y).1,
    (if decide (255 ≤ (product32 x y).1.toNat / 2 ^ 23 % 256) then 0#32 else (fused32 x y (negated (product32 x y).1)).1),
    (product32 x y).2) := by
  rw [← notFinite_eq]
  rfl

theorem floatPairResult_holds : FloatPairResult := fun _ _ _ _ _ _ ht hc =>
  ⟨fpPair_writes ht hc _ _ fun _ => twoSum_eq _ _, fpPair_writes ht hc _ _ fun _ => twoProd_eq _ _⟩

/-! ### Indexed reductions (R123, R383) -/

/-- Candidates by key and then by index, the best of them least. -/
def candidateRank (wantMax : Bool) (key index : Word) : Nat :=
  (if wantMax then 4294967295 - key.toNat else key.toNat) * 4294967296 + index.toNat

/-- A candidate takes the place of another when its rank is lower. -/
theorem overtakes_iff (wantMax : Bool) (k k' i i' : Word) :
    ((if wantMax then k.ult k' else k'.ult k) || (k' == k && i'.ult i)) = true ↔
      candidateRank wantMax k' i' < candidateRank wantMax k i := by
  have hk := k.isLt
  have hk' := k'.isLt
  have hi := i.isLt
  have hi' := i'.isLt
  cases wantMax <;>
    simp only [candidateRank, Bool.false_eq_true, if_false, if_true, Bool.or_eq_true, Bool.and_eq_true, beq_iff_eq, BitVec.ult,
      decide_eq_true_eq, ← BitVec.toNat_inj] <;> omega

/-- Of two lanes the one of lower rank, the first where neither is lower. -/
def lowerOf (rank : Nat → Nat) (b y : Nat) : Nat := if rank y < rank b then y else b

/-- The first lane of a list that has its lowest rank. -/
def FirstLeast (rank : Nat → Nat) (ls : List Nat) (w : Nat) : Prop :=
  w ∈ ls ∧ ∀ y ∈ ls, rank w < rank y ∨ rank w = rank y ∧ w ≤ y

/-- Of a rising list, the fold that replaces by lower ranks alone keeps the first of the lowest rank. -/
theorem foldl_firstLeast (rank : Nat → Nat) (x : Nat) (xs : List Nat) (rising : (x :: xs).Pairwise (· < ·)) :
    FirstLeast rank (x :: xs) (xs.foldl (lowerOf rank) x) := by
  induction xs generalizing x with
  | nil => simp [FirstLeast]
  | cons y ys ih =>
    rw [List.foldl_cons, lowerOf]
    obtain ⟨above, rest⟩ := List.pairwise_cons.1 rising
    by_cases lower : rank y < rank x
    · rw [if_pos lower]
      obtain ⟨mem, least⟩ := ih y rest
      refine ⟨List.mem_cons_of_mem _ mem, List.forall_mem_cons.2 ⟨?_, least⟩⟩
      have := least y (by simp)
      omega
    · rw [if_neg lower]
      obtain ⟨mem, least⟩ := ih x (List.pairwise_cons.2 ⟨fun z hz => above z (by simp [hz]), rest.of_cons⟩)
      obtain ⟨own, others⟩ := List.forall_mem_cons.1 least
      refine ⟨?_, List.forall_mem_cons.2 ⟨own, List.forall_mem_cons.2 ⟨?_, others⟩⟩⟩
      · rcases List.mem_cons.1 mem with h | h
        · exact List.mem_cons.2 (.inl h)
        · exact List.mem_cons_of_mem _ (List.mem_cons_of_mem _ h)
      · have := above y (by simp)
        omega

/-- The winner of a rising list of lanes is the first of the lowest rank. -/
theorem keyWinner_firstLeast (wantMax : Bool) (key value index : Nat → Word) {ls : List Nat} (hne : ls ≠ [])
    (rising : ls.Pairwise (· < ·)) :
    ∃ w, FirstLeast (fun i => candidateRank wantMax (key i) (index i)) ls w ∧
      keyWinner wantMax (ls.map fun i => (key i, value i, index i)) = (value w, index w) := by
  obtain ⟨x, xs, rfl⟩ := List.exists_cons_of_ne_nil hne
  let rank := fun i => candidateRank wantMax (key i) (index i)
  refine ⟨_, foldl_firstLeast rank x xs rising, ?_⟩
  simp only [List.map_cons, keyWinner, List.foldl_map, overtakes_iff]
  rw [List.foldl_hom (g₁ := lowerOf rank) fun i => (key i, value i, index i)]
  intro b y
  exact (apply_ite (fun i => (key i, value i, index i)) (rank y < rank b) y b).symm

/-- The first of the lowest rank wins, in the order that the instruction has. -/
theorem wins_of_firstLeast {wantMax : Bool} {better : Word → Word → Prop}
    (hb : ∀ x y, better x y ↔ if wantMax then y.toNat < x.toNat else x.toNat < y.toNat) {key index : Nat → Word} {ls : List Nat}
    {w : Nat} (first : FirstLeast (fun i => candidateRank wantMax (key i) (index i)) ls w) : Wins better ls key index w := by
  obtain ⟨mem, least⟩ := first
  refine ⟨mem, fun y hy => ?_⟩
  have lower := least y hy
  have hkw := (key w).isLt
  have hky := (key y).isLt
  have hiw := (index w).isLt
  have hiy := (index y).isLt
  rw [hb]
  simp only [candidateRank, ← BitVec.toNat_inj] at lower ⊢
  cases wantMax <;> simp only [Bool.false_eq_true, if_false, if_true] at lower ⊢ <;> omega

theorem tileActing_rising (t : Team) (l : Nat) : (t.tileActing l).Pairwise (· < ·) :=
  List.Pairwise.filter _ (List.pairwise_map.2 (List.pairwise_lt_range.imp fun h => Nat.add_lt_add_left h _))

/-- An indexed reduction writes the winner of each tile to its acting lanes. -/
theorem indexedReduce_wins {s : State} {t : Team} (ht : s.team s.cur = some t) (hc : Clean t) (hn : t.tileSize ≠ 0) (d a b : Nat)
    {wantMax : Bool} {better : Word → Word → Prop}
    (hb : ∀ x y, better x y ↔ if wantMax then y.toNat < x.toNat else x.toNat < y.toNat) (value key : Word → Word) :
    ∃ u, indexedReduce s d a b wantMax value key = .next (s.setTeam s.cur u) ∧ ∃ win : Nat → Nat,
      (∀ l ∈ t.actingLanes, Wins better (t.tileActing l) (fun x => key (t.readV s.tick a x)) (t.readV s.tick b) (win l)) ∧
      WritesPairs t u d t.actingLanes (fun l => value (t.readV s.tick a (win l))) fun l => t.readV s.tick b (win l) := by
  choose! win first winner using fun l (hl : l ∈ t.actingLanes) =>
    keyWinner_firstLeast wantMax (fun i => key (t.readV s.tick a i)) (fun i => value (t.readV s.tick a i)) (t.readV s.tick b)
      (tileActing_ne_nil hn hl) (tileActing_rising t l)
  refine ⟨_, ?_, win, fun l hl => wins_of_firstLeast hb (first l hl),
    writeV_writeV_writes t d (fun _ => lt_of_mem_actingLanes) _ _⟩
  rw [indexedReduce, onTeam_of ht]
  simp only [taint_clean hc, consume_zero, BitVec.getLsbD_zero, Bool.not_false, filter_all]
  rw [writeV_congr _ _ fun l hl => congrArg Prod.fst (winner l hl), writeV_congr _ _ fun l hl => congrArg Prod.snd (winner l hl)]

/-- The form on halves, in the terms of the claims. -/
theorem execRedMaxixH_eq (d a b : BitVec 7) (s : State) : execRedMaxixH d a b s =
    indexedReduce s d.toNat a.toNat b.toNat true (fun x => BitVec.ofNat 32 (x.toNat % 65536))
      fun x => key32 (widenHalf .fp16 (half x 0)).1 := by
  have low (x : Word) : (lowHalf x).setWidth 32 = BitVec.ofNat 32 (x.toNat % 65536) := by
    apply BitVec.eq_of_toNat_eq
    simp [lowHalf]
  simp only [execRedMaxixH, low, half_zero]

theorem indexedReduction_holds : IndexedReduction := by
  intro s t i d a b better key value ht hc hn hi
  cases i with
  | redMaxixF => cases hi; exact indexedReduce_wins ht hc hn _ _ _ (wantMax := true) (fun _ _ => Iff.rfl) _ _
  | redMinixF => cases hi; exact indexedReduce_wins ht hc hn _ _ _ (wantMax := false) (fun _ _ => Iff.rfl) _ _
  | redMaxixH =>
    cases hi
    change ∃ u, execRedMaxixH _ _ _ s = _ ∧ _
    rw [execRedMaxixH_eq]
    exact indexedReduce_wins ht hc hn _ _ _ (fun _ _ => Iff.rfl) _ _
  | _ => nomatch hi

/-- Settles O4: each instruction is one write with the flags of its acting lanes, and a tile's winner is the first of least rank. -/
theorem floatResults : Obligations.FloatResults :=
  ⟨floatResult_holds, firstInvalidRecord_holds, floatPairResult_holds, indexedReduction_holds⟩

end Sys2Proof.Machine
end

section
/-! SUPPORT. What a lanewise access leaves of its team: the traps of its lanes, one by one, and the operation that delivers its values. -/

namespace Sys2Proof.Machine

open Sys2Proof.Claims

/-! ### Traps of lanes (R98) -/

theorem nodup_lanesOf (m : Mask) (n : Nat) : (lanesOf m n).Nodup := List.nodup_range.filter _

theorem getLsbD_held (r : Run) (i : Nat) : r.held.getLsbD i = (r.traps ++ r.consumed).any fun x => x.lanes.getLsbD i := by
  have step : ∀ (xs : List LaneTrap) (m : Mask),
      (xs.foldl (fun m (x : LaneTrap) => m ||| x.lanes) m).getLsbD i = (m.getLsbD i || xs.any fun x => x.lanes.getLsbD i) := by
    intro xs
    induction xs with
    | nil => simp
    | cons x xs ih => intro m; simp [ih, Bool.or_assoc]
  rw [Run.held, step]
  simp

/-- A lane that acts is not held. -/
theorem held_of_mem_actingLanes {t : Team} {r : Run} (hr : t.run = some r) {l : Nat} (h : l ∈ t.actingLanes) :
    r.held.getLsbD l = false := by
  have acts := (mem_lanesOf.1 h).2
  rw [Team.acting, held_of_run hr, BitVec.getLsbD_and, BitVec.getLsbD_not] at acts
  simpa [lt_of_mem_actingLanes h] using (Bool.and_eq_true_iff.1 acts).2

theorem bitMask_and_not {m : Mask} {l : Nat} (h : m.getLsbD l = false) : bitMask l &&& ~~~m = bitMask l := by
  apply BitVec.eq_of_getLsbD_eq
  intro i hi
  simp only [bitMask, BitVec.getLsbD_and, BitVec.getLsbD_not, BitVec.getLsbD_shiftLeft, BitVec.getLsbD_one, hi, decide_true, Bool.true_and]
  by_cases e : i = l
  · simp [e, h]
  · by_cases lt : i < l
    · simp [lt]
    · simp [show ¬ i - l = 0 by omega]

theorem bitMask_ne_zero {l : Nat} (h : l < 1024) : bitMask l ≠ 0#1024 := by
  intro e
  have := congrArg (fun m : Mask => m.getLsbD l) e
  simp [bitMask, h] at this

theorem getLsbD_bitMask_of_ne {l i : Nat} (h : i ≠ l) : (bitMask l).getLsbD i = false := by
  simp only [bitMask, BitVec.getLsbD_shiftLeft, BitVec.getLsbD_one]
  by_cases lt : i < l
  · simp [lt]
  · simp [show ¬ i - l = 0 by omega]

/-- One lane's trap. -/
def Team.strike (t : Team) (x : LaneFault) : Team := t.raise (bitMask x.lane) x.cause (BitVec.ofNat 32 x.detail) x.addr x.inH 0

/-- The run after some lanes' traps. -/
def struck (r : Run) (xs : List LaneFault) : Run :=
  { r with traps := r.traps ++ xs.map fun x => ⟨1#1024 <<< x.lane, x.cause, BitVec.ofNat 32 x.detail, x.addr, r.itemIdx, false, false, x.inH, 0⟩ }

theorem trapping_eq (t : Team) (r : Run) (xs : List LaneFault) : trapping t r xs = { t with run := some (struck r xs) } := rfl

theorem trapping_nil {t : Team} {r : Run} (hr : t.run = some r) : trapping t r [] = t := by
  simp [trapping_eq, struck, ← hr]

theorem strike_eq {t : Team} {r : Run} (hr : t.run = some r) {x : LaneFault} (hl : x.lane < 1024) (free : r.held.getLsbD x.lane = false) :
    t.strike x = { t with run := some (struck r [x]) } := by
  simp only [Team.strike, Team.raise, hr, bitMask_and_not free, if_neg (bitMask_ne_zero hl)]
  rfl

/-- Traps of different lanes, none of them held, are recorded one after the other. -/
theorem foldl_strike {t : Team} {r : Run} (hr : t.run = some r) {xs : List LaneFault} (nodup : (xs.map LaneFault.lane).Nodup)
    (free : ∀ x ∈ xs, x.lane < 1024 ∧ r.held.getLsbD x.lane = false) : xs.foldl Team.strike t = trapping t r xs := by
  induction xs generalizing t r with
  | nil => exact (trapping_nil hr).symm
  | cons x xs ih =>
    obtain ⟨fresh, nodup⟩ := List.nodup_cons.1 nodup
    obtain ⟨hl, hx⟩ := free x (by simp)
    rw [List.foldl_cons, strike_eq hr hl hx, ih rfl nodup]
    · simp [trapping_eq, struck]
    · intro y hy
      obtain ⟨hly, hfree⟩ := free y (by simp [hy])
      have ne : y.lane ≠ x.lane := fun e => fresh (e ▸ List.mem_map_of_mem hy)
      refine ⟨hly, ?_⟩
      have := getLsbD_bitMask_of_ne ne
      rw [getLsbD_held] at hfree ⊢
      simp only [struck, List.map_cons, List.map_nil, List.any_append, List.any_cons, List.any_nil, Bool.or_eq_false_iff] at hfree ⊢
      exact ⟨⟨hfree.1, this, trivial⟩, hfree.2⟩

/-- The traps that checks give to some of the acting lanes. -/
theorem foldl_strike_acting {t : Team} {r : Run} (hr : t.run = some r) {f : Nat → Option LaneFault}
    (own : ∀ l x, f l = some x → x.lane = l) : (t.actingLanes.filterMap f).foldl Team.strike t = trapping t r (t.actingLanes.filterMap f) := by
  apply foldl_strike hr
  · have sub : ∀ ls : List Nat, ((ls.filterMap f).map LaneFault.lane).Sublist ls := by
      intro ls
      induction ls with
      | nil => simp
      | cons l ls ih =>
        cases h : f l with
        | none => simpa [h] using ih.cons l
        | some x => simpa [h, own l x h] using ih.cons_cons l
    exact (sub _).nodup (nodup_lanesOf _ _)
  · intro x hx
    obtain ⟨l, hl, e⟩ := List.mem_filterMap.1 hx
    rw [own l x e]
    exact ⟨lt_of_mem_actingLanes hl, held_of_mem_actingLanes hr hl⟩

/-! ### An operation that delivers its results (R65–R67) -/

/-- Writing one key after another leaves the other keys. -/
theorem get_foldl_set_of_not_mem (xs : List (Nat × Word)) (m : Sparse Word) {key : Nat} (h : ∀ x ∈ xs, x.1 ≠ key) :
    Sparse.get 0#32 (xs.foldl (fun m x => Sparse.set 0#32 m x.1 x.2) m) key = Sparse.get 0#32 m key := by
  induction xs generalizing m with
  | nil => rfl
  | cons x xs ih =>
    rw [List.foldl_cons, ih _ fun y hy => h y (by simp [hy]), Sparse.get_set, if_neg fun e => h x (by simp) e.symm]

/-- Different keys keep what is written to them. -/
theorem get_foldl_set_of_mem {xs : List (Nat × Word)} (nodup : (xs.map (·.1)).Nodup) (m : Sparse Word) {x : Nat × Word} (hx : x ∈ xs) :
    Sparse.get 0#32 (xs.foldl (fun m x => Sparse.set 0#32 m x.1 x.2) m) x.1 = x.2 := by
  induction xs generalizing m with
  | nil => simp at hx
  | cons y xs ih =>
    obtain ⟨fresh, nodup⟩ := List.nodup_cons.1 nodup
    rw [List.foldl_cons]
    rcases List.mem_cons.1 hx with rfl | hx
    · rw [get_foldl_set_of_not_mem _ _ fun y hy e => fresh (List.mem_map.2 ⟨y, hy, e⟩), Sparse.get_set, if_pos rfl]
    · exact ih nodup _ hx

/-- Results as an operation holds them, none poisoned. -/
def sound (xs : List (Nat × Word)) : List (Nat × Word × Bool) := xs.map fun x => (x.1, x.2, false)

/-- What sound results leave, of the registers. -/
def Regs.landed (g : Regs) (vd sd : List (Nat × Word)) (fl : FpFlags) : Regs :=
  { g with
    v := vd.foldl (fun m x => Sparse.set 0#32 m x.1 x.2) g.v
    s := sd.foldl (fun m x => Sparse.set 0#32 m x.1 x.2) g.s
    vPoison := if g.vPoison.isEmpty then g.vPoison else vd.foldl (fun m x => Sparse.set false m x.1 false) g.vPoison
    sPoison := if g.sPoison.isEmpty then g.sPoison else sd.foldl (fun m x => Sparse.set false m x.1 false) g.sPoison
    fflags := g.fflags ||| fl }

/-- An operation with sound results, beside which nothing was written, lands them all. -/
theorem landOp_newOp (t u : Team) (n : Nat) (vd sd : List (Nat × Word)) (fl : FpFlags) :
    t.landOp n (u.newOp true false (sound vd) (sound sd) fl) =
      { t.dirtyKeys (vd.map (·.1) ++ sd.map fun x => 1048576 + x.1) with regs := t.regs.landed vd sd fl } := by
  have filters (xs : List (Nat × Word)) : (sound xs).filter (fun d => !d.2.2) = sound xs := by
    simp [sound, List.filter_map, Function.comp_def]
  have badV : (sound vd).filter (fun d => d.2.2) = [] := by simp [sound, List.filter_map, Function.comp_def]
  have badS : (sound sd).any (fun d => d.2.2) = false := by simp [sound]
  have keysV : (sound vd).map (fun d => d.1) = vd.map fun x => x.1 := by simp [sound, Function.comp_def]
  have keysS : (sound sd).map (fun d => 1048576 + d.1) = sd.map fun x => 1048576 + x.1 := by simp [sound, Function.comp_def]
  simp only [Team.landOp, Team.newOp, List.contains_nil, Bool.not_false, Bool.true_or, Bool.and_true, filters, badV, badS, Bool.false_and,
    Bool.false_eq_true, if_false, List.map_nil, maskOf, List.foldl_nil, if_true, raiseFlags_eq, Team.modRegs, keysV, keysS]
  rw [dirtyKeys_eq]
  simp only [Regs.landed, sound, List.foldl_map]

/-- A `SETA` operation with sound results under different keys delivers them. -/
theorem issueA_delivers {t : Team} {r q : Run} (hr : t.run = some q) (same : q.setA = r.setA) (n : Nat) {vd sd : List (Nat × Word)}
    (hv : (vd.map (·.1)).Nodup) (hs : (sd.map (·.1)).Nodup) (fl : FpFlags) :
    Delivers t (t.issueA n (sound vd) (sound sd) fl) r vd sd fl := by
  refine ⟨fun h15 => ?_, fun h15 => ?_⟩
  · have lands : t.issueA n (sound vd) (sound sd) fl =
        { t.dirtyKeys (vd.map (·.1) ++ sd.map fun x => 1048576 + x.1) with
          nextOp := t.nextOp + 1, regs := t.regs.landed vd sd fl } := by
      rw [Team.issueA, if_pos (by simp [Team.countsOn, hr, same, h15]), landOp_newOp]
      unfold Team.dirtyKeys
      split <;> rfl
    rw [lands]
    refine ⟨?_, ?_, rfl, rfl, fun x hx => get_foldl_set_of_mem hv _ hx, fun x hx => get_foldl_set_of_mem hs _ hx,
      fun key h => get_foldl_set_of_not_mem _ _ h, fun key h => get_foldl_set_of_not_mem _ _ h⟩
    · rw [dirtyKeys_eq]
    · exact dirtyKeys_ops t _
  · rw [issueA_waits hr (same ▸ h15), same]
    refine ⟨_, rfl, ?_, fun key h => ?_, rfl, ?_, rfl, rfl, rfl, rfl, rfl, rfl⟩
    · simp [Team.flag, Team.bumpFlag]
    · simp [Team.bumpFlag, h]
    · simp [Team.newOp, Team.countsOn, hr, same, h15]

/-- A `SETB` operation is counted, and with SETB 15 not at all. -/
theorem issueB_counted {t : Team} {r q : Run} (hr : t.run = some q) (same : q.setB = r.setB) : Counted t t.issueB r := by
  refine ⟨fun h15 => ?_, fun h15 => ?_⟩
  · rw [Team.issueB, if_pos (by simp [Team.countsOn, hr, same, h15])]
  · have waits : t.issueB =
        { t.bumpFlag t.depth r.setB with ops := t.ops ++ [t.newOp false false [] [] 0], nextOp := t.nextOp + 1 } := by
      simp [Team.issueB, Team.countsOn, hr, same, h15, Team.startOp, Team.newOp, Team.bumpFlag]
    rw [waits]
    refine ⟨_, rfl, ?_, fun key h => ?_, rfl, ?_, rfl, rfl, rfl⟩
    · simp [Team.flag, Team.bumpFlag]
    · simp [Team.bumpFlag, h]
    · simp [Team.newOp, Team.countsOn, hr, same, h15]

/-! ### Loaded values (R4, R358) -/

/-- Values that carry no poison go to their elements sound. -/
theorem loadedElements_eq (m : Mode) (d n : Nat) (vals : List (Nat × Nat)) :
    loadedElements m d n (vals.map fun x => (x.1, x.2, false)) = sound (loadTargets m d n vals) := by
  unfold loadedElements loadTargets sound
  split <;> simp [Function.comp_def]

theorem loadTargets_eq_nil {m : Mode} {d n : Nat} {vals : List (Nat × Nat)} : loadTargets m d n vals = [] ↔ vals = [] := by
  unfold loadTargets
  split <;> simp

theorem nodup_loadTargets (m : Mode) (d n : Nat) {vals : List (Nat × Nat)} (nodup : (vals.map (·.1)).Nodup)
    (lt : ∀ x ∈ vals, x.1 < 1024) : ((loadTargets m d n vals).map (·.1)).Nodup := by
  have keys (d : Nat) : (vals.map fun x => vKey m d x.1).Nodup := by
    have := nodup.map (f := vKey m d) fun a b h => vKey_lane h
    simpa [Function.comp_def] using this
  unfold loadTargets
  split
  · rw [List.map_append, List.map_map, List.map_map]
    refine (keys d).append (keys (d + 1)) fun k h h' => ?_
    obtain ⟨x, hx, rfl⟩ := List.mem_map.1 h
    obtain ⟨y, hy, e⟩ := List.mem_map.1 h'
    exact vKey_ne_succ m d (lt x hx) (lt y hy) e.symm
  · rw [List.append_nil, List.map_map]
    exact keys d

end Sys2Proof.Machine
end

section
/-! SUPPORT. The scratchpad as a team reaches it: what a local address names, what a local load reads and what a local store leaves. -/

namespace Sys2Proof.Machine

open Sys2Proof.Claims

/-! ### Local addresses (R129, R132) -/

/-- The place of an offset in a block's allocation, outside the carve-out. -/
def Block.place (s : State) (x : Block) (o : Nat) : Option (Nat × Nat) :=
  if o < x.size ∧ x.base + o < (s.core x.core).carveFrom then some (x.core, x.base + o) else none

theorem localPlace_own {s : State} {b : Block} {a : Nat} (h : a < b.size) : localPlace s b a = b.place s a := by
  simp [localPlace, Block.place, h]

/-- Beyond its own allocation a block without a cluster group reaches nothing, and none does outside the windows. -/
theorem localPlace_none {s : State} {b : Block} {a : Nat} (h : b.size ≤ a) (out : ¬ (0x4000000 ≤ a ∧ a < 0x8000000 ∧ b.grouped = true)) :
    localPlace s b a = none := by
  simp only [localPlace, if_neg (Nat.not_lt.2 h), if_neg out]

/-- Through a window a block reaches the allocation there of its group. -/
theorem localPlace_window {s : State} {b : Block} {j o : Nat} {kb : Nat × Block} (hs : b.size ≤ 0x4000000) (hj : j < 4)
    (hg : b.grouped = true)
    (hkb : (s.blocksOfCore (4 * (b.core / 4) + j)).find? (fun x => x.2.launch == b.launch && x.2.grouped && x.2.index / 4 == b.index / 4) =
      some kb) (ho : o < 0x1000000) : localPlace s b (0x4000000 + 0x1000000 * j + o) = kb.2.place s o := by
  have window : (0x4000000 + 0x1000000 * j + o - 0x4000000) / 0x1000000 = j := by omega
  have offset : (0x4000000 + 0x1000000 * j + o - 0x4000000) % 0x1000000 = o := by omega
  simp only [localPlace, if_neg (show ¬ 0x4000000 + 0x1000000 * j + o < b.size by omega), hg, window, offset, hkb, Block.place]
  exact if_pos ⟨by omega, by omega, trivial⟩

/-- A range lies where its first and its last byte lie in one allocation. -/
theorem localRange_of_place {s : State} {b x : Block} {a n o : Nat} (hn : 0 < n) (first : localPlace s b a = x.place s o)
    (last : localPlace s b (a + n - 1) = x.place s (o + n - 1)) (inside : o + n ≤ x.size)
    (below : x.base + o + n ≤ (s.core x.core).carveFrom) : localRange s b a n = some (x.core, x.base + o) := by
  rw [Block.place, if_pos ⟨by omega, by omega⟩] at first last
  simp only [localRange, first, last]
  exact if_pos ⟨trivial, by omega⟩

theorem localRange_none_of_first {s : State} {b : Block} {a n : Nat} (h : localPlace s b a = none) : localRange s b a n = none := by
  simp [localRange, h]

theorem localRange_none_of_last {s : State} {b : Block} {a n : Nat} (h : localPlace s b (a + n - 1) = none) :
    localRange s b a n = none := by
  simp only [localRange, h]
  split <;> simp_all

theorem localAddresses_holds : LocalAddresses := by
  intro s b a n hn hs
  refine ⟨fun inside below => ?_, fun inside carved => ?_, fun beyond low => ?_, fun alone beyond => ?_, fun above => ?_, ?_⟩
  · exact localRange_of_place hn (localPlace_own (by omega)) (localPlace_own (by omega)) inside below
  · refine localRange_none_of_last ?_
    rw [localPlace_own (by omega), Block.place, if_neg (by omega)]
  · exact localRange_none_of_last (localPlace_none (by omega) (by omega))
  · exact localRange_none_of_first (localPlace_none beyond (by simp [alone]))
  · exact localRange_none_of_first (localPlace_none (by omega) (by omega))
  · rintro j o kb hj hg hkb rfl ho hsize
    have first := localPlace_window hs hj hg hkb ho
    refine ⟨fun inside below => ?_, fun beyond => ?_⟩
    · refine localRange_of_place hn first ?_ inside below
      rw [show 0x4000000 + 0x1000000 * j + o + n - 1 = 0x4000000 + 0x1000000 * j + (o + n - 1) by omega]
      exact localPlace_window hs hj hg hkb (by omega)
    · refine localRange_none_of_first (first.trans ?_)
      rw [Block.place, if_neg (by omega)]

/-! ### What a local load reads (R359, R369) -/

theorem saving_of_unsaving {s : State} (h : Unsaving s) : (s.teams.any fun kt => kt.2.saving) = false := by
  simpa [Team.saving] using fun k t hx o ho => h (k, t) hx o ho

theorem looseWord_of_ordered {s : State} (h : Ordered s) (core w : Nat) : looseWord s s.cur core w = none := by
  rw [looseWord, Option.map_eq_none_iff, List.find?_eq_none]
  intro x hx found
  simp only [Bool.and_eq_true, bne_iff_ne, ne_eq, Bool.not_eq_true', List.contains_eq_mem, decide_eq_false_iff_not] at found
  obtain ⟨⟨-, other⟩, unseen⟩ := found
  exact (h x hx).elim other unseen

/-- With no area open and other cores' stores observed a team reads what the scratchpad holds. -/
theorem localSeen_eq {s : State} (hu : Unsaving s) (ho : Ordered s) (core off n : Nat) :
    localSeen s s.cur core off n = scratchBytes s core off n := by
  unfold localSeen scratchSeen
  rw [saving_of_unsaving hu, if_neg Bool.false_ne_true]
  split
  · rfl
  · simp only [looseWord_of_ordered ho]
    rw [List.zipIdx_map_fst]

theorem numberOf_eq_leNat (bs : List Byte) : numberOf bs = leNat bs := by
  induction bs with
  | nil => rfl
  | cons b bs ih => rw [leNat, ← ih]; rfl

theorem leNat_lt (bs : List Byte) : leNat bs < 256 ^ bs.length := by
  induction bs with
  | nil => simp [leNat]
  | cons b bs ih =>
    rw [leNat, List.length_cons, Nat.pow_succ]
    have := b.isLt
    omega

theorem sizeBytes_eq (z : BitVec 2) : sizeBytes z.toNat = accessBytes z := by
  revert z
  decide

/-! ### Elements of a tile (R134, R135, R360) -/

theorem fits_iff (x : Tile) (st : BitVec 2) : x.fits st = true ↔ x.valid = true ∧ x.state = st ∧ x.eng = false := by
  simp [Tile.fits, and_assoc]

theorem halfBytes_eq (f : Nat) : halfBytes f = if f = 16 then 1 else 2 * formatBytes f := by
  by_cases h : f = 16
  · subst h; rfl
  · rw [if_neg h]
    unfold formatBytes
    split <;> simp_all [halfBytes]

theorem elementBytes_eq (f : Nat) : elementBytes f = formatBytes f := by
  rw [elementBytes, halfBytes_eq]
  split
  · subst f; rfl
  · omega

theorem element_eq (x : Tile) (e : Nat) : x.element e = elementPlace x e := by
  have along (pos : Nat) : pos * halfBytes x.fmt / 2 = if x.d2.toNat % 32 = 16 then pos / 2 else pos * formatBytes (x.d2.toNat % 32) := by
    rw [halfBytes_eq, Tile.fmt]
    split
    · rw [Nat.mul_one]
    · rw [Nat.mul_left_comm, Nat.mul_div_cancel_left _ (by decide)]
  simp only [Tile.element, elementPlace, along]
  split <;> simp_all [Tile.layout, Tile.laddr, Tile.cols, Tile.pitch]

theorem laneFmt_iff (f : Nat) : laneFmt f = true ↔ f ≤ 5 ∨ f = 16 := by simp [laneFmt]

theorem checkElement_eq (s : State) (t : Team) (b : Block) (x : Tile) (store : Bool) (e : Nat) :
    checkElement s s.cur t b x (if store then 1 else 0) store e = elementFate s t b x store e := by
  have word : t.itemWord.toNat = (t.run.map (·.item.word)).getD 0 % 2147483648 := by
    rw [Team.itemWord, BitVec.toNat_ofNat, Nat.mod_eq_of_lt (by omega)]
  simp only [checkElement, elementFate, element_eq, elementBytes_eq, word, Bool.not_eq_true', ← Bool.not_eq_true, laneFmt_iff]
  rfl

/-- What `LDT` makes of an element's bytes. -/
theorem tileValue_eq {f : Nat} (hf : f ≤ 5 ∨ f = 16) (pos : Nat) {v : Nat} (hv : v < 256 ^ formatBytes f) :
    (tileValue f pos v).toNat = elementValue f pos v := by
  unfold tileValue elementValue
  split
  case isTrue h =>
    subst h
    have small : v < 256 := hv
    rw [BitVec.toNat_signExtend, BitVec.msb_eq_decide, BitVec.toNat_setWidth, BitVec.toNat_ofNat, Nat.mod_eq_of_lt (show v < 2 ^ 8 from small)]
    by_cases low : v < 128
    · simp [low, show ¬ 128 ≤ v by omega]; omega
    · simp [low, show 128 ≤ v by omega]; omega
  case isFalse hsigned =>
    split
    case isTrue h =>
      subst h
      have small : v < 256 := hv
      rcases Nat.mod_two_eq_zero_or_one pos with e | e
      · simp [e]; omega
      · simp [e]; omega
    case isFalse h =>
      have bytes : formatBytes f ≤ 4 := by
        have hf : f ≤ 5 := by omega
        interval_cases f <;> decide
      rw [BitVec.toNat_ofNat, Nat.mod_eq_of_lt (Nat.lt_of_lt_of_le hv (Nat.pow_le_pow_right (by decide) bytes))]

end Sys2Proof.Machine
end

section
/-! SUPPORT. `LDL` and `LDT`: the values of the lanes that go, zero for a helper lane that may not, the traps of the others. -/

namespace Sys2Proof.Machine

open Sys2Proof.Claims

/-! ### The lanes a load writes (R55) -/

/-- The helper lanes that a load to field `d` writes. -/
def Team.loadHelpers (t : Team) (d : Nat) : List Nat := if 120 ≤ d then lanesOf t.helpers t.lanes else []

theorem lt_of_mem_loadHelpers {t : Team} {d l : Nat} (h : l ∈ t.loadHelpers d) : l < 1024 := by
  unfold Team.loadHelpers at h
  split at h
  · exact (lanesOf_lt h).2
  · simp at h

theorem nodup_loadHelpers (t : Team) (d : Nat) : (t.loadHelpers d).Nodup := by
  unfold Team.loadHelpers
  split
  · exact nodup_lanesOf _ _
  · exact List.nodup_nil

/-- A helper lane is not active. -/
theorem not_acting_of_mem_loadHelpers {t : Team} {d l : Nat} (h : l ∈ t.loadHelpers d) : l ∉ t.actingLanes := by
  unfold Team.loadHelpers at h
  split at h
  · intro acts
    have active := (mem_lanesOf.1 acts).2
    have helps := (mem_lanesOf.1 h).2
    unfold Team.helpers at helps
    simp only [Team.acting, BitVec.getLsbD_and, Bool.and_eq_true] at active
    split at helps
    · split at helps
      · simp [active.1] at helps
      · simp at helps
    · simp at helps
  · simp at h

/-- Values of some acting lanes and of all helper lanes have different lanes. -/
theorem nodup_lanes_append {t : Team} {d : Nat} {f : Nat → Option (Nat × Nat)} (own : ∀ l x, f l = some x → x.1 = l) {g : Nat → Nat × Nat}
    (own' : ∀ l, (g l).1 = l) :
    ((t.actingLanes.filterMap f ++ (t.loadHelpers d).map g).map (·.1)).Nodup ∧
      ∀ x ∈ t.actingLanes.filterMap f ++ (t.loadHelpers d).map g, x.1 < 1024 := by
  have sub : ∀ ls : List Nat, ((ls.filterMap f).map (·.1)).Sublist ls := by
    intro ls
    induction ls with
    | nil => simp
    | cons l ls ih =>
      cases h : f l with
      | none => simpa [h] using ih.cons l
      | some x => simpa [h, own l x h] using ih.cons_cons l
  have helped : ((t.loadHelpers d).map g).map (·.1) = t.loadHelpers d := by simp [Function.comp_def, own']
  have acting := sub t.actingLanes
  refine ⟨?_, fun x hx => ?_⟩
  · rw [List.map_append, helped]
    exact (acting.nodup (nodup_lanesOf _ _)).append (nodup_loadHelpers t d) fun l h h' =>
      not_acting_of_mem_loadHelpers h' (acting.subset h)
  · rcases List.mem_append.1 hx with h | h
    · exact lt_of_mem_actingLanes (acting.subset (List.mem_map_of_mem h))
    · exact lt_of_mem_loadHelpers (helped ▸ List.mem_map_of_mem (f := fun x : Nat × Nat => x.1) h)

/-! ### A local load on clean registers (R357, R359) -/

theorem raiseLocal_eq (t : Team) (ls : List Nat) (fate : Nat → LocalFate) :
    t.raiseLocal (ls.map fun l => (l, fate l)) = (localFaults ls fate).foldl Team.strike t := by
  induction ls generalizing t with
  | nil => rfl
  | cons l ls ih =>
    have := ih (t.raiseLocal [(l, fate l)])
    cases h : fate l <;> simp_all [Team.raiseLocal, localFaults, Team.strike]

theorem raiseLocal_acting {t : Team} {r : Run} (hr : t.run = some r) (fate : Nat → LocalFate) :
    t.raiseLocal (t.actingLanes.map fun l => (l, fate l)) = trapping t r (localFaults t.actingLanes fate) := by
  rw [raiseLocal_eq]
  refine foldl_strike_acting hr fun l x h => ?_
  split at h
  · cases h; rfl
  · cases h

/-- The value of a lane that goes. -/
def goValue (fate : Nat → LocalFate) (value : Nat → Nat → Nat → Nat × Bool) (l : Nat) : Option (Nat × Nat) :=
  match fate l with
  | .go core off => some (l, (value l core off).1)
  | .trap _ _ _ => none

/-- What a helper lane gets. -/
def helperValue (fate : Nat → LocalFate) (value : Nat → Nat → Nat → Nat × Bool) (l : Nat) : Nat × Nat :=
  match fate l with
  | .go core off => (l, if (value l core off).2 then 0 else (value l core off).1)
  | .trap _ _ _ => (l, 0)

/-- The values of a load's lanes. -/
def loadValues (t : Team) (d : Nat) (fate : Nat → LocalFate) (value : Nat → Nat → Nat → Nat × Bool) : List (Nat × Nat) :=
  t.actingLanes.filterMap (goValue fate value) ++ (t.loadHelpers d).map (helperValue fate value)

theorem loadValues_lanes (t : Team) (d : Nat) (fate : Nat → LocalFate) (value : Nat → Nat → Nat → Nat × Bool) :
    ((loadValues t d fate value).map (·.1)).Nodup ∧ ∀ x ∈ loadValues t d fate value, x.1 < 1024 := by
  refine nodup_lanes_append (fun l x h => ?_) fun l => ?_
  · unfold goValue at h
    split at h <;> cases h
    rfl
  · unfold helperValue
    split <;> rfl

section
variable {s : State} {t : Team} {r : Run} (ht : s.team s.cur = some t) (hc : Clean t) (vs : Nat → List (Nat × Nat)) (src : List Nat)
  (d n : Nat) {check : Team → Nat → LocalFate} {read : Team → Nat → Nat → Nat → Nat × Bool}
include ht hc

theorem localLoad_idle (idle : t.actingLanes ++ t.loadHelpers d = []) : localLoad s vs src d n check read = .next (s.setTeam s.cur t) := by
  obtain ⟨ha, hh⟩ := List.append_eq_nil_iff.1 idle
  unfold Team.loadHelpers at hh
  simp only [localLoad, ht, taint_clean hc, BitVec.getLsbD_zero, Bool.not_false, filter_all, ha, hh, List.isEmpty_nil, Bool.and_self,
    if_true, onTeam_of ht, consume_zero]

omit ht hc in
theorem isEmpty_and_isEmpty {xs ys : List Nat} (h : xs ++ ys ≠ []) : (xs.isEmpty && ys.isEmpty) = false := by
  rw [← Bool.not_eq_true, Bool.and_eq_true, List.isEmpty_iff, List.isEmpty_iff]
  simpa using h

theorem localLoad_stalls (lanes : t.actingLanes ++ t.loadHelpers d ≠ []) (full : t.flagFull true = true) :
    localLoad s vs src d n check read = .next (stallInstr s) := by
  have busy := isEmpty_and_isEmpty lanes
  unfold Team.loadHelpers at busy
  simp only [localLoad, ht, taint_clean hc, BitVec.getLsbD_zero, Bool.not_false, filter_all, busy, Bool.false_eq_true, if_false, full,
    if_true]

/-- It records the traps of its lanes and issues the operation that delivers their values, if any has one. -/
theorem localLoad_acts (hr : t.run = some r) (lanes : t.actingLanes ++ t.loadHelpers d ≠ []) (free : t.flagFull true = false)
    {fate : Nat → LocalFate} {value : Nat → Nat → Nat → Nat × Bool} (checked : ∀ l, check t l = fate l)
    (agree : ∀ l core off, fate l = .go core off → read t l core off = value l core off)
    (clean : ∀ l ∈ t.actingLanes, ∀ core off, fate l = .go core off → (value l core off).2 = false) :
    localLoad s vs src d n check read = .next (s.setTeam s.cur
      (let faulted := trapping t r (localFaults t.actingLanes fate)
        if loadValues t d fate value = [] then faulted
        else faulted.issueA s.tick (sound (loadTargets t.mode d n (loadValues t d fate value))) (sound []) 0)) := by
  have vals : (t.actingLanes.map fun l => (l, fate l)).filterMap (fun f => match f.2 with
      | .go core off => some (f.1, read t f.1 core off)
      | .trap _ _ _ => none) = (t.actingLanes.filterMap (goValue fate value)).map fun x => (x.1, x.2, false) := by
    rw [List.filterMap_map, List.map_filterMap]
    refine List.filterMap_congr fun l hl => ?_
    simp only [Function.comp_apply, goValue]
    cases h : fate l with
    | trap => rfl
    | go core off => simp [agree l core off h, ← clean l hl core off h]
  have helped : (t.loadHelpers d).map (fun l => match fate l with
      | .go core off => (l, (if (read t l core off).2 then 0 else (read t l core off).1), false)
      | .trap _ _ _ => (l, 0, false)) = ((t.loadHelpers d).map (helperValue fate value)).map fun x => (x.1, x.2, false) := by
    rw [List.map_map]
    refine List.map_congr_left fun l _ => ?_
    simp only [Function.comp_apply, helperValue]
    cases h : fate l with
    | trap => rfl
    | go core off => simp [agree l core off h]
  have found := congrArg₂ (fun xs ys => loadedElements t.mode d n (xs ++ ys)) vals helped
  rw [← List.map_append, ← loadValues, loadedElements_eq] at found
  have busy := isEmpty_and_isEmpty lanes
  unfold Team.loadHelpers at busy found
  simp only [localLoad, ht, taint_clean hc, BitVec.getLsbD_zero, Bool.not_false, filter_all, busy, Bool.false_eq_true, if_false, free,
    onTeam_of ht, consume_zero, checked, raiseLocal_acting hr]
  refine (congrArg (fun vd : List (Nat × Word × Bool) => Host.Outcome.next (s.setTeam s.cur (if vd.isEmpty then _ else
    (trapping t r (localFaults t.actingLanes fate)).issueA s.tick vd [] 0))) found).trans ?_
  simp only [sound, List.isEmpty_map, List.isEmpty_iff, loadTargets_eq_nil, List.map_nil]
end

/-! ### The two instructions -/

theorem exec_ldl (c : BitVec 1) (d : BitVec 7) (b : BitVec 6) (i : BitVec 7) (z : BitVec 2) (s : State) :
    exec (.ldl c d b i z) s = execLdl d b i z s := rfl
theorem exec_ldt (c : BitVec 1) (d : BitVec 7) (n : BitVec 6) (i : BitVec 7) (s : State) : exec (.ldt c d n i) s = execLdt d n i s := rfl

theorem blockOf_cur {s : State} {t : Team} {b : Block} (ht : s.team s.cur = some t) (hb : s.block t.block = some b) :
    (s.team s.cur).bind s.blockOf = some b := by rw [ht]; exact hb

section
variable {s : State} {t : Team} {b : Block} (ht : s.team s.cur = some t) (hb : s.block t.block = some b)
include ht hb

theorem execLdl_eq (d : BitVec 7) (sb : BitVec 6) (i : BitVec 7) (z : BitVec 2) :
    execLdl d sb i z s = localLoad s (ownLane [i.toNat]) [sb.toNat] d.toNat (accessBytes z)
      (fun t l => checkLocal s s.cur t b 0 (accessBytes z) false (t.readS s.tick sb.toNat + t.readV s.tick i.toNat l).toNat)
      fun _ _ core off => (leNat (localSeen s s.cur core off (accessBytes z)).1, (localSeen s s.cur core off (accessBytes z)).2) := by
  simp only [execLdl, blockOf_cur ht hb, sizeBytes_eq]

theorem execLdt_eq {n : BitVec 6} (ready : (b.tile n.toNat).fits tileReady = true) (d i : BitVec 7) :
    execLdt d n i s = localLoad s (ownLane [i.toNat]) [] d.toNat 4
      (fun tm l => checkElement s s.cur tm b (b.tile n.toNat) 0 false (tm.readV s.tick i.toNat l).toNat)
      fun tm l core off =>
        let seen := localSeen s s.cur core off (elementBytes (b.tile n.toNat).fmt)
        ((tileValue (b.tile n.toNat).fmt ((b.tile n.toNat).element (tm.readV s.tick i.toNat l).toNat).2 (leNat seen.1)).toNat, seen.2) := by
  simp only [execLdt, blockOf_cur ht hb, ready, Bool.not_true, Bool.false_eq_true, if_false]
end

theorem length_scratchBytes (s : State) (core off n : Nat) : (scratchBytes s core off n).1.length = n := by simp [scratchBytes]

/-- A lane of `LDT` that goes reads an element of a format that it moves. -/
theorem format_of_go {s : State} {t : Team} {b : Block} {x : Tile} {store : Bool} {e core off : Nat}
    (h : elementFate s t b x store e = .go core off) : x.d2.toNat % 32 ≤ 5 ∨ x.d2.toNat % 32 = 16 := by
  unfold elementFate at h
  dsimp only at h
  split at h
  · cases h
  · split at h
    · cases h
    · rename_i hf
      exact not_not.1 hf

/-- Both are loads of lanes with the checks and the values of their forms. -/
theorem exec_localLoadForm {s : State} {t : Team} {b : Block} {i : Instr} {w : LocalAccess} (ht : s.team s.cur = some t)
    (hb : s.block t.block = some b) (hu : Unsaving s) (ho : Ordered s) (hw : localLoadForm s t b i = some w) :
    ∃ vs src check read, exec i s = localLoad s vs src w.d w.n check read ∧ (∀ l, check t l = w.fate l) ∧
      ∀ l core off, w.fate l = .go core off → read t l core off = w.value l core off := by
  cases i with
  | ldl c d sb i z =>
    cases hw
    refine ⟨_, _, _, _, execLdl_eq ht hb d sb i z, fun _ => rfl, fun l core off _ => ?_⟩
    simp only [localSeen_eq hu ho, numberOf_eq_leNat]
  | ldt c d tn i =>
    simp only [localLoadForm] at hw
    split at hw
    · rename_i ready
      cases hw
      refine ⟨_, _, _, _, execLdt_eq ht hb ((fits_iff _ tileReady).2 ready) d i, fun l => checkElement_eq s t b _ false _,
        fun l core off go => ?_⟩
      have small := leNat_lt (scratchBytes s core off (formatBytes ((b.tile tn.toNat).d2.toNat % 32))).1
      rw [length_scratchBytes] at small
      simp only [localSeen_eq hu ho, elementBytes_eq, element_eq, Tile.fmt, numberOf_eq_leNat, tileValue_eq (format_of_go go) _ small]
    · cases hw
  | _ => nomatch hw

theorem localLoad_holds : LocalLoad := by
  intro s t r b i w ht hr hb hc hu ho hw helpers clean vals faulted
  obtain ⟨vs, src, check, read, run, checked, agree⟩ := exec_localLoadForm ht hb hu ho hw
  rw [run]
  refine ⟨fun lanes free => ?_, localLoad_stalls ht hc _ _ _ _, localLoad_idle ht hc _ _ _ _⟩
  have acts := localLoad_acts ht hc vs src w.d w.n hr lanes free checked agree clean
  refine ⟨fun trapped => acts.trans ?_, fun valued => ⟨_, acts, ?_⟩⟩
  · exact congrArg (fun u => Host.Outcome.next (s.setTeam s.cur u)) (if_pos trapped)
  · have ⟨nodup, lt⟩ := loadValues_lanes t w.d w.fate w.value
    have := issueA_delivers (t := faulted) (r := r) rfl rfl s.tick (sd := []) (nodup_loadTargets t.mode w.d w.n nodup lt) List.nodup_nil 0
    exact (if_neg valued : _ = _) ▸ this

end Sys2Proof.Machine
end

section
/-! SUPPORT. `STL` and `STT`: each lane's bytes reach its place, the higher lane's remaining, and words stored whole lose their poison. -/

namespace Sys2Proof.Machine

open Sys2Proof.Claims

/-! ### Bytes of a number (R4) -/

theorem leBytes_eq_map (n w : Nat) : leBytes n w = (List.range n).map fun i => BitVec.ofNat 8 (w / 256 ^ i) := by
  induction n generalizing w with
  | zero => rfl
  | succ n ih =>
    rw [leBytes, ih, List.range_succ_eq_map, List.map_cons, List.map_map]
    simp [Function.comp_def, Nat.pow_succ, Nat.div_div_eq_div_mul, Nat.mul_comm]

/-! ### Writing to a scratchpad (R128, R272) -/

theorem get_foldl_bytes (bs : List Byte) (off : Nat) (m : Sparse Byte) (x : Nat) :
    Sparse.get 0#8 (bs.zipIdx.foldl (fun m bi => Sparse.set 0#8 m (off + bi.2) bi.1) m) x =
      if off ≤ x ∧ x < off + bs.length then bs.getD (x - off) 0#8 else Sparse.get 0#8 m x := by
  have go : ∀ (bs : List Byte) (k : Nat) (m : Sparse Byte),
      Sparse.get 0#8 ((bs.zipIdx k).foldl (fun m bi => Sparse.set 0#8 m (off + bi.2) bi.1) m) x =
        if off + k ≤ x ∧ x < off + k + bs.length then bs.getD (x - (off + k)) 0#8 else Sparse.get 0#8 m x := by
    intro bs
    induction bs with
    | nil => intro k m; simp
    | cons b bs ih =>
      intro k m
      rw [List.zipIdx_cons, List.foldl_cons, ih, Sparse.get_set, List.length_cons]
      rcases Nat.lt_trichotomy x (off + k) with h | h | h
      · rw [if_neg (by omega), if_neg (by omega), if_neg (by omega)]
      · rw [if_neg (by omega), if_pos h, if_pos (by omega), h, Nat.sub_self, List.getD_cons_zero]
      · rw [if_neg (show ¬ x = off + k by omega), show x - (off + k) = (x - (off + (k + 1))) + 1 by omega, List.getD_cons_succ]
        by_cases inside : x < off + k + (bs.length + 1)
        · rw [if_pos (by omega), if_pos (by omega)]
        · rw [if_neg (by omega), if_neg (by omega)]
  exact go bs 0 m

theorem get_foldl_clear (p : Nat → Prop) [DecidablePred p] (ws : List Nat) (m : Sparse Bool) (x : Nat) :
    Sparse.get false (ws.foldl (fun m w => if p w then Sparse.set false m w false else m) m) x =
      (Sparse.get false m x && !decide (x ∈ ws ∧ p x)) := by
  induction ws generalizing m with
  | nil => simp
  | cons w ws ih =>
    rw [List.foldl_cons, ih]
    by_cases hp : p w
    · rw [if_pos hp, Sparse.get_set]
      by_cases h : x = w
      · subst h; simp [hp]
      · simp [h]
    · rw [if_neg hp]
      by_cases h : x = w
      · subst h; simp [hp]
      · simp [h]

section
variable (s : State) (core off : Nat) (bs : List Byte)

theorem scratchWrite_scratch (c x : Nat) : Sparse.get 0#8 ((scratchWrite s core off bs false).core c).scratch x =
    if core = c ∧ off ≤ x ∧ x < off + bs.length then bs.getD (x - off) 0#8 else Sparse.get 0#8 (s.core c).scratch x := by
  by_cases h : c = core
  · subst h; simp [scratchWrite, get_foldl_bytes]
  · simp [scratchWrite, h, Ne.symm h]

theorem scratchWrite_poison (c w : Nat) : Sparse.get false ((scratchWrite s core off bs false).core c).scratchPoison w =
    (Sparse.get false (s.core c).scratchPoison w && !decide (core = c ∧ off ≤ 4 * w ∧ 4 * w + 4 ≤ off + bs.length)) := by
  by_cases h : c = core
  · subst h
    have covered : (w ∈ (List.range ((off + bs.length + 3) / 4 - off / 4)).map (off / 4 + ·) ∧ off ≤ 4 * w ∧ 4 * w + 4 ≤ off + bs.length) ↔
        (off ≤ 4 * w ∧ 4 * w + 4 ≤ off + bs.length) := by
      refine ⟨And.right, fun h => ⟨List.mem_map.2 ⟨w - off / 4, List.mem_range.2 (by omega), by omega⟩, h⟩⟩
    simp only [scratchWrite, State.modCore_core_eq, if_true, Bool.false_eq_true, if_false, get_foldl_clear, covered, true_and]
  · simp [scratchWrite, h, Ne.symm h]

theorem scratchWrite_core (c : Nat) : { (scratchWrite s core off bs false).core c with
    scratch := (s.core c).scratch, scratchPoison := (s.core c).scratchPoison } = s.core c := by
  by_cases h : c = core
  · subst h; simp [scratchWrite]
  · simp [scratchWrite, h]
end

/-! ### The stores of lanes (R42, R359) -/

/-- From `s` to `s'` only scratchpads change, with which stores other cores may not see yet. -/
def OnlyScratch (s s' : State) (b : Block) : Prop :=
  { s' with cores := s.cores, hub := { s'.hub with loose := s.hub.loose } } = s ∧ (b.grouped = false → s'.hub = s.hub) ∧
    ∀ core, { s'.core core with scratch := (s.core core).scratch, scratchPoison := (s.core core).scratchPoison } = s.core core

theorem OnlyScratch.teams {s s' : State} {b : Block} (h : OnlyScratch s s' b) : s'.teams = s.teams := by
  have := congrArg State.teams h.1
  exact this

theorem unsaving_of_teams {s s' : State} (h : s'.teams = s.teams) (hu : Unsaving s) : Unsaving s' := by rwa [Unsaving, h]

/-- A team's store on a machine with no area open. -/
theorem localPut_eq {s : State} (hu : Unsaving s) (k : Nat) (b : Block) (core off : Nat) (bs : List Byte) :
    localPut s k b core off bs = scratchWrite (if b.grouped then noteLoose s k core off bs.length else s) core off bs false := by
  have closed : ((if b.grouped then noteLoose s k core off bs.length else s).teams.any fun kt => kt.2.saving) = false := by
    split <;> exact saving_of_unsaving hu
  rw [localPut, scratchStore, closed, if_neg Bool.false_ne_true]

theorem core_noteLoose (s : State) (b : Block) (k core off n c : Nat) :
    (if b.grouped then noteLoose s k core off n else s).core c = s.core c := by split <;> rfl

theorem OnlyScratch.localPut {s s' : State} {b : Block} (h : OnlyScratch s s' b) (hu : Unsaving s) (k core off : Nat) (bs : List Byte) :
    OnlyScratch s (localPut s' k b core off bs) b := by
  obtain ⟨rest, hub, cores⟩ := h
  rw [localPut_eq (unsaving_of_teams (OnlyScratch.teams ⟨rest, hub, cores⟩) hu)]
  refine ⟨?_, fun alone => ?_, fun c => ?_⟩
  · rw [← rest]
    split <;> rfl
  · rw [if_neg (by simp [alone])]
    exact hub alone
  · have same := scratchWrite_core (if b.grouped then noteLoose s' k core off bs.length else s') core off bs c
    rw [core_noteLoose] at same
    rw [← cores c, ← same]

/-- The bytes that lane `l` stores at a place, in a machine. -/
def laneBytes (w : LaneStore) (s : State) (l core off : Nat) : List Byte :=
  (List.range w.n).map fun j => w.byte l j (Sparse.get 0#8 (s.core core).scratch (off + j))

/-- One lane's part of a store. -/
def putLane (w : LaneStore) (k : Nat) (b : Block) (s : State) (l : Nat) : State :=
  match w.fate l with
  | .go core off => localPut s k b core off (laneBytes w s l core off)
  | .trap _ _ _ => s

theorem putLane_scratch (w : LaneStore) (k : Nat) (b : Block) {s : State} (hu : Unsaving s) (l core off : Nat) :
    Sparse.get 0#8 ((putLane w k b s l).core core).scratch off = storedOver [l] w core off (Sparse.get 0#8 (s.core core).scratch off) := by
  unfold putLane storedOver
  rw [List.foldl_cons, List.foldl_nil]
  cases w.fate l with
  | trap => rfl
  | go c o =>
    simp only [localPut_eq hu, scratchWrite_scratch, core_noteLoose, laneBytes, List.length_map, List.length_range]
    by_cases h : c = core ∧ o ≤ off ∧ off < o + w.n
    · obtain ⟨rfl, lo, hi⟩ := h
      rw [if_pos ⟨rfl, lo, hi⟩, if_pos ⟨rfl, lo, hi⟩]
      simp [List.getD_eq_getElem?_getD, show off - o < w.n by omega, show o + (off - o) = off by omega]
    · rw [if_neg h, if_neg h]

/-- The lane's store covers a word whole. -/
def laneCovers (w : LaneStore) (core word l : Nat) : Bool :=
  match w.fate l with
  | .go c o => decide (c = core ∧ o ≤ 4 * word ∧ 4 * word + 4 ≤ o + w.n)
  | .trap _ _ _ => false

theorem putLane_poison (w : LaneStore) (k : Nat) (b : Block) {s : State} (hu : Unsaving s) (l core word : Nat) :
    Sparse.get false ((putLane w k b s l).core core).scratchPoison word =
      (Sparse.get false (s.core core).scratchPoison word && !laneCovers w core word l) := by
  unfold putLane laneCovers
  cases w.fate l with
  | trap => simp
  | go c o =>
    simp only [localPut_eq hu, scratchWrite_poison, core_noteLoose, laneBytes, List.length_map, List.length_range]

/-- The stores of some lanes, one after the other. -/
theorem foldl_put (w : LaneStore) (k : Nat) (b : Block) {s : State} (hu : Unsaving s) (ls : List Nat) :
    OnlyScratch s (ls.foldl (putLane w k b) s) b ∧
      ∀ core, (∀ off, Sparse.get 0#8 ((ls.foldl (putLane w k b) s).core core).scratch off =
          storedOver ls w core off (Sparse.get 0#8 (s.core core).scratch off)) ∧
        ∀ word, Sparse.get false ((ls.foldl (putLane w k b) s).core core).scratchPoison word =
          (Sparse.get false (s.core core).scratchPoison word && !ls.any (laneCovers w core word)) := by
  have only : OnlyScratch s (ls.foldl (putLane w k b) s) b := by
    refine foldl_keeps (P := fun s' => OnlyScratch s s' b) _ (fun s' l h => ?_) ls s ⟨rfl, fun _ => rfl, fun _ => rfl⟩
    unfold putLane
    split
    · exact h.localPut hu _ _ _ _
    · exact h
  refine ⟨only, fun core => ?_⟩
  clear only
  induction ls generalizing s with
  | nil => exact ⟨fun _ => rfl, fun _ => by simp⟩
  | cons l ls ih =>
    have one : OnlyScratch s (putLane w k b s l) b := by
      unfold putLane
      split
      · exact OnlyScratch.localPut ⟨rfl, fun _ => rfl, fun _ => rfl⟩ hu _ _ _ _
      · exact ⟨rfl, fun _ => rfl, fun _ => rfl⟩
    obtain ⟨scratch, poison⟩ := ih (unsaving_of_teams one.teams hu)
    refine ⟨fun off => ?_, fun word => ?_⟩
    · rw [List.foldl_cons, scratch, putLane_scratch w k b hu]
      rfl
    · rw [List.foldl_cons, poison, putLane_poison w k b hu, List.any_cons, Bool.not_or, Bool.and_assoc]

end Sys2Proof.Machine
end

section
/-! SUPPORT. The forms of `STL` and `STT`, and what a tile in the wrong state does. -/

namespace Sys2Proof.Machine

open Sys2Proof.Claims

/-! ### A local store on clean registers (R403) -/

/-- A lane's store is made. -/
def goes (f : LocalFate) : Bool :=
  match f with
  | .go _ _ => true
  | .trap _ _ _ => false

section
variable {s : State} {t : Team} {r : Run} (ht : s.team s.cur = some t) (hc : Clean t) (vs : Nat → List (Nat × Nat)) (src : List Nat)
  {check : Team → Nat → LocalFate} {write : Team → State → Nat → Nat → Nat → State}
include ht hc

theorem localStore_idle (idle : t.actingLanes = []) : localStore s vs src check write = .next (s.setTeam s.cur t) := by
  simp only [localStore, ht, taint_clean hc, BitVec.getLsbD_zero, Bool.not_false, filter_all, idle, List.isEmpty_nil, if_true,
    onTeam_of ht, consume_zero]

theorem localStore_stalls (lanes : t.actingLanes ≠ []) (full : t.flagFull false = true) :
    localStore s vs src check write = .next (stallInstr s) := by
  simp only [localStore, ht, taint_clean hc, BitVec.getLsbD_zero, Bool.not_false, filter_all, List.isEmpty_iff, if_neg lanes, full, if_true]

/-- Its lanes store one after the other; it records the traps of the others, and counts if any stored. -/
theorem localStore_acts (hr : t.run = some r) (hu : Unsaving s) (lanes : t.actingLanes ≠ []) (free : t.flagFull false = false)
    {w : LaneStore} {b : Block} (checked : ∀ l, check t l = w.fate l)
    (agree : ∀ s' l core off, w.fate l = .go core off → write t s' l core off = localPut s' s.cur b core off (laneBytes w s' l core off)) :
    localStore s vs src check write = .next ((t.actingLanes.foldl (putLane w s.cur b) s).setTeam s.cur
      (let faulted := trapping t r (localFaults t.actingLanes w.fate)
        if t.actingLanes.any fun l => goes (w.fate l) then faulted.issueB else faulted)) := by
  have stores : (t.actingLanes.map fun l => (l, w.fate l)).foldl (fun s f => match f.2 with
      | .go core off => write t s f.1 core off
      | .trap _ _ _ => s) s = t.actingLanes.foldl (putLane w s.cur b) s := by
    rw [List.foldl_map]
    refine congrArg (fun f => List.foldl f s t.actingLanes) (funext fun s' => funext fun l => ?_)
    unfold putLane
    cases h : w.fate l with
    | trap => rfl
    | go core off => exact agree s' l core off h
  have stored : (t.actingLanes.map fun l => (l, w.fate l)).any (fun f => match f.2 with
      | .go _ _ => true
      | .trap _ _ _ => false) = t.actingLanes.any fun l => goes (w.fate l) := by
    rw [List.any_map]
    rfl
  have there : (t.actingLanes.foldl (putLane w s.cur b) s).team s.cur = some t := by
    rw [State.team, (foldl_put w s.cur b hu _).1.teams]
    exact ht
  simp only [localStore, ht, taint_clean hc, BitVec.getLsbD_zero, Bool.not_false, filter_all, List.isEmpty_iff, if_neg lanes, free,
    Bool.false_eq_true, if_false, checked, consume_zero]
  refine (congrArg₂ (fun (x : State) (any : Bool) => Host.Outcome.next (x.modTeam s.cur fun u =>
    let u := u.raiseLocal (t.actingLanes.map fun l => (l, w.fate l))
    if any then u.issueB else u)) stores stored).trans ?_
  rw [modTeam_of there, raiseLocal_acting hr]
end

/-! ### The bytes of the two instructions (R4, R404) -/

theorem exec_stl (c : BitVec 1) (d : BitVec 7) (b : BitVec 6) (i : BitVec 7) (z : BitVec 2) (s : State) :
    exec (.stl c d b i z) s = execStl d b i z s := rfl
theorem exec_stt (c : BitVec 1) (d : BitVec 7) (n : BitVec 6) (i : BitVec 7) (s : State) : exec (.stt c d n i) s = execStt d n i s := rfl

theorem ofNat_div_eq_octet (w : Word) (j : Nat) : BitVec.ofNat 8 (w.toNat / 256 ^ j) = octet w j := by
  apply BitVec.eq_of_toNat_eq
  rw [octet, BitVec.extractLsb'_toNat, BitVec.toNat_ofNat, Nat.shiftRight_eq_div_pow, Nat.pow_mul]

/-- A byte of two words one after the other. -/
theorem ofNat_div_pair (x y : Word) {j : Nat} (hj : j < 8) :
    BitVec.ofNat 8 ((x.toNat + y.toNat * 2 ^ 32) / 256 ^ j) = octet (if j < 4 then x else y) (j % 4) := by
  rw [← ofNat_div_eq_octet]
  apply BitVec.eq_of_toNat_eq
  have hx := x.isLt
  simp only [BitVec.toNat_ofNat]
  interval_cases j <;> simp <;> omega

theorem accessBytes_cases (z : BitVec 2) : accessBytes z = 8 ∨ accessBytes z ≤ 4 := by
  revert z
  decide

/-- The bytes of a stored register or pair. -/
theorem storedBytes_eq (z : BitVec 2) (t : Team) (tick d l : Nat) :
    storedBytes (accessBytes z) (t.captureV tick d l (accessBytes z == 8)) =
      (List.range (accessBytes z)).map fun j => octet (t.readV tick (d + j / 4) l) (j % 4) := by
  rw [storedBytes, leBytes_eq_map]
  refine List.map_congr_left fun j hj => ?_
  have hj := List.mem_range.1 hj
  rcases accessBytes_cases z with pair | single
  · rw [pair] at hj ⊢
    refine (ofNat_div_pair _ _ hj).trans ?_
    split
    · rw [Nat.div_eq_of_lt ‹_›]; rfl
    · rw [show j / 4 = 1 by omega]; rfl
  · have small : j < 4 := by omega
    simp [show accessBytes z ≠ 8 by omega, Team.captureV, Nat.div_eq_of_lt small, Nat.mod_eq_of_lt small, ofNat_div_eq_octet]

/-- A byte with its low or its high nibble replaced (R404). -/
theorem ofNat_low_nibble (old : Byte) (w : Word) :
    BitVec.ofNat 8 (old.toNat / 16 * 16 + w.toNat % 16) = old.extractLsb' 4 4 ++ w.extractLsb' 0 4 := by
  apply BitVec.eq_of_toNat_eq
  have := old.isLt
  rw [BitVec.toNat_append, BitVec.extractLsb'_toNat, BitVec.extractLsb'_toNat, BitVec.toNat_ofNat, Nat.shiftRight_eq_div_pow,
    Nat.shiftRight_eq_div_pow, ← Nat.shiftLeft_add_eq_or_of_lt (Nat.mod_lt _ (by decide)), Nat.shiftLeft_eq]
  omega

theorem ofNat_high_nibble (old : Byte) (w : Word) :
    BitVec.ofNat 8 (w.toNat % 16 * 16 + old.toNat % 16) = w.extractLsb' 0 4 ++ old.extractLsb' 0 4 := by
  apply BitVec.eq_of_toNat_eq
  rw [BitVec.toNat_append, BitVec.extractLsb'_toNat, BitVec.extractLsb'_toNat, BitVec.toNat_ofNat, Nat.shiftRight_eq_div_pow,
    Nat.shiftRight_eq_div_pow, ← Nat.shiftLeft_add_eq_or_of_lt (Nat.mod_lt _ (by decide)), Nat.shiftLeft_eq]
  omega

/-- What `STT` stores for an element; a CB4 element changes its nibble of the byte there. -/
theorem tileBytes_eq (s : State) (f pos core off : Nat) (w : Word) :
    tileBytes s f pos core off w = (List.range (formatBytes f)).map fun j =>
      let old := Sparse.get 0#8 (s.core core).scratch (off + j)
      if f = 16 then
        (if pos % 2 = 0 then old.extractLsb' 4 4 ++ w.extractLsb' 0 4 else w.extractLsb' 0 4 ++ old.extractLsb' 0 4)
      else octet w j := by
  unfold tileBytes
  split
  case isTrue h =>
    subst h
    have one : (scratchBytes s core off 1).1 = [Sparse.get 0#8 (s.core core).scratch off] := rfl
    simp only [one, leNat, Nat.mul_zero, Nat.add_zero, leBytes, formatBytes, List.range_succ, List.range_zero, List.nil_append,
      List.map_cons, List.map_nil]
    split
    · rw [ofNat_low_nibble]
    · rw [ofNat_high_nibble]
  case isFalse h =>
    rw [leBytes_eq_map, elementBytes_eq]
    simp only [ofNat_div_eq_octet]

/-! ### The two instructions -/

section
variable {s : State} {t : Team} {b : Block} (ht : s.team s.cur = some t) (hb : s.block t.block = some b)
include ht hb

theorem execStl_eq (d : BitVec 7) (sb : BitVec 6) (i : BitVec 7) (z : BitVec 2) :
    execStl d sb i z s = localStore s (ownLane (i.toNat :: pairRegs d.toNat (accessBytes z))) [sb.toNat]
      (fun t l => checkLocal s s.cur t b 1 (accessBytes z) true (t.readS s.tick sb.toNat + t.readV s.tick i.toNat l).toNat)
      fun t s' l core off =>
        localPut s' s.cur b core off (storedBytes (accessBytes z) (t.captureV s.tick d.toNat l (accessBytes z == 8))) := by
  simp only [execStl, blockOf_cur ht hb, sizeBytes_eq]

theorem execStt_eq {n : BitVec 6} (filling : (b.tile n.toNat).fits tileFilling = true) (d i : BitVec 7) :
    execStt d n i s = localStore s (ownLane [i.toNat, d.toNat]) []
      (fun tm l => checkElement s s.cur tm b (b.tile n.toNat) 1 true (tm.readV s.tick i.toNat l).toNat)
      fun tm s' l core off => localPut s' s.cur b core off (tileBytes s' (b.tile n.toNat).fmt
        ((b.tile n.toNat).element (tm.readV s.tick i.toNat l).toNat).2 core off (tm.readV s.tick d.toNat l)) := by
  simp only [execStt, blockOf_cur ht hb, filling, Bool.not_true, Bool.false_eq_true, if_false]

/-- Both are stores of lanes with the checks and the bytes of their forms. -/
theorem exec_localStoreForm {i : Instr} {w : LaneStore} (hw : localStoreForm s t b i = some w) :
    ∃ vs src check write, exec i s = localStore s vs src check write ∧ (∀ l, check t l = w.fate l) ∧
      ∀ s' l core off, w.fate l = .go core off → write t s' l core off = localPut s' s.cur b core off (laneBytes w s' l core off) := by
  cases i with
  | stl c d sb i z =>
    cases hw
    refine ⟨_, _, _, _, execStl_eq ht hb d sb i z, fun _ => rfl, fun s' l core off _ => ?_⟩
    rw [storedBytes_eq]
    rfl
  | stt c d tn i =>
    simp only [localStoreForm] at hw
    split at hw
    · rename_i filling
      cases hw
      refine ⟨_, _, _, _, execStt_eq ht hb ((fits_iff _ tileFilling).2 filling) d i, fun l => checkElement_eq s t b _ true _,
        fun s' l core off _ => ?_⟩
      rw [tileBytes_eq, element_eq]
      rfl
    · cases hw
  | _ => nomatch hw
end

theorem localStore_holds : LocalStore := by
  intro s t r b i w ht hr hb hc hu hw
  obtain ⟨vs, src, check, write, run, checked, agree⟩ := exec_localStoreForm ht hb hw
  rw [run]
  refine ⟨fun lanes free => ?_, localStore_stalls ht hc _ _, localStore_idle ht hc _ _⟩
  obtain ⟨⟨rest, hub, cores⟩, bytes⟩ := foldl_put w s.cur b hu t.actingLanes
  refine ⟨_, _, localStore_acts ht hc vs src hr hu lanes free checked agree, congrArg (fun x => State.setTeam x s.cur _) rest, hub,
    fun ⟨l, hl, core, off, go⟩ => ?_, fun all => ?_, fun core => ⟨cores core, (bytes core).1, (bytes core).2⟩⟩
  · have any : (t.actingLanes.any fun l => goes (w.fate l)) = true := List.any_eq_true.2 ⟨l, hl, by simp [goes, go]⟩
    rw [if_pos any]
    exact issueB_counted rfl rfl
  · have none : ¬ (t.actingLanes.any fun l => goes (w.fate l)) = true := by
      rw [List.any_eq_true]
      rintro ⟨l, hl, go⟩
      obtain ⟨c, d, a, trap⟩ := all l hl
      simp [goes, trap] at go
    exact if_neg none

/-! ### A tile in another state (R360, R404) -/

/-- A trap of every acting lane. -/
theorem raise_acting {t : Team} {r : Run} (hr : t.run = some r) (cause : Nat) (detail : Word) :
    t.raise t.acting cause detail t.itemAddr false 0 = if t.acting = 0#1024 then t else { t with run := some { r with
      traps := r.traps ++ [⟨t.acting, cause, detail, r.item.addr, r.itemIdx, false, false, false, 0⟩] } } := by
  have free : t.acting &&& ~~~r.held = t.acting := by
    rw [Team.acting, held_of_run hr, BitVec.and_assoc, BitVec.and_self]
  simp [Team.raise, Team.itemAddr, hr, free]

/-- A trap leaves a run on its flags. -/
theorem raise_setA {t : Team} {r : Run} (hr : t.run = some r) (lanes : Mask) (cause : Nat) (detail : Word) (addr : Nat) (inH : Bool)
    (imm : BitVec 16) : ∃ q, (t.raise lanes cause detail addr inH imm).run = some q ∧ q.setA = r.setA := by
  unfold Team.raise
  simp only [hr]
  split
  · exact ⟨r, hr, rfl⟩
  · exact ⟨_, rfl, rfl⟩

theorem fits_eq_false {x : Tile} {st : BitVec 2} (h : ¬ (x.valid = true ∧ x.state = st ∧ x.eng = false)) : x.fits st = false :=
  Bool.eq_false_iff.2 fun fits => h ((fits_iff x st).1 fits)

section
variable {s : State} {t : Team} (ht : s.team s.cur = some t) (d : Nat) (trap : Team → Team)
include ht

theorem helperZeros_idle (idle : t.loadHelpers d = []) : helperZeros s d trap = .next (s.setTeam s.cur (trap t)) := by
  unfold Team.loadHelpers at idle
  simp only [helperZeros, ht, idle, List.isEmpty_nil, if_true, onTeam_of ht]

theorem helperZeros_stalls (lanes : t.loadHelpers d ≠ []) (full : t.flagFull true = true) :
    helperZeros s d trap = .next (stallInstr s) := by
  unfold Team.loadHelpers at lanes
  simp only [helperZeros, ht, List.isEmpty_iff, if_neg lanes, full, if_true]

theorem helperZeros_issues (lanes : t.loadHelpers d ≠ []) (free : t.flagFull true = false) :
    helperZeros s d trap = .next (s.setTeam s.cur
      ((trap t).issueA s.tick (sound ((t.loadHelpers d).map fun l => (vKey t.mode d l, 0#32))) (sound []) 0)) := by
  unfold Team.loadHelpers at lanes ⊢
  simp only [helperZeros, ht, List.isEmpty_iff, if_neg lanes, free, Bool.false_eq_true, if_false, onTeam_of ht, sound, List.map_map,
    Function.comp_def, List.map_nil]
end

theorem tileStateTrap_holds : TileStateTrap := by
  intro s t r b c d tn v ht hr hb x detail u helpers
  have trapped : t.raise t.acting 10 (x.detail tn.toNat) t.itemAddr false 0 = u := raise_acting hr 10 _
  refine ⟨fun unready => ?_, fun unready => ?_⟩
  · have unfit : (b.tile tn.toNat).fits tileReady = false := fits_eq_false unready
    have run : exec (.ldt c d tn v) s =
        helperZeros s d.toNat fun tm => tm.raise tm.acting 10 (x.detail tn.toNat) tm.itemAddr false 0 := by
      simp only [exec_ldt, execLdt, blockOf_cur ht hb, unfit, Bool.not_false, if_true, x]
    rw [run]
    refine ⟨fun idle => ?_, helperZeros_stalls ht _ _, fun lanes free => ⟨_, helperZeros_issues ht _ _ lanes free, ?_⟩⟩
    · rw [helperZeros_idle ht _ _ idle, trapped]
    · obtain ⟨q, hq, same⟩ := raise_setA hr t.acting 10 (x.detail tn.toNat) t.itemAddr false 0
      rw [trapped] at hq ⊢
      refine issueA_delivers (sd := []) hq same _ ?_ List.nodup_nil 0
      have := (nodup_loadHelpers t d.toNat).map (f := vKey t.mode d.toNat) fun a b h => vKey_lane h
      simpa [Function.comp_def] using this
  · have unfit : (b.tile tn.toNat).fits tileFilling = false := fits_eq_false unready
    simp only [exec_stt, execStt, blockOf_cur ht hb, unfit, Bool.not_false, if_true, onTeam_of ht]
    exact congrArg (fun u => Host.Outcome.next (s.setTeam s.cur u)) trapped

/-- Settles O12: each access is one local load or store whose lanes have the checks, the values and the bytes of its form. -/
theorem localAccess : Obligations.LocalAccess := ⟨localAddresses_holds, localLoad_holds, localStore_holds, tileStateTrap_holds⟩

end Sys2Proof.Machine
end

section
/-! SUPPORT. The tile instructions: the checks of a descriptor, the actions on a tile's state, and handles of tiles. -/

namespace Sys2Proof.Machine

open Sys2Proof.Claims

/-! ### A command of a team that acts (R98, R273, R275) -/

theorem exec_tdef (c : BitVec 1) (n sb : BitVec 6) (s : State) : exec (.tdef c n sb) s = execTdef n sb s := rfl
theorem exec_tacq (c : BitVec 1) (n : BitVec 6) (s : State) : exec (.tacq c n) s = execTacq n s := rfl
theorem exec_trdy (c : BitVec 1) (n : BitVec 6) (s : State) : exec (.trdy c n) s = execTrdy n s := rfl
theorem exec_trel (c : BitVec 1) (n : BitVec 6) (s : State) : exec (.trel c n) s = execTrel n s := rfl
theorem exec_tstat (c : BitVec 1) (n sb : BitVec 6) (s : State) : exec (.tstat c n sb) s = execTstat n sb s := rfl
theorem exec_thand (c : BitVec 1) (sb : BitVec 6) (s : State) : exec (.thand c sb) s = execThand sb s := rfl
theorem exec_tadopt (c : BitVec 1) (sb : BitVec 6) (s : State) : exec (.tadopt c sb) s = execTadopt sb s := rfl

/-- Changing a team just put there is putting the changed one. -/
theorem modTeam_setTeam (s : State) (k : Nat) (t : Team) (f : Team → Team) : (s.setTeam k t).modTeam k f = s.setTeam k (f t) := by
  rw [modTeam_of (by rw [State.setTeam_team_eq, if_pos rfl]), setTeam_setTeam]

/-- On clean scalars a command acts on its block, with its team's run advancing. -/
theorem command_acts {s : State} {t : Team} {r : Run} {b : Block} (ht : s.team s.cur = some t) (hr : t.run = some r)
    (hb : s.block t.block = some b) (hm : t.mute = false) (hp : ∀ x, t.poisonS x = false) (src : List Nat) (act : State → Team → Block → Out) :
    command s src act = act (s.setTeam s.cur (advancing t r)) (advancing t r) b := by
  have on : s.blockOf t = some b := hb
  have adv : (t.modRun fun r => { r with advances := r.advances || !false, closes := r.closes || false }) = advancing t r := by
    simp [Team.modRun, advancing, hr]
  have clean : (advancing t r).taintS src = false := by
    have : src.any (advancing t r).poisonS = false := List.any_eq_false.2 fun x _ => Bool.eq_false_iff.1 (hp x)
    rw [Team.taintS, this, Bool.false_and]
  simp only [command, onBlock, ht, on, hm, Bool.false_eq_true, if_false, adv, clean]

section
variable (s : State) (t : Team) (r : Run)

theorem refuseOp_advancing : refuseOp (s.setTeam s.cur (advancing t r)) = .next (s.setTeam s.cur (advancing t r).illegalOp) :=
  congrArg Host.Outcome.next (modTeam_setTeam s s.cur _ _)

theorem wrongTile_advancing (x : Tile) (n : Nat) : wrongTile (s.setTeam s.cur (advancing t r)) x n =
    .next (s.setTeam s.cur (tileTrap (advancing t r) { r with advances := true } x n)) := by
  obtain ⟨q, hq, e⟩ := raise_teamTraps (t := advancing t r) (r := { r with advances := true }) rfl 10 (x.detail n) false 0
  cases hq
  refine congrArg Host.Outcome.next ((modTeam_setTeam s s.cur _ _).trans ?_)
  rw [e]
  rfl
end

/-- A trap changes no register. -/
theorem raise_regs (t : Team) (lanes : Mask) (cause : Nat) (detail : Word) (addr : Nat) (inH : Bool) (imm : BitVec 16) :
    (t.raise lanes cause detail addr inH imm).regs = t.regs := by
  unfold Team.raise
  split
  · rfl
  · dsimp only
    split <;> rfl

/-! ### The checks of a descriptor (R133, R134) -/

theorem formatHalves_eq (f : Nat) : formatHalves f = halfBytes f := by
  unfold formatHalves
  split <;> simp_all [halfBytes]

theorem tileLines_eq (x : Tile) : tileLines x = (x.lines, x.lineSize) := by
  simp only [tileLines, formatHalves_eq, Tile.lines, Tile.lineSize, Tile.lineElems, Tile.layout, Tile.cols, Tile.rows, Tile.fmt]
  split <;> simp_all

theorem shapeOk_iff (x : Tile) : x.shapeOk = true ↔
    (x.fmt ≤ 5 ∨ 9 ≤ x.fmt ∧ x.fmt ≤ 17) ∧ x.layout ≤ 2 ∧ x.d2.toNat < 1024 ∧ x.d2.toNat / 32 % 8 = 0 ∧ 1 ≤ x.rows ∧ x.rows ≤ 1024 ∧
      1 ≤ x.cols ∧ x.cols ≤ 1024 ∧ (x.layout = 2 ↔ 9 ≤ x.fmt ∧ x.fmt ≤ 15) ∧
      (x.layout = 2 → x.rows = 128 ∧ x.cols = 128 ∧ x.d3 = 0#32) ∧ (x.fmt = 16 → x.lineElems % 2 = 0) := by
  have pitch : x.pitch = 0 ↔ x.d3 = 0#32 := by rw [Tile.pitch, ← BitVec.toNat_inj]; rfl
  have small : x.d2.toNat / 1024 = 0 ↔ x.d2.toNat < 1024 := by omega
  simp only [Tile.shapeOk, goodFmt, npiFmt, Bool.and_eq_true, Bool.or_eq_true, decide_eq_true_eq, beq_iff_eq, bne_iff_ne, small,
    apply_ite (· = true), Bool.not_eq_true', decide_eq_false_iff_not, pitch]
  by_cases h : x.layout = 2
  · simp only [h, if_true, true_iff, true_implies]
    constructor
    · rintro ⟨⟨⟨⟨⟨⟨fmt, lay⟩, hi⟩, res⟩, r1, r2, c1, c2⟩, ⟨⟨npi, r⟩, c⟩, p⟩, even⟩
      exact ⟨fmt, lay, hi, res, r1, r2, c1, c2, npi, ⟨r, c, p⟩, imp_iff_not_or.2 even⟩
    · rintro ⟨fmt, lay, hi, res, r1, r2, c1, c2, npi, ⟨r, c, p⟩, even⟩
      exact ⟨⟨⟨⟨⟨⟨fmt, lay⟩, hi⟩, res⟩, r1, r2, c1, c2⟩, ⟨⟨npi, r⟩, c⟩, p⟩, not_or_of_imp even⟩
  · simp only [h, if_false, false_iff, false_implies, true_and]
    constructor
    · rintro ⟨⟨⟨⟨⟨⟨fmt, lay⟩, hi⟩, res⟩, r1, r2, c1, c2⟩, npi⟩, even⟩
      exact ⟨fmt, lay, hi, res, r1, r2, c1, c2, npi, imp_iff_not_or.2 even⟩
    · rintro ⟨fmt, lay, hi, res, r1, r2, c1, c2, npi, even⟩
      exact ⟨⟨⟨⟨⟨⟨fmt, lay⟩, hi⟩, res⟩, r1, r2, c1, c2⟩, npi⟩, not_or_of_imp even⟩

theorem descriptorGood_iff (s : State) (b : Block) (x : Tile) : descriptorGood s b x ↔
    x.shapeOk = true ∧ x.laddr % 128 = 0 ∧ x.pitchOk = true ∧ (localRange s b x.laddr x.extent).isSome = true := by
  have pitch : x.pitchOk = true ↔ (x.layout ≠ 2 → x.lineSize ≤ x.pitch ∧ x.pitch % 4 = 0) := by
    by_cases h : x.layout = 2 <;> simp [Tile.pitchOk, h]
  have extent : x.extent = if x.layout = 2 then 1024 + 2048 * (x.fmt - 7) else (x.lines - 1) * x.pitch + x.lineSize := rfl
  rw [shapeOk_iff, pitch, extent]
  simp only [descriptorGood, tileLines_eq, and_assoc]
  exact Iff.rfl

/-! ### The actions on a tile (R134, R136, R406, R407) -/

section
variable {s : State} {t : Team} {r : Run} {b : Block} (ht : s.team s.cur = some t) (hr : t.run = some r) (hb : s.block t.block = some b)
  (hm : t.mute = false) (hp : ∀ x, t.poisonS x = false)
include ht hr hb hm hp

/-- An action on a tile in the state it needs leaves the next; on any other it traps `TILE_STATE`. -/
theorem tileMove_eq (n : Nat) (need next : BitVec 2) : tileMove s n need next =
    if (b.tile n).fits need then .next ((s.setTeam s.cur (advancing t r)).setBlock t.block (b.setTile n { b.tile n with state := next }))
    else .next (s.setTeam s.cur (tileTrap (advancing t r) { r with advances := true } (b.tile n) n)) := by
  rw [tileMove, command_acts ht hr hb hm hp, ← wrongTile_advancing]
  rfl

theorem tileMove_fits {n : Nat} {need next : BitVec 2}
    (fits : (b.tile n).valid = true ∧ (b.tile n).state = need ∧ (b.tile n).eng = false) : tileMove s n need next =
      .next ((s.setTeam s.cur (advancing t r)).setBlock t.block (b.setTile n { b.tile n with state := next })) := by
  rw [tileMove_eq ht hr hb hm hp, if_pos ((fits_iff _ need).2 fits)]

theorem tileMove_refuses {n : Nat} {need next : BitVec 2}
    (unfit : ¬ ((b.tile n).valid = true ∧ (b.tile n).state = need ∧ (b.tile n).eng = false)) : tileMove s n need next =
      .next (s.setTeam s.cur (tileTrap (advancing t r) { r with advances := true } (b.tile n) n)) := by
  rw [tileMove_eq ht hr hb hm hp, fits_eq_false unfit, if_neg Bool.false_ne_true]

/-- The descriptor that four scalars give. -/
def descriptorOf (t : Team) (tick r : Nat) : Tile :=
  ⟨t.readS tick r, t.readS tick (r + 1), t.readS tick (r + 2), t.readS tick (r + 3), false, true, 0#2⟩

omit ht hr hb hm hp in
/-- The tile may be defined: it never was, or it is empty. -/
theorem busyTile_iff {x : Tile} : (x.valid && x.state != tileEmpty) = false ↔ x.valid = false ∨ x.state = 0#2 := by
  cases x.valid <;> simp [tileEmpty]

/-- The checks of `TDEF` in their order. -/
theorem execTdef_eq (n sb : BitVec 6) :
    execTdef n sb s =
      let s1 := s.setTeam s.cur (advancing t r)
      let old := b.tile n.toNat
      let new := descriptorOf t s.tick sb.toNat
      if 60 < sb.toNat then refuseOp s1
      else if old.valid && old.state != tileEmpty then wrongTile s1 old n.toNat
      else if !new.shapeOk then refuseOp s1
      else if new.laddr % 128 ≠ 0 then misaligned s1 128 new.laddr
      else if !new.pitchOk then refuseOp s1
      else if (localRange s b new.laddr new.extent).isNone then
        .next (s1.modTeam s.cur fun t => t.raise t.trapSet 7 (Config.freeWord s.tick 7) new.laddr false 0)
      else .next (s1.setBlock t.block (b.setTile n.toNat new)) := by
  rw [execTdef, command_acts ht hr hb hm hp]
  rfl

theorem execTdef_defines {n sb : BitVec 6} (hsb : sb.toNat ≤ 60) (idle : (b.tile n.toNat).valid = false ∨ (b.tile n.toNat).state = 0#2)
    (good : descriptorGood s b (descriptorOf t s.tick sb.toNat)) : execTdef n sb s =
      .next ((s.setTeam s.cur (advancing t r)).setBlock t.block (b.setTile n.toNat (descriptorOf t s.tick sb.toNat))) := by
  obtain ⟨shape, aligned, pitch, range⟩ := (descriptorGood_iff _ _ _).1 good
  have inside := Option.isNone_eq_false_iff.2 range
  simp only [execTdef_eq ht hr hb hm hp, if_neg (Nat.not_lt.2 hsb), busyTile_iff.2 idle, shape, aligned, pitch, inside, Bool.not_true,
    Bool.false_eq_true, ne_eq, not_true_eq_false, if_false]

theorem execTdef_refuses {n sb : BitVec 6} (hsb : 60 < sb.toNat) :
    execTdef n sb s = .next (s.setTeam s.cur (advancing t r).illegalOp) := by
  simp only [execTdef_eq ht hr hb hm hp, if_pos hsb, refuseOp_advancing]

theorem execTdef_busy {n sb : BitVec 6} (hsb : sb.toNat ≤ 60) (valid : (b.tile n.toNat).valid = true) (used : (b.tile n.toNat).state ≠ 0#2) :
    execTdef n sb s = .next (s.setTeam s.cur (tileTrap (advancing t r) { r with advances := true } (b.tile n.toNat) n.toNat)) := by
  have busy : ((b.tile n.toNat).valid && (b.tile n.toNat).state != tileEmpty) = true := by simpa [valid, tileEmpty] using used
  simp only [execTdef_eq ht hr hb hm hp, if_neg (Nat.not_lt.2 hsb), busy, if_true, wrongTile_advancing]

/-- A descriptor that fails a check leaves a trap of the team and nothing else. -/
theorem execTdef_traps {n sb : BitVec 6} (hsb : sb.toNat ≤ 60) (idle : (b.tile n.toNat).valid = false ∨ (b.tile n.toNat).state = 0#2)
    (bad : ¬ descriptorGood s b (descriptorOf t s.tick sb.toNat)) :
    ∃ u, execTdef n sb s = .next (s.setTeam s.cur u) ∧ u.regs = t.regs := by
  have trap (cause : Nat) (detail : Word) (addr : Nat) : ∃ u, Host.Outcome.next ((s.setTeam s.cur (advancing t r)).modTeam s.cur fun t =>
      t.raise t.trapSet cause detail addr false 0) = (.next (s.setTeam s.cur u) : Out) ∧ u.regs = t.regs :=
    ⟨_, congrArg Host.Outcome.next (modTeam_setTeam s s.cur _ _), raise_regs _ _ _ _ _ _ _⟩
  have refuse : ∃ u, refuseOp (s.setTeam s.cur (advancing t r)) = .next (s.setTeam s.cur u) ∧ u.regs = t.regs :=
    ⟨_, refuseOp_advancing s t r, raise_regs _ _ _ _ _ _ _⟩
  simp only [execTdef_eq ht hr hb hm hp, if_neg (Nat.not_lt.2 hsb), busyTile_iff.2 idle, Bool.false_eq_true, if_false]
  split
  · exact refuse
  · split
    · exact trap _ _ _
    · split
      · exact refuse
      · split
        · exact trap _ _ _
        · simp_all [descriptorGood_iff]

theorem execTstat_eq (n sb : BitVec 6) : execTstat n sb s =
    if (!(b.tile n.toNat).valid) = true then wrongTile (s.setTeam s.cur (advancing t r)) (b.tile n.toNat) n.toNat
    else .next ((s.setTeam s.cur (advancing t r)).modTeam s.cur fun tm => tm.writeS sb.toNat (b.tile n.toNat).status) := by
  rw [execTstat, command_acts ht hr hb hm hp]
  rfl

theorem execTstat_reads {n : BitVec 6} (sb : BitVec 6) (valid : (b.tile n.toNat).valid = true) :
    execTstat n sb s = .next (s.setTeam s.cur ((advancing t r).writeS sb.toNat (b.tile n.toNat).status)) := by
  rw [execTstat_eq ht hr hb hm hp, valid, if_neg (by decide), modTeam_setTeam]

theorem execTstat_refuses {n : BitVec 6} (sb : BitVec 6) (invalid : (b.tile n.toNat).valid = false) :
    execTstat n sb s = .next (s.setTeam s.cur (tileTrap (advancing t r) { r with advances := true } (b.tile n.toNat) n.toNat)) := by
  rw [execTstat_eq ht hr hb hm hp, invalid, if_pos (by decide), wrongTile_advancing]
end

/-- The status word of a defined tile (R133). -/
theorem status_eq {x : Tile} (valid : x.valid = true) : x.status = BitVec.ofNat 32 (x.state.toNat + 4 + if x.eng then 8 else 0) := by
  have word : ∀ (eng : Bool) (state : BitVec 2), state.setWidth 32 ||| 4#32 ||| (if eng then 8#32 else 0#32) =
      BitVec.ofNat 32 (state.toNat + 4 + if eng then 8 else 0) := by decide
  rw [Tile.status, if_pos valid]
  exact word x.eng x.state

theorem tileActions_holds : TileActions := by
  intro s t r b c n sb ht hr hb hm hp _ x adv keep refused fits new
  exact ⟨execTdef_defines ht hr hb hm hp, execTdef_refuses ht hr hb hm hp, execTdef_busy ht hr hb hm hp, execTdef_traps ht hr hb hm hp,
    tileMove_fits ht hr hb hm hp, tileMove_refuses ht hr hb hm hp, tileMove_fits ht hr hb hm hp, tileMove_refuses ht hr hb hm hp,
    tileMove_fits ht hr hb hm hp, tileMove_refuses ht hr hb hm hp,
    fun valid => ⟨_, execTstat_reads ht hr hb hm hp sb valid, status_eq valid ▸ writeS_writes _ _ _⟩, execTstat_refuses ht hr hb hm hp sb⟩

end Sys2Proof.Machine
end

section
/-! SUPPORT. `THAND` and `TADOPT` of a held handle: tiles leave a block's table for a hold slot, and come back from it. -/

namespace Sys2Proof.Machine

open Sys2Proof.Claims

/-! ### A block's tiles (R133) -/

theorem tile_setTile (b : Block) (n m : Nat) (x : Tile) : (b.setTile n x).tile m = if m = n then x else b.tile m := by
  rw [Block.tile, Block.setTile, Table.find_put]
  split <;> rfl

/-- Where no tile is written the block's stays. -/
theorem tile_foldl_of_not_mem {α : Type} (key : α → Nat) (f : α → Tile) {xs : List α} (b : Block) {n : Nat} (h : n ∉ xs.map key) :
    (xs.foldl (fun b x => b.setTile (key x) (f x)) b).tile n = b.tile n := by
  induction xs generalizing b with
  | nil => rfl
  | cons x xs ih =>
    rw [List.map_cons, List.mem_cons, not_or] at h
    obtain ⟨ne, h⟩ := h
    rw [List.foldl_cons, ih _ h, tile_setTile, if_neg ne]

/-- Different tiles hold what is written to them. -/
theorem tile_foldl_of_mem {α : Type} (key : α → Nat) (f : α → Tile) {xs : List α} (nodup : (xs.map key).Nodup) (b : Block) {x : α}
    (hx : x ∈ xs) : (xs.foldl (fun b x => b.setTile (key x) (f x)) b).tile (key x) = f x := by
  induction xs generalizing b with
  | nil => simp at hx
  | cons y xs ih =>
    obtain ⟨fresh, nodup⟩ := List.nodup_cons.1 nodup
    rw [List.foldl_cons]
    rcases List.mem_cons.1 hx with rfl | hx
    · rw [tile_foldl_of_not_mem key f _ fresh, tile_setTile, if_pos rfl]
    · exact ih nodup _ hx

/-! ### Held handles (R205) -/

theorem toNat_heldHandle {core slot : Nat} (hc : core < 256) (hs : slot < 64) (serial : Nat) :
    (heldHandle core slot serial).toNat = handleBits core slot serial := by
  rw [heldHandle, handleBits, BitVec.toNat_ofNat]
  omega

/-- The fields of a held handle. -/
theorem handle_fields {m : BitVec 64} {core slot serial : Nat} (hm : m.toNat = handleBits core slot serial) (hc : core < 256)
    (hs : slot < 64) (hn : serial < 2 ^ 48) :
    handleKind m = 1 ∧ handleCore m = core ∧ handleSlot m = slot ∧ handleSerial m = serial := by
  simp only [handleKind, handleCore, handleSlot, handleSerial, hm, handleBits]
  omega

/-! ### Offers (R200) -/

/-- Blocks that become runnable change what waits in the hub, and nothing else. -/
theorem raiseRunnable_frame (s : State) : { raiseRunnable s with hub := s.hub } = s ∧ HubWaits s (raiseRunnable s) := by
  refine foldl_keeps (P := fun s' : State => { s' with hub := s.hub } = s ∧ HubWaits s s') _ (fun s' ke h => ?_) _ s ⟨rfl, rfl⟩
  dsimp only
  split
  · exact h
  · split <;> exact h

theorem offerCores_frame (s : State) (cs : List Nat) :
    { offerCores s cs with hub := s.hub } = s ∧ HubWaits s (offerCores s cs) ∧ ∀ c ∈ cs, c ∈ (offerCores s cs).hub.offers :=
  ⟨(raiseRunnable_frame s).1, (raiseRunnable_frame s).2, fun _ hc => List.mem_append_right _ hc⟩

/-! ### `THAND` (R408) -/

theorem modBlock_of {s : State} {k : Nat} {b : Block} (h : s.block k = some b) (f : Block → Block) :
    s.modBlock k f = s.setBlock k (f b) := by
  simp only [State.block] at h
  simp [State.modBlock, State.setBlock, Table.update, h]

/-- What a hold slot records of some tiles of a block. -/
def holdOf (b : Block) (block serial : Nat) (tiles : List Nat) : HoldSlot :=
  { serial := serial, extent := heldExtent b tiles, base := b.base, launch := b.launch, block := block, exitAt := none
    tiles := tiles.map fun n => (n, [(b.tile n).d0, (b.tile n).d1, (b.tile n).d2, (b.tile n).d3]) }

/-- A block without some tiles. -/
def Block.without (b : Block) (tiles : List Nat) : Block := tiles.foldl (fun b n => b.setTile n Tile.none) b

theorem tile_without (b : Block) (tiles : List Nat) (n : Nat) : (b.without tiles).tile n = if n ∈ tiles then Tile.none else b.tile n := by
  unfold Block.without
  induction tiles generalizing b with
  | nil => rfl
  | cons m tiles ih =>
    rw [List.foldl_cons, ih, tile_setTile]
    by_cases h : n ∈ tiles <;> by_cases e : n = m <;> simp [h, e]

theorem getLsbD_zero_of_even {n : BitVec 6} (h : n.toNat % 2 = 0) : n.getLsbD 0 = false := by
  rw [BitVec.getLsbD, Nat.testBit_zero, h]
  rfl

section
variable {s : State} {t : Team} {r : Run} {b : Block} (ht : s.team s.cur = some t) (hr : t.run = some r) (hb : s.block t.block = some b)
  (hm : t.mute = false) (hp : ∀ x, t.poisonS x = false) {sb : BitVec 6} (even : sb.toNat % 2 = 0)
include ht hr hb hm hp even

/-- Ready tiles of the block's own allocation go to a free hold slot. -/
theorem execThand_hands {tiles : List Nat} (chosen : (List.range 64).filter (fun i => (t.readPair s.tick sb.toNat).getLsbD i) = tiles)
    (named : tiles ≠ []) (ready : ∀ n ∈ tiles, (b.tile n).fits tileReady = true) (own : ∀ n ∈ tiles, (b.tile n).laddr < 0x4000000)
    {slot : Nat} (free : (List.range 16).find? (fun i => ((s.core (coreOfTeam s.cur)).holds.find i).isNone) = some slot) :
    let core := coreOfTeam s.cur
    let serial := (s.core core).serial + 1
    execThand sb s = .next ((((s.setTeam s.cur (advancing t r)).setCore core { s.core core with
      serial := serial, holds := (s.core core).holds.put slot (holdOf b t.block serial tiles) }).setBlock t.block (b.without tiles)).setTeam
        s.cur ((advancing t r).writePair sb.toNat (heldHandle core slot serial))) := by
  have unready : tiles.find? (fun n => !(b.tile n).fits tileReady) = none :=
    List.find?_eq_none.2 fun n hn => by simp [ready n hn]
  have far : (tiles.any fun n => decide (0x4000000 ≤ (b.tile n).laddr)) = false :=
    List.any_eq_false.2 fun n hn => by simpa using own n hn
  have mask : (advancing t r).readPair (s.setTeam s.cur (advancing t r)).tick sb.toNat = t.readPair s.tick sb.toNat := rfl
  rw [execThand, command_acts ht hr hb hm hp]
  simp only [mask, chosen, getLsbD_zero_of_even even, List.isEmpty_eq_false_iff.2 named, Bool.or_self, Bool.false_eq_true, if_false,
    unready, far, State.setTeam_core_eq, State.setTeam_cur, free]
  rw [modBlock_of (b := b), modTeam_of (t := advancing t r)]
  · rfl
  · rw [State.setBlock_team_eq, State.setCore_team_eq, State.setTeam_team_eq, if_pos rfl]
  · exact hb

/-- A live held handle of this core gives its tiles back, ready. -/
theorem execTadopt_adopts {slot : Nat} {h : HoldSlot} (hc : coreOfTeam s.cur < 256)
    (names : (t.readPair s.tick sb.toNat).toNat = handleBits (coreOfTeam s.cur) slot h.serial) (hs : slot < 64) (hn : h.serial < 2 ^ 48)
    (live : (s.core (coreOfTeam s.cur)).holds.find slot = some h)
    (idle : ∀ x ∈ h.tiles, (b.tile x.1).valid = true → (b.tile x.1).state = 0#2) :
    execTadopt sb s = .next (offerCores (((s.setTeam s.cur (advancing t r)).setBlock t.block
      (h.tiles.foldl (fun b x => b.setTile x.1 (tileOf x.2 tileReady false)) b)).modCore (coreOfTeam s.cur) fun c =>
        { c with holds := c.holds.drop slot }) [coreOfTeam s.cur]) := by
  obtain ⟨kind, core, place, serial⟩ := handle_fields names hc hs hn
  have mask : (advancing t r).readPair (s.setTeam s.cur (advancing t r)).tick sb.toNat = t.readPair s.tick sb.toNat := rfl
  have held : heldBy (s.setTeam s.cur (advancing t r)) (t.readPair s.tick sb.toNat) = some h := by
    simp only [heldBy, kind, core, place, serial, if_true, State.setTeam_core_eq, live]
  have clash : clashingTile b h.tiles = none := by
    rw [clashingTile, Option.map_eq_none_iff, List.find?_eq_none]
    intro x hx
    simp only [Bool.not_eq_true]
    by_cases v : (b.tile x.1).valid = true
    · exact busyTile_iff.2 (.inr (idle x hx v))
    · exact busyTile_iff.2 (.inl (Bool.eq_false_iff.2 v))
  rw [execTadopt, command_acts ht hr hb hm hp]
  simp only [mask, getLsbD_zero_of_even even, Bool.false_eq_true, if_false, kind, if_true, held, core, State.setTeam_cur, ne_eq,
    not_true_eq_false, clash, place]
  rfl
end

theorem tileHandles_holds : TileHandles := by
  intro s t r b c sb ht hr hb hm hp _ even hc core m tiles adv
  refine ⟨fun named ready slot free => ?_, fun slot h names hs hn live idle nodup => ?_⟩
  · have run := execThand_hands ht hr hb hm hp even (tiles := tiles) rfl named
      (fun n hn => (fits_iff _ tileReady).2 ⟨(ready n hn).1, (ready n hn).2.1, (ready n hn).2.2.1⟩) (fun n hn => (ready n hn).2.2.2) free
    have small : slot < 64 := Nat.lt_trans (List.mem_range.1 (List.mem_of_find?_eq_some free)) (by decide)
    obtain ⟨v, low, high⟩ := writePair_writes adv sb.toNat (heldHandle core slot ((s.core core).serial + 1))
    rw [toNat_heldHandle hc small] at low high
    refine ⟨_, b.without tiles, _, v, holdOf b t.block ((s.core core).serial + 1) tiles, run, rfl, ?_, fun n => ?_, fun n hn => ?_, ?_, ?_, ?_,
      fun i hi => ?_, rfl, rfl, rfl, rfl, rfl, rfl, Nat.mul_mod_left _ _, low, high⟩
    · simp
    · rw [tile_without]; split <;> rfl
    · rw [tile_without, if_neg hn]
    · simp [adv, core]
    · simp [core]
    · simp [core]
    · simp [core, hi]
  · have run := execTadopt_adopts ht hr hb hm hp even hc names hs hn live idle
    obtain ⟨frame, waits, offered⟩ := offerCores_frame (((s.setTeam s.cur adv).setBlock t.block
      (h.tiles.foldl (fun b x => b.setTile x.1 (tileOf x.2 tileReady false)) b)).modCore core fun c => { c with holds := c.holds.drop slot }) [core]
    have blocks := congrArg (fun x => State.block x t.block) frame
    have cores := congrArg (fun x => (State.core x core).holds) frame
    dsimp only at blocks cores
    refine ⟨_, _, run, waits, offered core (by simp), congrArg (fun x => { x with cores := s.cores, blocks := s.blocks }) frame, ?_, ?_, fun i hi => ?_,
      fun x hx => tile_foldl_of_mem (fun x : Nat × List Word => x.1) (fun x => tileOf x.2 tileReady false) nodup b hx,
      fun n hn => tile_foldl_of_not_mem (fun x : Nat × List Word => x.1) (fun x => tileOf x.2 tileReady false) b hn⟩
    · refine blocks.trans ?_
      simp
    · refine (congrArg (fun x => Table.find x slot) cores).trans ?_
      simp
    · refine (congrArg (fun x => Table.find x i) cores).trans ?_
      simp [hi]

/-- Settles O21: every tile instruction is a command on the block's table, taken in the order of its checks. -/
theorem tileInstructions : Obligations.TileInstructions := ⟨tileActions_holds, tileHandles_holds⟩

end Sys2Proof.Machine
end

section
/-! SUPPORT. The checks of a global address, in their order. -/

namespace Sys2Proof.Machine

open Sys2Proof.Claims

/-! ### What a held translation leads to (R138, R170, R268) -/

/-- The fate of an access whose translation ended so, with no walk made for it. -/
def fateOf (s : State) (k : Nat) (t : Team) (mode : Mode) (a : Access) : Xlate → Fate
  | .miss => .park
  | .fault (.absent pa) => .absent pa
  | .fault (.cause code st2) => .trap code (a.code + if st2 then 4 else 0) st2 false
  | .hit pa attr sh =>
    let allowed := match whereIs pa with
      | .aperture core off => apertureAllows s mode core off a.perm.writes
      | _ => true
    if whereIs pa = .absent then .absent pa
    else if !allowed then .trap 7 a.code false sh
    else
      match lockHit s (coreOfTeam k) (s.tagOn (coreOfTeam k) (s.ctxOf t)) false (coreOfTeam k) pa a.bytes a.anyLock with
      | some i => .trap 9 i false sh
      | none => if a.guarded && !s.deterministic t && regionOpen s (pa / 4096) then .trap 15 0 false sh else .go pa attr sh

theorem resolve_held (s : State) (k : Nat) (t : Team) (mode : Mode) (a : Access) (va : Nat) :
    resolve s k t mode a false va = (s, fateOf s k t mode a (translate s (coreOfTeam k) (s.ctxOf t) va mode a.perm)) := by
  simp only [resolve, Bool.false_and, Bool.false_eq_true, if_false]
  cases translate s (coreOfTeam k) (s.ctxOf t) va mode a.perm with
  | miss => rfl
  | fault f => cases f <;> rfl
  | hit pa attr sh =>
    simp only [fateOf]
    by_cases absent : whereIs pa = .absent
    · rw [if_pos absent, if_pos absent]
    · rw [if_neg absent, if_neg absent]
      generalize (!_ : Bool) = refused
      cases refused
      · cases lockHit s (coreOfTeam k) (s.tagOn (coreOfTeam k) (s.ctxOf t)) false (coreOfTeam k) pa a.bytes a.anyLock with
        | some i => rfl
        | none =>
          simp only [Bool.false_eq_true, if_false]
          split <;> rfl
      · rfl

/-- The fate that the checks give an address. -/
def fateAt (s : State) (k : Nat) (t : Team) (a : Access) (va : Nat) : Fate :=
  if 2 ^ 56 ≤ va then .trap 6 a.code false false
  else if va % a.bytes ≠ 0 then .trap 8 a.bytes false false
  else
    match watchHit s (coreOfTeam k) (s.ctxOf t) va a.bytes a.watch with
    | some w => .trap 22 w false false
    | none =>
      if a.code = 0 && t.behindStore va a.bytes then .park
      else fateOf s k t t.mode a (translate s (coreOfTeam k) (s.ctxOf t) va t.mode a.perm)

/-- Checks without a walk change nothing. -/
theorem checkAccess_eq (s : State) (k : Nat) (t : Team) (a : Access) (va : Nat) : checkAccess s k t a false va = (s, fateAt s k t a va) := by
  unfold checkAccess fateAt
  split
  · rfl
  · split
    · rfl
    · split
      · simp_all
      · split <;> simp_all [resolve_held]

/-! ### The order of the checks (R298, R357, R402) -/

section
variable {s : State} {k : Nat} {t : Team} {a : Access} {va : Nat}

theorem fateAt_page (h : 2 ^ 56 ≤ va) : fateAt s k t a va = .trap 6 a.code false false := if_pos h

theorem fateAt_align (h : va < 2 ^ 56) (off : va % a.bytes ≠ 0) : fateAt s k t a va = .trap 8 a.bytes false false := by
  rw [fateAt, if_neg (Nat.not_le.2 h), if_pos off]

theorem fateAt_watch (h : va < 2 ^ 56) (on : va % a.bytes = 0) {w : Nat}
    (hit : watchHit s (coreOfTeam k) (s.ctxOf t) va a.bytes a.watch = some w) : fateAt s k t a va = .trap 22 w false false := by
  rw [fateAt, if_neg (Nat.not_le.2 h), if_neg (not_not.2 on), hit]

variable (h : va < 2 ^ 56) (on : va % a.bytes = 0) (quiet : watchHit s (coreOfTeam k) (s.ctxOf t) va a.bytes a.watch = none)
include h on quiet

theorem fateAt_behind (behind : (a.code = 0 && t.behindStore va a.bytes) = true) : fateAt s k t a va = .park := by
  rw [fateAt, if_neg (Nat.not_le.2 h), if_neg (not_not.2 on), quiet]
  exact if_pos behind

variable (clear : (a.code = 0 && t.behindStore va a.bytes) = false)
include clear

theorem fateAt_clear : fateAt s k t a va = fateOf s k t t.mode a (translate s (coreOfTeam k) (s.ctxOf t) va t.mode a.perm) := by
  rw [fateAt, if_neg (Nat.not_le.2 h), if_neg (not_not.2 on), quiet]
  exact if_neg (Bool.eq_false_iff.1 clear)

theorem fateAt_miss (miss : lookupTlb s (coreOfTeam k) (s.ctxOf t) va = none) : fateAt s k t a va = .park := by
  rw [fateAt_clear h on quiet clear, translate, if_neg (Nat.not_le.2 h), miss]
  rfl

variable {x : TlbEntry} (held : lookupTlb s (coreOfTeam k) (s.ctxOf t) va = some x)
include held

theorem fateAt_refused {code : Nat} {st2 : Bool} (refused : x.check t.mode a.perm = some (.cause code st2)) :
    fateAt s k t a va = .trap code (a.code + if st2 then 4 else 0) st2 false := by
  rw [fateAt_clear h on quiet clear, translate, if_neg (Nat.not_le.2 h), held]
  simp only [refused, fateOf]

theorem fateAt_hbm (passes : x.check t.mode a.perm = none) (hbm : x.pa + (va - x.base) < hbmTop) (open' : a.guarded = false) :
    fateAt s k t a va = match lockHit s (coreOfTeam k) (s.tagOn (coreOfTeam k) (s.ctxOf t)) false (coreOfTeam k) (x.pa + (va - x.base))
        a.bytes a.anyLock with
      | some i => .trap 9 i false x.sh
      | none => .go (x.pa + (va - x.base)) x.attr x.sh := by
  have inside : whereIs (x.pa + (va - x.base)) = .hbm := if_pos hbm
  rw [fateAt_clear h on quiet clear, translate, if_neg (Nat.not_le.2 h), held]
  simp only [passes, fateOf, inside, open', Bool.false_and, Bool.false_eq_true, if_false, Bool.not_true, reduceCtorEq]
end

/-- The permissions of a load and of a store (R138). -/
theorem check_eq (x : TlbEntry) (mode : Mode) (store : Bool) (n : Nat) :
    x.check mode (if store then Access.store n else Access.load n).perm =
      if mode = .u ∧ x.ua = false ∨ store = true ∧ x.wr = false then some (.cause 7 false)
      else if store = true ∧ x.wr2 = false then some (.cause 7 true) else none := by
  cases store <;> simp [TlbEntry.check, Access.store, Access.load, permitted]

theorem accessChecks_holds : AccessChecks := by
  intro s k t store n va hn a kind c f
  have bytes : a.bytes = n := by cases store <;> rfl
  have code : a.code = kind := by cases store <;> rfl
  have watch : a.watch = kind + 1 := by cases store <;> rfl
  have locks : a.anyLock = store := by cases store <;> rfl
  have unguarded : a.guarded = false := by cases store <;> rfl
  have fate : f = fateAt s k t a va := congrArg Prod.snd (checkAccess_eq s k t a va)
  have check (x : TlbEntry) := check_eq x t.mode store n
  rw [fate, ← bytes, ← code]
  have quiet (h : watchHit s c (s.ctxOf t) va a.bytes (a.code + 1) = none) : watchHit s c (s.ctxOf t) va a.bytes a.watch = none := by
    rw [watch, ← code]; exact h
  refine ⟨congrArg Prod.fst (checkAccess_eq s k t a va), fateAt_page, fateAt_align, fun h on w hit => fateAt_watch h on ?_,
    fun h on unwatched clear => ?_, fun h on unwatched load behind => fateAt_behind h on (quiet unwatched) ?_⟩
  · rw [watch, ← code]; exact hit
  · have unparked : (a.code = 0 && t.behindStore va a.bytes) = false := by
      rcases clear with rfl | free
      · rfl
      · rw [free, Bool.and_false]
    refine ⟨fateAt_miss h on (quiet unwatched) unparked, fun x held =>
      ⟨fun refused => ?_, fun passes1 isStore denied => ?_, fun passes hbm => ?_⟩⟩
    · exact fateAt_refused h on (quiet unwatched) unparked held (by rw [check, if_pos refused])
    · exact fateAt_refused h on (quiet unwatched) unparked held (by rw [check, if_neg passes1, if_pos ⟨isStore, denied⟩])
    · rw [not_or, not_and, not_and, not_or] at passes
      obtain ⟨user, write⟩ := passes
      have allowed : x.check t.mode a.perm = none := by
        rw [check, if_neg, if_neg]
        · exact fun hs => (write hs.1).2 hs.2
        · exact fun hs => hs.elim (fun hu => user hu.1 hu.2) fun hw => (write hw.1).1 hw.2
      have found := fateAt_hbm h on (quiet unwatched) unparked held allowed hbm unguarded
      rw [locks] at found
      refine ⟨fun i hit => ?_, fun miss => ?_⟩
      · rw [found, hit]
      · rw [found, miss]
  · subst load
    rw [behind]
    rfl

end Sys2Proof.Machine
end

section
/-! SUPPORT. The checks of lanes together, and that what the caches hold has no part in them. -/

namespace Sys2Proof.Machine

open Sys2Proof.Claims

/-! ### The checks of lanes (R141) -/

/-- One lane's checks behind those before it: whether one of them parks comes with their fates. -/
def checkLane (k : Nat) (t : Team) (a : Access) (acc : State × List (Nat × Nat × Fate) × Bool) (x : Nat × Nat) :
    State × List (Nat × Nat × Fate) × Bool :=
  let y := checkAccess acc.1 k t a false x.2
  let f := match y.2 with
    | .go pa attr sh => if attr = 3 && acc.2.2 then Fate.park else .go pa attr sh
    | f => f
  (y.1, acc.2.1 ++ [(x.1, x.2, f)], acc.2.2 || f == .park)

theorem checkLanes_eq_foldl (s : State) (k : Nat) (t : Team) (a : Access) (reqs : List (Nat × Nat)) :
    checkLanes s k t a false reqs =
      ((reqs.foldl (checkLane k t a) (s, [], !t.parked.isEmpty)).1, (reqs.foldl (checkLane k t a) (s, [], !t.parked.isEmpty)).2.1) := rfl

/-- The lane's fate is that of its own checks unless it goes behind a parked one. -/
theorem checkLane_eq (s : State) (k : Nat) (t : Team) (a : Access) (done : List (Nat × Nat × Fate)) {parks : Bool} (x : Nat × Nat)
    (h : parks = false ∨ ∀ pa attr sh, fateAt s k t a x.2 ≠ .go pa attr sh) :
    checkLane k t a (s, done, parks) x = (s, done ++ [(x.1, x.2, fateAt s k t a x.2)], parks || fateAt s k t a x.2 == .park) := by
  simp only [checkLane, checkAccess_eq]
  cases hf : fateAt s k t a x.2 with
  | go pa attr sh =>
    rcases h with rfl | never
    · simp
    · exact absurd hf (never pa attr sh)
  | _ => rfl

/-- Where no lane parks, or none goes, each lane's fate is that of its own checks. -/
theorem checkLanes_eq {s : State} {k : Nat} {t : Team} {a : Access} {reqs : List (Nat × Nat)}
    (h : t.parked = [] ∧ (∀ x ∈ reqs, fateAt s k t a x.2 ≠ .park) ∨ ∀ x ∈ reqs, ∀ pa attr sh, fateAt s k t a x.2 ≠ .go pa attr sh) :
    checkLanes s k t a false reqs = (s, reqs.map fun x => (x.1, x.2, fateAt s k t a x.2)) := by
  have all : ∀ (reqs : List (Nat × Nat)) (done : List (Nat × Nat × Fate)) (parks : Bool),
      parks = false ∧ (∀ x ∈ reqs, fateAt s k t a x.2 ≠ .park) ∨ (∀ x ∈ reqs, ∀ pa attr sh, fateAt s k t a x.2 ≠ .go pa attr sh) →
      ∃ parks', reqs.foldl (checkLane k t a) (s, done, parks) = (s, done ++ reqs.map fun x => (x.1, x.2, fateAt s k t a x.2), parks') := by
    intro reqs
    induction reqs with
    | nil => exact fun done parks _ => ⟨parks, by simp⟩
    | cons x reqs ih =>
      intro done parks h
      obtain ⟨parks', rest⟩ := ih (done ++ [(x.1, x.2, fateAt s k t a x.2)]) (parks || fateAt s k t a x.2 == .park) (h.imp
        (fun ⟨clear, goes⟩ => ⟨by simpa [clear] using goes x (by simp), fun y hy => goes y (by simp [hy])⟩)
        fun never y hy => never y (by simp [hy]))
      refine ⟨parks', ?_⟩
      rw [List.foldl_cons, checkLane_eq s k t a done x (h.imp And.left fun never => never x (by simp)), rest]
      simp
  obtain ⟨parks, run⟩ := all reqs [] (!t.parked.isEmpty) (h.imp_left fun ⟨empty, goes⟩ => ⟨by simp [empty], goes⟩)
  rw [checkLanes_eq_foldl, run, List.nil_append]

/-! ### The caches (R141, R147) -/

/-- The core but for what its L1 holds. -/
def Core.offL1 (x : Core) : Core := { x with l1 := [], l1Poison := [], l1Keep := [] }

section
variable {s s' : State} {c : Nat}

theorem onlyCaches_refl (s : State) (c : Nat) : OnlyCaches s s c := ⟨rfl, rfl, fun _ _ => rfl, rfl⟩

theorem offL1_of_onlyCaches (h : OnlyCaches s s' c) (j : Nat) : (s'.core j).offL1 = (s.core j).offL1 := by
  obtain ⟨-, -, others, own⟩ := h
  by_cases e : j = c
  · subst e; rw [← own]; rfl
  · rw [others j e]

theorem onlyCaches_modHome (h : OnlyCaches s s' c) {f : Home → Home} (hf : ∀ x : Home, { f x with l2 := x.l2 } = x) :
    OnlyCaches s (s'.modHome f) c := by
  obtain ⟨rest, home, others, own⟩ := h
  refine ⟨rest, ?_, others, own⟩
  rw [← hf s'.home] at home
  exact home

theorem onlyCaches_setCore (h : OnlyCaches s s' c) {x : Core} (hx : x.offL1 = (s'.core c).offL1) : OnlyCaches s (s'.setCore c x) c := by
  obtain ⟨rest, home, others, own⟩ := h
  refine ⟨rest, home, fun j hj => ?_, ?_⟩
  · rw [State.setCore_core_eq, if_neg hj, others j hj]
  · rw [State.setCore_core_eq, if_pos rfl]
    exact (congrArg (fun y : Core => { y with l1 := (s.core c).l1, l1Poison := (s.core c).l1Poison, l1Keep := (s.core c).l1Keep }) hx).trans own

theorem replaceLine_offL1 (x : Core) (n : Nat) : (x.replaceLine n).offL1 = x.offL1 := by
  unfold Core.replaceLine
  dsimp only
  split <;> rfl

theorem onlyCaches_fillL1 (h : OnlyCaches s s' c) (pa : Nat) (last : Bool) : OnlyCaches s (fillL1 s' c pa last) c := by
  unfold fillL1
  dsimp only
  split
  · exact h
  · split
    · exact onlyCaches_setCore h rfl
    · exact onlyCaches_setCore h (replaceLine_offL1 _ _)

theorem bring_l2 (x : Home) (n keep : Nat) (dirty : Bool) : { x.bring n keep dirty with l2 := x.l2 } = x := by
  unfold Home.bring
  split <;> rfl

theorem onlyCaches_cacheLoad (h : OnlyCaches s s' c) (pol pa attr : Nat) : OnlyCaches s (cacheLoad s' c pol pa attr) c := by
  have brought : OnlyCaches s (if ((s'.core c).l1.find (sectorOf pa)).isSome then s'
      else s'.modHome fun h => h.bring (sectorOf pa) (retention attr pol) false) c := by
    split
    · exact h
    · exact onlyCaches_modHome h fun x => bring_l2 x _ _ _
  unfold cacheLoad
  split
  · exact h
  · dsimp only
    split
    · exact onlyCaches_fillL1 brought _ _
    · exact brought

theorem onlyCaches_cacheLoads (pol : Nat) (ls : List (Nat × Nat × Nat)) (h : OnlyCaches s s' c) :
    OnlyCaches s (ls.foldl (fun x l => cacheLoad x c pol l.2.1 l.2.2) s') c := by
  induction ls generalizing s' with
  | nil => exact h
  | cons l ls ih => exact ih (onlyCaches_cacheLoad h pol l.2.1 l.2.2)

/-! ### What reads no cache -/

theorem length_logControlBytes (s : State) (core : Nat) : (logControlBytes s core).length = 2048 := by
  unfold logControlBytes
  simp only [List.length_append, length_leBytes, length_zeroBytes]
  rw [length_flatMap_const (n := 256), List.length_range]
  intro x
  split
  · simp only [List.length_append, length_leBytes, length_zeroBytes]
  · exact length_zeroBytes 256

/-- The log control region holds a byte at each of its offsets (R127, R145). -/
theorem isNone_apertureByte_log (s : State) (core : Nat) {off : Nat} (log : 0x809000 ≤ off ∧ off < 0x809800) :
    (apertureByte s core off).isNone = false := by
  have control : (controlByte s core (off - 0x800000)).isNone = false := by
    have below : off - 0x800000 - 0x9000 < (logControlBytes s core).length := by rw [length_logControlBytes]; omega
    rw [controlByte, if_neg (by omega), if_neg (by omega), if_neg (by omega), if_pos (by omega), List.getElem?_eq_getElem below]
    rfl
  rw [apertureByte, if_neg (by omega), if_neg (by omega), if_neg (by omega), if_pos (by omega), Option.isNone_map]
  exact control

variable (h : OnlyCaches s s' c)
include h

/-- What is computed from a core but for its L1 stays. -/
theorem core_of_onlyCaches {α : Type} (g : Core → α) (j : Nat) (hg : ∀ x : Core, g x = g x.offL1 := by exact fun _ => rfl) :
    g (s'.core j) = g (s.core j) := by
  rw [hg, offL1_of_onlyCaches h, ← hg]

/-- What is computed from the machine but for its cores and home slices stays. -/
theorem rest_of_onlyCaches {α : Type} (g : State → α)
    (hg : ∀ x cores home, g { x with cores := cores, home := home } = g x := by exact fun _ _ _ => rfl) :
    g s' = g s :=
  (hg s' s.cores s.home).symm.trans (congrArg g h.1)

/-- A window's byte outside the log control region is there with the same value. -/
theorem apertureByte_of_onlyCaches (core off : Nat) (other : ¬ (0x809000 ≤ off ∧ off < 0x809800)) :
    apertureByte s' core off = apertureByte s core off := by
  have control : controlByte s' core (off - 0x800000) = controlByte s core (off - 0x800000) := by
    have outside : ¬ (0x9000 ≤ off - 0x800000 ∧ off - 0x800000 < 0x9800) := by omega
    simp only [controlByte, if_neg outside, rest_of_onlyCaches h (·.block), rest_of_onlyCaches h teamContextBytes, rest_of_onlyCaches h (·.team),
      core_of_onlyCaches h (·.spare), core_of_onlyCaches h (·.locks), core_of_onlyCaches h debugBytes]
  simp only [apertureByte, control, rest_of_onlyCaches h regfileElement, rest_of_onlyCaches h (·.team),
    core_of_onlyCaches h (·.carveFrom), core_of_onlyCaches h (·.scratch), core_of_onlyCaches h (·.scratchPoison),
    core_of_onlyCaches h (·.spare), core_of_onlyCaches h (·.acc), core_of_onlyCaches h (·.accPoison)]

/-- The windows have the same bytes, whatever the log control region holds. -/
theorem isNone_apertureByte_of_onlyCaches (core off : Nat) : (apertureByte s' core off).isNone = (apertureByte s core off).isNone := by
  by_cases log : 0x809000 ≤ off ∧ off < 0x809800
  · rw [isNone_apertureByte_log s' core log, isNone_apertureByte_log s core log]
  · rw [apertureByte_of_onlyCaches h core off log]

theorem ctxOf_of_onlyCaches (t : Team) : s'.ctxOf t = s.ctxOf t := congrFun (rest_of_onlyCaches h State.ctxOf) t

theorem watchHit_of_onlyCaches (core ctx va bytes kinds : Nat) : watchHit s' core ctx va bytes kinds = watchHit s core ctx va bytes kinds := by
  simp only [watchHit, core_of_onlyCaches h (·.watches), rest_of_onlyCaches h (·.context)]

theorem translate_of_onlyCaches (core ctx va : Nat) (mode : Mode) (k : AccessKind) :
    translate s' core ctx va mode k = translate s core ctx va mode k := by
  have held : lookupTlb s' core ctx va = lookupTlb s core ctx va := by
    simp only [lookupTlb, core_of_onlyCaches h (·.tlb), rest_of_onlyCaches h (·.context), rest_of_onlyCaches h (·.cluster)]
  simp only [translate, held]

theorem lockHit_of_onlyCaches (core tag home addr bytes : Nat) (isLocal anyLock : Bool) :
    lockHit s' core tag isLocal home addr bytes anyLock = lockHit s core tag isLocal home addr bytes anyLock := by
  simp only [lockHit, core_of_onlyCaches h (·.locks)]

/-- What the caches hold has no part in the checks of a load. -/
theorem fateAt_of_onlyCaches (k : Nat) (t : Team) {a : Access} (va : Nat) (load : a.perm.writes = false) (unguarded : a.guarded = false) :
    fateAt s' k t a va = fateAt s k t a va := by
  have tag (core ctx : Nat) : s'.tagOn core ctx = s.tagOn core ctx := core_of_onlyCaches h (fun x => (x.tagOf ctx).getD 0) core
  have allows (mode : Mode) (core off : Nat) : apertureAllows s' mode core off false = apertureAllows s mode core off false := by
    simp only [apertureAllows, isNone_apertureByte_of_onlyCaches h, Bool.not_false, if_true]
  simp only [fateAt, fateOf, ctxOf_of_onlyCaches h, watchHit_of_onlyCaches h, translate_of_onlyCaches h, lockHit_of_onlyCaches h, tag, load, allows,
    unguarded, Bool.false_and]
end

end Sys2Proof.Machine
end

section
/-! SUPPORT. `LD` in the vector form: the values of the lanes that go, the traps of the others, and the parking of lanes that miss. -/

namespace Sys2Proof.Machine

open Sys2Proof.Claims

theorem exec_ldVector (c : BitVec 1) (d : BitVec 7) (b : BitVec 6) (i : BitVec 7) (z : BitVec 2) (p : BitVec 3) (s : State) :
    exec (.ldVector c d b i z p) s = execLdVector d b i z p s := rfl

/-! ### The fates of lanes -/

/-- The lanes with their addresses and fates, as the checks list them. -/
def fateRows (ls : List Nat) (addr : Nat → Nat) (fate : Nat → Fate) : List (Nat × Nat × Fate) := ls.map fun l => (l, addr l, fate l)

/-- The lanes that go: lane, physical address, page's caching. -/
def goRows (ls : List Nat) (fate : Nat → Fate) : List (Nat × Nat × Nat) :=
  ls.filterMap fun l => match fate l with
    | .go pa attr _ => some (l, pa, attr)
    | _ => none

section
variable (ls : List Nat) (addr : Nat → Nat) {fate : Nat → Fate}

theorem raiseFates_eq (t : Team) : t.raiseFates (fateRows ls addr fate) = (accessFaults ls addr fate).foldl Team.strike t := by
  induction ls generalizing t with
  | nil => rfl
  | cons l ls ih =>
    have := ih (t.raiseFates (fateRows [l] addr fate))
    cases h : fate l <;> simp_all [Team.raiseFates, fateRows, accessFaults, Team.strike]

theorem raiseFates_acting {t : Team} {r : Run} (hr : t.run = some r) :
    t.raiseFates (fateRows t.actingLanes addr fate) = trapping t r (accessFaults t.actingLanes addr fate) := by
  rw [raiseFates_eq]
  refine foldl_strike_acting hr fun l x h => ?_
  split at h
  · cases h; rfl
  · cases h

theorem goAmong_fateRows : goAmong (fateRows ls addr fate) = goRows ls fate := by
  unfold goAmong fateRows goRows
  rw [List.filterMap_map]
  rfl

theorem accessPlaces_eq : accessPlaces ls fate = (goRows ls fate).map fun x => (x.1, x.2.1) := by
  unfold accessPlaces goRows
  rw [List.map_filterMap]
  refine List.filterMap_congr fun l _ => ?_
  cases fate l <;> rfl

variable {ls}

theorem absentAmong_fateRows (h : ∀ l ∈ ls, ∀ pa, fate l ≠ .absent pa) : absentAmong (fateRows ls addr fate) = none := by
  unfold absentAmong fateRows
  rw [List.findSome?_eq_none_iff]
  intro x hx
  obtain ⟨l, hl, rfl⟩ := List.mem_map.1 hx
  split
  · exact absurd ‹_› (h l hl _)
  · rfl

theorem parkAmong_resolved (h : Resolved ls fate) : parkAmong (fateRows ls addr fate) = [] := by
  unfold parkAmong fateRows
  rw [List.filterMap_map, List.filterMap_eq_nil_iff]
  intro l hl
  rcases h l hl with ⟨pa, attr, sh, go⟩ | ⟨c, d, inH, sh, trap⟩
  · simp [go]
  · simp [trap]

theorem parkAmong_parked (h : ∀ l ∈ ls, fate l = .park) : parkAmong (fateRows ls addr fate) = ls.map fun l => (l, addr l) := by
  unfold parkAmong fateRows
  rw [List.filterMap_map, ← List.filterMap_eq_map]
  exact List.filterMap_congr fun l hl => by simp [h l hl]

theorem goRows_parked (h : ∀ l ∈ ls, fate l = .park) : goRows ls fate = [] :=
  List.filterMap_eq_nil_iff.2 fun l hl => by simp [h l hl]

theorem accessFaults_parked (h : ∀ l ∈ ls, fate l = .park) : accessFaults ls addr fate = [] :=
  List.filterMap_eq_nil_iff.2 fun l hl => by simp [h l hl]
end

/-! ### Loads performed (R141, R147) -/

/-- Loads that read no poison change nothing but the caches. -/
theorem performLoads_sound {s : State} {c ctx n : Nat} (pol : Nat) {ls : List (Nat × Nat × Nat)}
    (clean : ∀ x ∈ ls, (readAt s c ctx x.2.1 n true).2 = false) :
    performLoads s c ctx n pol ls = (ls.foldl (fun s l => cacheLoad s c pol l.2.1 l.2.2) s,
      (ls.map fun x => (x.1, numberOf (readAt s c ctx x.2.1 n true).1)).map fun x => (x.1, x.2, false)) := by
  have vals : ls.map (fun l => (l.1, leNat (readAt s c ctx l.2.1 n true).1, (readAt s c ctx l.2.1 n true).2)) =
      (ls.map fun x => (x.1, numberOf (readAt s c ctx x.2.1 n true).1)).map fun x => (x.1, x.2, false) := by
    rw [List.map_map]
    exact List.map_congr_left fun x hx => by rw [Function.comp_apply, numberOf_eq_leNat, clean x hx]
  have unpoisoned : ((ls.zip ((ls.map fun x => (x.1, numberOf (readAt s c ctx x.2.1 n true).1)).map fun x => (x.1, x.2, false))).filter
      fun x => x.2.2.2 && whereIs x.1.2.1 == .hbm) = [] := by
    rw [List.map_map, ← List.map_prod_left_eq_zip]
    simp
  simp only [performLoads, vals, unpoisoned, List.foldl_nil]

/-! ### The vector form (R357, R358) -/

section
variable {s : State} {t : Team} {a : Access} {addr : Nat → Nat} {fate : Nat → Fate} {ls : List Nat}

theorem checkLanes_resolved (hp : t.parked = []) (hf : ∀ l, fateAt s s.cur t a (addr l) = fate l) (resolved : Resolved ls fate) :
    checkLanes s s.cur t a false (ls.map fun l => (l, addr l)) = (s, fateRows ls addr fate) := by
  rw [checkLanes_eq (.inl ⟨hp, fun x hx => ?_⟩), List.map_map]
  · simp only [Function.comp_def, hf, fateRows]
  · obtain ⟨l, hl, rfl⟩ := List.mem_map.1 hx
    rw [hf]
    rcases resolved l hl with ⟨pa, attr, sh, go⟩ | ⟨c, d, inH, sh, trap⟩
    · simp [go]
    · simp [trap]

theorem checkLanes_parked (hf : ∀ l ∈ ls, fateAt s s.cur t a (addr l) = .park) :
    checkLanes s s.cur t a false (ls.map fun l => (l, addr l)) = (s, fateRows ls addr fun _ => .park) := by
  have parks : ∀ x ∈ ls.map fun l => (l, addr l), fateAt s s.cur t a x.2 = .park := fun x hx => by
    obtain ⟨l, hl, rfl⟩ := List.mem_map.1 hx
    exact hf l hl
  rw [checkLanes_eq (.inr fun x hx pa attr sh => by simp [parks x hx]), List.map_map]
  exact congrArg (s, ·) (List.map_congr_left fun l hl => by simp [hf l hl])
end

/-- What a helper lane gets. -/
def helperLoad (fate : Nat → Fate) (value : Nat → List Byte × Bool) (l : Nat) : Nat × Nat :=
  match fate l with
  | .go pa _ _ => (l, if (value pa).2 then 0 else numberOf (value pa).1)
  | _ => (l, 0)

theorem map_helperLoad (fate : Nat → Fate) (value : Nat → List Byte × Bool) (ls : List Nat) :
    ls.map (fun l => match fate l with
      | .go pa _ _ => (l, (if (value pa).2 then 0 else leNat (value pa).1), false)
      | _ => (l, 0, false)) = (ls.map (helperLoad fate value)).map fun x => (x.1, x.2, false) := by
  rw [List.map_map]
  refine List.map_congr_left fun l _ => ?_
  simp only [Function.comp_apply, helperLoad, numberOf_eq_leNat]
  cases fate l <;> rfl

/-- The values of a load's lanes. -/
def accessValues (t : Team) (d : Nat) (fate helper : Nat → Fate) (value after : Nat → List Byte × Bool) : List (Nat × Nat) :=
  (accessPlaces t.actingLanes fate).map (fun x => (x.1, numberOf (value x.2).1)) ++ (t.loadHelpers d).map (helperLoad helper after)

theorem accessValues_eq (t : Team) (d : Nat) (fate helper : Nat → Fate) (value after : Nat → List Byte × Bool) :
    accessValues t d fate helper value after =
      (goRows t.actingLanes fate).map (fun x => (x.1, numberOf (value x.2.1).1)) ++ (t.loadHelpers d).map (helperLoad helper after) := by
  rw [accessValues, accessPlaces_eq, List.map_map]
  exact rfl

theorem accessValues_lanes (t : Team) (d : Nat) (fate helper : Nat → Fate) (value after : Nat → List Byte × Bool) :
    ((accessValues t d fate helper value after).map (·.1)).Nodup ∧ ∀ x ∈ accessValues t d fate helper value after, x.1 < 1024 := by
  unfold accessValues accessPlaces
  rw [List.map_filterMap]
  refine nodup_lanes_append (fun l x h => ?_) fun l => ?_
  · cases hf : fate l <;> simp only [hf, Option.map_none, Option.map_some, reduceCtorEq, Option.some.injEq] at h
    rw [← h]
  · unfold helperLoad
    split <;> rfl

/-- The team after a load has the values of its lanes. -/
def Team.delivered (t : Team) (tick d n : Nat) (vals : List (Nat × Nat)) : Team :=
  if vals = [] then t else t.issueA tick (sound (loadTargets t.mode d n vals)) (sound []) 0

theorem delivered_eq (t : Team) (tick d n : Nat) (vals : List (Nat × Nat)) :
    (if (sound (loadTargets t.mode d n vals)).isEmpty then t else t.issueA tick (sound (loadTargets t.mode d n vals)) [] 0) =
      t.delivered tick d n vals := by
  have empty : (sound (loadTargets t.mode d n vals)).isEmpty = true ↔ vals = [] := by simp [sound, loadTargets_eq_nil]
  by_cases h : vals = []
  · exact (if_pos (empty.2 h)).trans (if_pos h).symm
  · exact (if_neg (mt empty.1 h)).trans (if_neg h).symm

theorem delivered_of {t : Team} {r q : Run} (hr : t.run = some q) (same : q.setA = r.setA) (tick d n : Nat) {vals : List (Nat × Nat)}
    (lanes : (vals.map (·.1)).Nodup ∧ ∀ x ∈ vals, x.1 < 1024) :
    if vals = [] then t.delivered tick d n vals = t else Delivers t (t.delivered tick d n vals) r (loadTargets t.mode d n vals) [] 0 := by
  unfold Team.delivered
  obtain ⟨nodup, lt⟩ := lanes
  split
  · rfl
  · exact issueA_delivers (sd := []) hr same tick (nodup_loadTargets t.mode d n nodup lt) List.nodup_nil 0

section
variable {s : State} {t : Team} {r : Run} (ht : s.team s.cur = some t) (hc : Clean t) (hr : t.run = some r) (free : t.flagFull true = false)
  (vs : Nat → List (Nat × Nat)) (src : List Nat) (d n pol : Nat) {addr : Team → Nat → Nat}
include ht hc hr free

/-- A load whose lanes all resolve: the caches change, the traps are recorded, and the values go out if any lane has one. -/
theorem loadLanes_acts (hp : t.parked = []) (lanes : t.actingLanes ++ t.loadHelpers d ≠ [])
    {fate : Nat → Fate} (hf : ∀ l, fateAt s s.cur t (Access.load n) (addr t l) = fate l) (resolved : Resolved t.actingLanes fate)
    (clean : ∀ x ∈ accessPlaces t.actingLanes fate, (readAt s (coreOfTeam s.cur) (s.ctxOf t) x.2 n true).2 = false) :
    ∃ s', OnlyCaches s s' (coreOfTeam s.cur) ∧ loadLanes s vs src d n pol addr = .next (s'.setTeam s.cur
      ((trapping t r (accessFaults t.actingLanes (addr t) fate)).delivered s.tick d n
        (accessValues t d fate (fun l => fateAt s s.cur t { Access.load n with watch := 0 } (addr t l))
          (fun pa => readAt s (coreOfTeam s.cur) (s.ctxOf t) pa n true) fun pa => readAt s' (coreOfTeam s.cur) (s.ctxOf t) pa n true))) := by
  have present : ∀ l ∈ t.actingLanes, ∀ pa, fate l ≠ .absent pa := fun l hl pa => by
    rcases resolved l hl with ⟨pa, attr, sh, go⟩ | ⟨c, d, inH, sh, trap⟩
    · simp [go]
    · simp [trap]
  have only := onlyCaches_cacheLoads pol (goRows t.actingLanes fate) (onlyCaches_refl s (coreOfTeam s.cur))
  have performed := performLoads_sound pol (ls := goRows t.actingLanes fate) fun x hx =>
    clean (x.1, x.2.1) (accessPlaces_eq t.actingLanes ▸ List.mem_map_of_mem (f := fun x : Nat × Nat × Nat => (x.1, x.2.1)) hx)
  refine ⟨_, only, ?_⟩
  revert only performed
  generalize (goRows t.actingLanes fate).foldl (fun x l => cacheLoad x (coreOfTeam s.cur) pol l.2.1 l.2.2) s = s'
  intro only performed
  have team : s'.team s.cur = some t := (rest_of_onlyCaches only (·.team s.cur)).trans ht
  have helper (l : Nat) := fateAt_of_onlyCaches only s.cur t (a := { Access.load n with watch := 0 }) (addr t l) rfl rfl
  have found := congrArg (fun ys => loadedElements t.mode d n
    (((goRows t.actingLanes fate).map fun x => (x.1, numberOf (readAt s (coreOfTeam s.cur) (s.ctxOf t) x.2.1 n true).1)).map
      (fun x => (x.1, x.2, false)) ++ ys)) (map_helperLoad (fun l => fateAt s s.cur t { Access.load n with watch := 0 } (addr t l))
        (fun pa => readAt s' (coreOfTeam s.cur) (s.ctxOf t) pa n true) (t.loadHelpers d))
  dsimp only at found
  rw [← List.map_append, loadedElements_eq] at found
  have busy := isEmpty_and_isEmpty lanes
  unfold Team.loadHelpers at busy
  simp only [loadLanes, ht, taint_clean hc, BitVec.getLsbD_zero, Bool.not_false, filter_all, busy, Bool.false_eq_true, if_false, free,
    checkLanes_resolved hp hf resolved, absentAmong_fateRows _ present, parkAmong_resolved _ resolved, goAmong_fateRows, performed,
    List.isEmpty_nil, Bool.not_true, Bool.false_and, Bool.true_and, if_true, modTeam_of team, consume_zero, raiseFates_acting _ hr,
    checkAccess_eq, helper]
  refine (congrArg (fun vd : List (Nat × Word × Bool) => Host.Outcome.next (s'.setTeam s.cur (if vd.isEmpty then
    trapping t r (accessFaults t.actingLanes (addr t) fate) else
    (trapping t r (accessFaults t.actingLanes (addr t) fate)).issueA s.tick vd [] 0))) found).trans ?_
  rw [accessValues_eq]
  exact congrArg (fun u => Host.Outcome.next (s'.setTeam s.cur u)) 
    (delivered_eq (trapping t r (accessFaults t.actingLanes (addr t) fate)) s.tick d n _)
end

theorem globalLoad_holds : GlobalLoad := by
  intro s t r c d b i z p ht hr hc hp free helpers lanes n addr fate places value resolved clean
  have checked (a : Access) (l : Nat) : fateAt s s.cur t a (addr l) = (checkAccess s s.cur t a false (addr l)).2 := by
    rw [checkAccess_eq]
  obtain ⟨s', only, run⟩ := loadLanes_acts ht hc hr free (ownLane [i.toNat]) [b.toNat, b.toNat + 1] d.toNat n p.toNat
    (addr := fun t l => (t.readPair s.tick b.toNat + (t.readV s.tick i.toNat l).setWidth 64).toNat) hp lanes (checked _) resolved clean
  rw [exec_ldVector, execLdVector, sizeBytes_eq]
  refine ⟨s', _, run, only, ?_⟩
  intro vals faulted
  have same : accessValues t d.toNat fate (fun l => fateAt s s.cur t { Access.load n with watch := 0 } (addr l)) value
      (fun pa => readAt s' (coreOfTeam s.cur) (s.ctxOf t) pa n true) = vals :=
    (congrArg (fun helper => accessValues t d.toNat fate helper value fun pa => readAt s' (coreOfTeam s.cur) (s.ctxOf t) pa n true)
      (funext (checked { Access.load n with watch := 0 }))).trans rfl
  exact same ▸ delivered_of (t := faulted) (r := r) rfl rfl s.tick d.toNat n (accessValues_lanes t d.toNat fate _ value _)

end Sys2Proof.Machine
end

section
/-! SUPPORT. `LD`: the parking of a load that misses, and the scalar form. -/

namespace Sys2Proof.Machine

open Sys2Proof.Claims

/-! ### A load that misses (R139, R211) -/

/-- The team with a load's lanes parked. -/
def Team.parksLoad (t : Team) (addr : Nat → Nat) : Team :=
  let o := t.startOp true true [] [] 0
  let u := o.1.parkAs o.2 (t.actingLanes.map fun l => (l, addr l, [])) [] false
  if (u.countsOn true).isNone then u.holdOn o.2 else u

section
variable {s : State} {t : Team} (ht : s.team s.cur = some t) (hc : Clean t) (free : t.flagFull true = false)
  (vs : Nat → List (Nat × Nat)) (src : List Nat) {d : Nat} (n pol : Nat) {addr : Team → Nat → Nat} (acts : t.actingLanes ≠ [])
  (unhelped : t.loadHelpers d = []) (miss : ∀ l ∈ t.actingLanes, fateAt s s.cur t (Access.load n) (addr t l) = .park)
include ht hc free acts unhelped miss

theorem loadLanes_parks : loadLanes s vs src d n pol addr =
    .next (if 8 ≤ t.parked.length then stallInstr s else s.setTeam s.cur (t.parksLoad (addr t))) := by
  have idle : t.actingLanes.isEmpty = false := by simpa using acts
  have all : ∀ l ∈ t.actingLanes, (fun _ => Fate.park) l = Fate.park := fun _ _ => rfl
  have fates : accessFaults t.actingLanes (addr t) (fun _ => Fate.park) = [] := accessFaults_parked _ all
  have lanes : (t.actingLanes.map fun l => (l, addr t l)).isEmpty = false := by simpa using acts
  unfold Team.loadHelpers at unhelped
  simp only [loadLanes, ht, taint_clean hc, BitVec.getLsbD_zero, Bool.not_false, filter_all, idle, Bool.false_and, Bool.false_eq_true,
    if_false, free, checkLanes_parked miss, absentAmong_fateRows (addr t) (fun l _ pa => (Fate.noConfusion : Fate.park ≠ .absent pa)),
    parkAmong_parked (addr t) all, goAmong_fateRows, goRows_parked all, lanes, Bool.true_and, Team.logFull, decide_eq_true_eq, unhelped,
    performLoads, List.map_nil, List.foldl_nil, List.zip_nil_left, List.filter_nil, List.append_nil, modTeam_of ht, consume_zero,
    raiseFates_eq, fates, loadedElements, ite_self]
  split
  · rfl
  · rw [List.map_map]
    rfl
end

theorem parkAs_parks (t : Team) (op : Nat) (pending : List (Nat × Nat × List Word)) (faulted : List (Nat × Nat × Nat × Word × Bool))
    (forRoom : Bool) :
    ∃ q, t.parkAs op pending faulted forRoom = { t with parked := t.parked ++ [q] } ∧ q.pending = pending ∧ q.faulted = faulted ∧
      q.depth = t.depth ∧ q.framed = false ∧ q.op = op :=
  ⟨_, rfl, rfl, rfl, rfl, rfl, rfl⟩

theorem startOp_held {t : Team} {classA : Bool} (counts : t.countsOn classA = none) (waits : Bool)
    (vd sd : List (Nat × Word × Bool)) (fl : FpFlags) :
    t.startOp classA waits vd sd fl = ({ t with ops := t.ops ++ [t.newOp classA waits vd sd fl], nextOp := t.nextOp + 1 }, t.nextOp) := by
  simp [Team.startOp, Team.newOp, counts]

theorem startOp_counted {t : Team} {classA : Bool} {f : Nat} (counts : t.countsOn classA = some f) (waits : Bool)
    (vd sd : List (Nat × Word × Bool)) (fl : FpFlags) : t.startOp classA waits vd sd fl =
      ({ t.bumpFlag t.depth f with ops := t.ops ++ [t.newOp classA waits vd sd fl], nextOp := t.nextOp + 1 }, t.nextOp) := by
  simp [Team.startOp, Team.newOp, counts, Team.bumpFlag]

/-- The parked word is counted on SETA's flag, or with SETA 15 holds the run. -/
theorem parksLoad_parks {t : Team} {r : Run} (hr : t.run = some r) (addr : Nat → Nat) :
    ∃ q, (t.parksLoad addr).regs = t.regs ∧ (t.parksLoad addr).parked = t.parked ++ [q] ∧
      q.pending = t.actingLanes.map (fun l => (l, addr l, [])) ∧ q.faulted = [] ∧ q.depth = t.depth ∧ q.framed = false ∧
      (r.setA ≠ 15 → (t.parksLoad addr).run = t.run ∧ (t.parksLoad addr).flag r.setA = t.flag r.setA + 1) ∧
      (r.setA = 15 → (t.parksLoad addr).run = some { r with hold := some (.onOp q.op) }) := by
  by_cases h15 : r.setA = 15
  · have counts : t.countsOn true = none := by simp [Team.countsOn, hr, h15]
    have held : t.parksLoad addr = ({ t with ops := t.ops ++ [t.newOp true true [] [] 0], nextOp := t.nextOp + 1 }.parkAs t.nextOp
        (t.actingLanes.map fun l => (l, addr l, [])) [] false).holdOn t.nextOp := by
      unfold Team.parksLoad
      rw [startOp_held counts]
      exact if_pos (congrArg Option.isNone counts)
    obtain ⟨q, parks, pending, faulted, depth, framed, op⟩ := parkAs_parks _ _ _ _ _
    rw [held, parks]
    exact ⟨q, rfl, rfl, pending, faulted, depth, framed, fun h => absurd h15 h, fun _ => by simp [Team.holdOn, Team.modRun, hr, op]⟩
  · have counts : t.countsOn true = some r.setA := by simp [Team.countsOn, hr, h15]
    have counted : t.parksLoad addr = { t.bumpFlag t.depth r.setA with
        ops := t.ops ++ [t.newOp true true [] [] 0], nextOp := t.nextOp + 1 }.parkAs t.nextOp
          (t.actingLanes.map fun l => (l, addr l, [])) [] false := by
      unfold Team.parksLoad
      rw [startOp_counted counts]
      exact if_neg (ne_true_of_eq_false (congrArg Option.isNone counts))
    obtain ⟨q, parks, pending, faulted, depth, framed, op⟩ := parkAs_parks _ _ _ _ _
    rw [counted, parks]
    exact ⟨q, rfl, rfl, pending, faulted, depth, framed, fun _ => ⟨rfl, by simp [Team.flag, Team.bumpFlag]⟩, fun h => absurd h h15⟩

theorem loadParks_holds : LoadParks := by
  intro s t r c d b i z p ht hr hc free unhelped acts addr parks
  have idle : t.loadHelpers d.toNat = [] := by
    unfold Team.loadHelpers
    rcases unhelped with low | zero
    · exact if_neg (Nat.not_le.2 low)
    · rw [zero]; simp [lanesOf]
  have run := loadLanes_parks ht hc free (ownLane [i.toNat]) [b.toNat, b.toNat + 1] (accessBytes z) p.toNat
    (addr := fun t l => (t.readPair s.tick b.toNat + (t.readV s.tick i.toNat l).setWidth 64).toNat) acts idle fun l hl => by
      rw [← parks l hl, checkAccess_eq]
  rw [exec_ldVector, execLdVector, sizeBytes_eq, run]
  refine ⟨fun full => congrArg Host.Outcome.next (if_pos full), fun room => ?_⟩
  obtain ⟨q, parked⟩ := parksLoad_parks hr addr
  exact ⟨_, q, congrArg Host.Outcome.next (if_neg (Nat.not_le.2 room)), parked⟩

/-! ### The scalar form (R356, R358) -/

theorem exec_ldScalar (c : BitVec 1) (d b : BitVec 6) (z : BitVec 2) (o : BitVec 11) (s : State) :
    exec (.ldScalar c d b z o) s = execLdScalar d b z o s := rfl

/-- The scalars that a loaded value goes to. -/
def scalarTargets (m : Mode) (d n v : Nat) : List (Nat × Word) :=
  (if d = 0 then [] else [(sKey m d, BitVec.ofNat 32 v)]) ++ if n = 8 then [(sKey m (d + 1), BitVec.ofNat 32 (v / 2 ^ 32))] else []

theorem loadedScalars_eq (m : Mode) (d n v : Nat) : loadedScalars m d n v false = sound (scalarTargets m d n v) := by
  unfold loadedScalars scalarTargets sound
  split <;> split <;> rfl

theorem sKey_lt_succ (m : Mode) (d : Nat) : sKey m d < sKey m (d + 1) := by
  unfold sKey
  split <;> split <;> omega

theorem nodup_scalarTargets (m : Mode) (d n v : Nat) : ((scalarTargets m d n v).map (·.1)).Nodup := by
  have := (sKey_lt_succ m d).ne
  unfold scalarTargets
  split <;> split <;> simp [this]

theorem trapSet_and_not_held {t : Team} {r : Run} (hr : t.run = some r) :
    t.trapSet &&& ~~~r.held = (if t.k0 = 0#1024 then t.living else t.k0) &&& ~~~r.held := by
  unfold Team.trapSet Team.acting
  split
  · rfl
  · rw [held_of_run hr, BitVec.and_assoc, BitVec.and_self]

section
variable {s : State} {t : Team} {r : Run} (ht : s.team s.cur = some t) (hp : t.parked = []) (src : List Nat)
  (untainted : t.taintS src = false) (acts : t.mute = false) (free : t.flagFull true = false) (a : Access) {addr : Team → Nat}
  (captured : Team → List Word) (act : State → Team → Nat → Nat → Out)
include ht hp untainted acts free

/-- A scalar access that goes is performed once. -/
theorem scalarAccess_goes {pa attr : Nat} {sh : Bool} (go : fateAt s s.cur t a (addr t) = .go pa attr sh) :
    scalarAccess s src true a false addr captured act = act s t pa attr := by
  have checks := checkLanes_resolved (ls := [0]) (addr := fun _ => addr t) hp (fun _ => go) fun _ _ => .inl ⟨pa, attr, sh, rfl⟩
  rw [List.map_singleton] at checks
  simp only [scalarAccess, ht, acts, untainted, free, Bool.false_eq_true, if_false, checks, fateRows, List.map_cons, List.head?_cons,
    Option.map_some, Option.getD_some]

/-- A scalar access that traps strikes its team. -/
theorem scalarAccess_traps {cause detail : Nat} {inH sh : Bool} (trap : fateAt s s.cur t a (addr t) = .trap cause detail inH sh) :
    scalarAccess s src true a false addr captured act =
      .next (s.setTeam s.cur (t.raise t.trapSet cause (BitVec.ofNat 32 detail) (addr t) inH 0)) := by
  have checks := checkLanes_resolved (ls := [0]) (addr := fun _ => addr t) hp (fun _ => trap) fun _ _ => .inr ⟨cause, detail, inH, sh, rfl⟩
  rw [List.map_singleton] at checks
  simp only [scalarAccess, ht, acts, untainted, free, Bool.false_eq_true, if_false, checks, fateRows, List.map_cons, List.head?_cons,
    Option.map_some, Option.getD_some, modTeam_of ht]
end

/-- One load performed without poison. -/
theorem performLoads_one {s : State} {c ctx n pa : Nat} (pol attr : Nat) (clean : (readAt s c ctx pa n true).2 = false) :
    ∃ s', OnlyCaches s s' c ∧ performLoads s c ctx n pol [(0, pa, attr)] = (s', [(0, numberOf (readAt s c ctx pa n true).1, false)]) :=
  ⟨_, onlyCaches_cacheLoad (onlyCaches_refl s c) pol pa attr, performLoads_sound pol fun x hx => by rw [List.mem_singleton.1 hx]; exact clean⟩

theorem scalarLoad_holds : ScalarLoad := by
  intro s t r c d b z o ht hr clean hp acts free n va fate
  have checked : fateAt s s.cur t (Access.load n) va = fate := by simp only [fate, checkAccess_eq]
  have taint : t.taintS [b.toNat, b.toNat + 1] = false := by simp [Team.taintS, clean]
  rw [exec_ldScalar, execLdScalar, sizeBytes_eq]
  refine ⟨fun pa attr sh go unpoisoned => ?_, fun cause detail inH sh trap => ?_⟩
  · obtain ⟨s', only, performed⟩ := performLoads_one 0 attr unpoisoned
    have team : s'.team s.cur = some t := (rest_of_onlyCaches only (·.team s.cur)).trans ht
    refine ⟨s', _, ?_, only, issueA_delivers (vd := []) hr rfl s.tick List.nodup_nil (nodup_scalarTargets t.mode d.toNat n _) 0⟩
    rw [scalarAccess_goes ht hp _ taint acts free _ _ _ (checked.trans go)]
    dsimp only
    rw [performed]
    simp only [List.head?_cons, Option.map_some, Option.getD_some, loadedScalars_eq, modTeam_of team]
    rfl
  · rw [scalarAccess_traps ht hp _ taint acts free _ _ _ (checked.trans trap)]
    simp only [Team.raise, hr, trapSet_and_not_held hr]
    rfl

/-- Settles O13: the checks end in the order that `fateAt` spells out and read no cache, so that lanes that resolve, miss or trap are told apart
before the loads are performed. -/
theorem globalLoads : Obligations.GlobalLoads := ⟨accessChecks_holds, globalLoad_holds, scalarLoad_holds, loadParks_holds⟩

end Sys2Proof.Machine
end
